-- ==== Sys2Proof/Word.lean ====
section
/-! DEFINITION. The word types of the TAL8 and their plainest arithmetic (R2, R3): bytes, 32-bit and
64-bit words, and the bit fields [msb:lsb] of a register word. -/

namespace Sys2Proof

/-- One byte of a message, a buffer or a memory. -/
abbrev Byte := BitVec 8

/-- One register word (R30). -/
abbrev W32 := BitVec 32

/-- A 64-bit field: a stitch (R296), a time stamp (R9). -/
abbrev W64 := BitVec 64

/-- A run of bytes: a message, a record, a buffer's contents. -/
abbrev Bytes := List Byte

/-- Bit `n` of a word, as a truth value (R3: bit 0 is the least significant). -/
def bitAt (w : W32) (n : Nat) : Bool := w.getLsbD n

/-- Field [hi:lo] of a word, as a number (R2, R3). -/
def fld (w : W32) (hi lo : Nat) : Nat := (w.toNat >>> lo) % 2 ^ (hi + 1 - lo)

/-- A word whose field [hi:lo] is `v` and whose other bits are those of `w`. -/
def putFld (w : W32) (hi lo v : Nat) : W32 :=
  BitVec.ofNat 32 (w.toNat - (fld w hi lo <<< lo) + ((v % 2 ^ (hi + 1 - lo)) <<< lo))

/-- A truth value as the number a bit shows. -/
def b2n (b : Bool) : Nat := if b then 1 else 0

/-- The number whose bit `i` is `f i`, for `i < n`. -/
def bitsOf (n : Nat) (f : Nat → Bool) : Nat :=
  match n with
  | 0 => 0
  | k + 1 => bitsOf k f + (if f k then 2 ^ k else 0)

end Sys2Proof
end

