-- ==== Sys2Proof/Syntax.lean ====
section
/-! DEFINITION. The commands of the TAL8: one constructor per row of the table of operations and events,
with the operands that the rules give the operation, and, for an event, the external facts it reports
(levels, samples, measured values, received bytes).
Log entries coded here: 6 (DESIGN CHOICE). -/

namespace Sys2Proof

/-- What the end of a phase reports: the cluster that leads the plan, and the errors that the reads of the phase corrected,
by 192 irons and count (R95, R117). -/
structure PhaseEnd where
  cluster : Fin 8
  corrected : List (Nat × Nat)
  deriving DecidableEq, Repr

/-- A write of one master: who writes, and the bytes (R202). -/
structure MasterWrite where
  master : Fin 37
  bytes : Bytes
  deriving DecidableEq, Repr

/-- The operations and events of the part, one constructor per row of the table. -/
inductive Instr where
  /-- R502: A SYSRST_N low pulse of 10 µs or more is taken as a cold reset, and the lines of R502 are held while it stays low. -/
  | sysrstNLow (pulseNs : Nat) (taken : Bool) (board : List (Nat × Bytes))
  /-- R436: SYSRST_N rises: the AON island leaves reset, the recorder recovers its commit pointers, and the boot ROM self-tests and verifies the security core image. -/
  | sysrstNRelease (selfTest : Nat) (adopt : Bool)
  /-- R436: The verified security core verifies and starts the power-management and scheduler cores, loads the configuration and stitch program, sets the SEC lock and starts strand 0's standby part. -/
  | secFirmwareRunning
  /-- R21: Boot completes with VSTBY and VAON in their windows, and the tray enters STANDBY. -/
  | bootComplete
  /-- R500: VAON outside 0.74 V to 0.88 V for 2 µs is a cold reset. -/
  | vaonLeavesWindow
  /-- R500: VSTBY below 2.95 V for 2 µs clears VSTBY_OK, and RACK_PERMIT and PFAIL_N are then treated as low. -/
  | vstbyLow
  /-- R500: VSTBY has stayed above 3.05 V for 1 ms, and VSTBY_OK sets again. -/
  | vstbyRestored
  /-- R503: PFAIL_N falls past its filter: an off request in PFAIL mode, and a flush of every coalescer entry. -/
  | pfailNFall
  /-- R507: REFCLK100 absent or off-frequency for 10 µs: the lanes move to the crystal-locked synthesiser, tray time enters holdover, and REF_LOST is set. -/
  | refclkLost
  /-- R507: REF_OK has been set for 1 ms, and the lanes move back to REFCLK100. -/
  | refclkReturned
  /-- R507: The crystal stops for 1 µs: the AON island moves to its RC oscillator and applies the 2 K reading bias. -/
  | xtalStopped
  /-- R507: The crystal has run for 10 ms, and the AON island returns to it. -/
  | xtalReturned
  /-- R464: Operating time counts one 1 ms unit while VAON is within its window. -/
  | optimeTick
  /-- R347: RACK_PERMIT falls past its filter, which is an off request and forbids power-on. -/
  | rackPermitLow
  /-- R347: RACK_PERMIT rises past its filter and permits power-on. -/
  | rackPermitHigh
  /-- R347: RACK_OFF_N falls past its filter, which is an off request. -/
  | rackOffNLow
  /-- R347: RACK_OFF_N rises past its filter and no longer forbids power-on. -/
  | rackOffNHigh
  /-- R358: RACK_THROTTLE_N falls: every ACC_THR_N takes the RACK cause, every cluster's budget cap goes to 400 MHz, and FLOOR_EFF replaces CAP_EFF. -/
  | rackThrottleNLow
  /-- R358: RACK_THROTTLE_N rises and starts the 1 ms clearance of the RACK cause. -/
  | rackThrottleNHigh
  /-- R21: With an on order held, RACK_PERMIT high and the minimum off time (and the 50 ms after HSW_EN rises) elapsed, signals are cleared and the strands start at their entries. -/
  | sequencingUpStart
  /-- R21: Every strand has reached END and every A port is trained or recorded as down, and the tray enters READY or DEGRADED. -/
  | sequencingUpEnd
  /-- R307: The last journal entry above STBY_MARK is down, HSW_EN is lowered if a rail failed to fall, and the tray enters STANDBY. -/
  | reverseSequenceEnd
  /-- R310: The whole-journal reverse sequence after an AON trip ends, and the TAL8 turns off. -/
  | aonTripSequenceEnd
  /-- R385: All zones have been below 90 °C for 10 s continuously, and the restart transition of R21 is taken. -/
  | tripRestart
  /-- R18: An island that is powering down finds every crossing entry drained or answered ABSENT, and its supply is removed. -/
  | islandDrained (island : Fin 26)
  /-- R16: Every 1 ms the adjacent-island temperature differences are compared; a 10 ms excess lowers the hotter island, and the episode ends at 25 K. -/
  | gradientCheck
  /-- R30: A write to a register that has no behaviour of its own updates the register under its access code. -/
  | registerWrite (master : Fin 37) (addr : Nat) (value : W32)
  /-- R105: CL_CTRL SUSPEND suspends the cluster, discards unstored outputs, stops spanning plans and starts a self-test. -/
  | suspend (cluster : Fin 8)
  /-- R104: CL_CTRL RESUME returns a SUSPENDED cluster whose last self-test passed to IDLE. -/
  | resume (cluster : Fin 8)
  /-- R104: CL_CTRL SELFTEST starts a self-test of an IDLE or SUSPENDED cluster. -/
  | selftest (cluster : Fin 8)
  /-- R111: CL_CTRL ABORT discards the loaded plan and its held state. -/
  | abort (cluster : Fin 8)
  /-- R112: A write of TARGET_MHZ is clamped and rounded, and the new effective clock is in force within 5 µs. -/
  | clFreqWrite (cluster : Fin 8) (value : W32)
  /-- R113: Clearing a bridge enable with streams bound across it stops the spanning plan under R105. -/
  | bridgeCtrlWrite (cluster : Fin 8) (value : W32)
  /-- R137: A control core checks a plan, refuses it or binds phase 0 and runs it, recording restartability. -/
  | planLoad (cluster : Fin 8)
  /-- R144: The scratch space that a LOADING plan waits for becomes free, and the plan is allocated and starts. -/
  | scratchSpaceFreed (cluster : Fin 8)
  /-- R117: Every stage of a phase has completed its last beat, and the next phase is bound and started. -/
  | phaseComplete (ended : PhaseEnd)
  /-- R101: A self-check fails: the result carries POISON, the iron halts and latches the fault, and the other irons freeze at beat end. -/
  | checkFailure (cluster : Fin 8) (iron : Fin 24) (kind : Fin 3) (unit : Fin 16)
  /-- R102: The quick test of a failing iron ends, and the plan is rerun or the cluster suspended. -/
  | quickTestComplete (cluster : Fin 8) (pass : Bool)
  /-- R104: A cluster self-test ends; the cluster returns to IDLE on a pass and stays SUSPENDED on a failure. -/
  | selftestComplete (cluster : Fin 8) (badIrons : Nat) (badUp badDown : Bool)
  /-- R99: A control core is not running within 60 ms (110 ms with an image load) of its stop; the restart counts as failed, and after two the plan is requeued. -/
  | restartTimeout (cluster : Fin 8)
  /-- R95: A word poisoned at its source outside the Press is reloaded once; if still poisoned the plan ends with FAULT, REASON 2. -/
  | sourcePoisonReload (cluster : Fin 8) (iron : Fin 24) (still : Bool)
  /-- R106: A stall has lasted 1 s without interruption, and one event is recorded. -/
  | stall1s (cluster : Fin 8)
  /-- R107: Every 100 µs a LOAD or STORE that received ABSENT retries its access. -/
  | absentRetry (cluster : Fin 9) (answered : Bool)
  /-- R82: An IDLE or BOUND iron reads its SRAM words and writes back corrected ones within every 100 ms. -/
  | sramScrub (cluster : Fin 8) (iron : Fin 24) (corrected : Nat) (uncorrectable : Bool)
  /-- R87: Hash engines become free and are granted, in request order, to a waiting DIGEST stage. -/
  | hashEngineGrant
  /-- R114: A cluster's supply is good: its registers reset, its control core starts and a self-test runs before IDLE. -/
  | clusterPowerUp (cluster : Fin 8)
  /-- R108: A cluster powered down in SEQUENCING-DOWN aborts its running plan, drops its HLC lines and drains its crossings. -/
  | clusterPowerDown (cluster : Fin 8)
  /-- R155: An accelerator announces a step, and the TAL8 applies the skip reasons and the draw. -/
  | stepOpen (acc : Fin 8) (payload : Bytes)
  /-- R153: A step capsule arrives and is checked in order, accepted into the capsule table or rejected. -/
  | capsule (acc : Fin 8) (payload : Bytes)
  /-- R159: A capsule's inputs are in the evidence area, the bound plan is written, and the replay runs. -/
  | capsuleFetchComplete (src : Nat) (capsule : Nat)
  /-- R161: A replay plan ends and its result gives CLEAN, a mismatch leading to PEER_WAIT, or HOST_WAIT on source POISON. -/
  | replayComplete (src : Nat) (capsule : Nat)
  /-- R167: The peer plan and its copies are in the evidence area, and the first THIRD_REQ is sent. -/
  | peerPlanCopyComplete (src : Nat) (capsule : Nat)
  /-- R166: A peer receives a request for a third execution and reads the plan and its tensors from the requester. -/
  | thirdReq (node : Nat) (payload : Bytes)
  /-- R168: A peer's third execution ends and it answers THIRD_RESULT with a digest or a status. -/
  | thirdExecutionComplete (node : Nat) (req : Nat)
  /-- R164: A peer result arrives, and the capsule is decided or passes to the next peer or HOST_WAIT. -/
  | thirdResult (node : Nat) (payload : Bytes)
  /-- R165: With every peer candidate passed over, the candidates are asked again every 10 ms. -/
  | peerRetry (src : Nat) (capsule : Nat)
  /-- R163: The link confirms delivery of a VERDICT, and the capsule entry becomes FREE. -/
  | verdictDelivered (src : Nat) (capsule : Nat)
  /-- R179: The capture plan ends, the darn is signed and entered into the library, and DARN_OFFER is sent. -/
  | darnCaptureComplete (src : Nat) (capsule : Nat)
  /-- R181: A seam neighbour offers a darn; one not held or quarantined is fetched by MEMRD. -/
  | darnOffer (seam : Fin 4) (payload : Bytes)
  /-- R181: A fetched darn is checked for DARN_ID and signature and prepared on the Press. -/
  | darnFetchComplete (darn : Nat)
  /-- R182: A darn preparation ends; on a match it is entered and offered onward, otherwise rerun or quarantined. -/
  | darnPreparationComplete (darn : Nat)
  /-- R184: A neighbour asks for a darn, and the node answers with its address if it holds it. -/
  | darnWant (seam : Fin 4) (payload : Bytes)
  /-- R183: An accelerator returns a screening digest; a mismatch is FAULTY-ACC with MODE 2. -/
  | screenResult (acc : Fin 8) (payload : Bytes)
  /-- R177: A self-tagged TAL8's capsule arrives at its delegate for replay and judgement. -/
  | delegateCapsule (node : Nat) (payload : Bytes)
  /-- R177: The delegate's verdict arrives and is applied under R170 to R174. -/
  | delegateVerdict (node : Nat) (payload : Bytes)
  /-- R201: A quadrant controller reads a word, corrects it, rereads it once or delivers it with POISON. -/
  | dramRead (addr : Nat) (master : Fin 37) (err1 err2 : Bytes)
  /-- R202: A write replaces whole words or read-modify-writes partial ones, refusing words that are uncorrectable. -/
  | dramWrite (addr : Nat) (store : MasterWrite) (err : Bytes)
  /-- R204: The patrol scrubber reads its next word on its even spread and corrects it. -/
  | patrolScrubRead (stack : Fin 4) (err1 err2 : Bytes)
  /-- R205: Writing NOW starts an immediate pass at 10 GB/s per stack. -/
  | scrubNow
  /-- R205: An immediate pass ends, NOW clears and the patrol resumes. -/
  | scrubPassComplete (stack : Fin 4)
  /-- R193: Every 1 ms MCq reads its DRAM die sensors, declares broken ones and raises the refresh band. -/
  | dramTempRead (stack : Fin 4) (temps : List Int)
  /-- R194: The DRAM die temperature has stayed 2 K below the band boundary for 100 ms, and the band falls. -/
  | refreshBandLower (stack : Fin 4)
  /-- R200: A write of TC_MODE selects C1D3 or C2 for every decoder from the next decode. -/
  | tcModeWrite (value : W32)
  /-- R210: A quadrant controller's training ends; on failure it retries or marks FAILED and suspends every cluster. -/
  | memTrainingComplete (stack : Fin 4) (ok : Bool)
  /-- R209: A stack is zero-filled and READY; with all four, MEM_STATE becomes READY. -/
  | memZeroFillComplete (stack : Fin 4)
  /-- R218: Setting EN in PORT_CTRL moves the port from OFF to HOLD or TRAINING, after any shut-down in progress. -/
  | portEnable (port : Fin 13)
  /-- R218: Writing RETRAIN in PORT_CTRL or SU_CTRL puts the port into RETRAIN. -/
  | portRetrainRequest (port : Fin 13)
  /-- R218: All four lanes reach the training error ratio, and the port enters LOCKED. -/
  | lanesTrained (port : Fin 13) (inverted : Nat)
  /-- R218: FEC codeword and flit alignment complete, and the port enters IDENT. -/
  | flitAligned (port : Fin 13)
  /-- R219: The partner's LINK_ID arrives, the identity is checked, and the port goes UP or stays in IDENT with MISMATCH. -/
  | linkId (port : Fin 13) (payload : Bytes)
  /-- R237: Part of a neighbour's link table arrives in IDENT and fills this node's table. -/
  | linkMap (seam : Fin 4) (payload : Bytes)
  /-- R449: A seam partner's certificate arrives, its chain is checked and its attestation key cached and passed on. -/
  | keyCert (seam : Fin 4) (payload : Bytes)
  /-- R218: A training attempt has not reached IDENT in 60 ms; it is counted and the port enters DOWN. -/
  | trainingTimeout (port : Fin 13)
  /-- R218: Every 1 s a DOWN port retries training. -/
  | downRetry (port : Fin 13)
  /-- R219: Every 1 s a seam port held in IDENT by a mismatch checks its partner again. -/
  | identRecheck (seam : Fin 4)
  /-- R226: FEC alignment is lost or no good flit passes for 1 µs; the port enters RETRAIN and the seam link counts as down. -/
  | portFailure (port : Fin 13) (align : Bool)
  /-- R225: A fast retrain ends; on success the port replays from the oldest unacknowledged flit, otherwise it goes DOWN and queued messages are answered. -/
  | retrainComplete (port : Fin 13) (ok : Bool)
  /-- R222: A flit is decoded, checked for SEQ, acknowledgements and credits taken, and a NAK is sent for a bad or out-of-order flit. -/
  | flitReceived (port : Fin 12) (bytes : Bytes)
  /-- R224: A NAK arrives and the transmitter resends from the named SEQ, retraining at the replay limit. -/
  | nak (port : Fin 12) (seq : Nat)
  /-- R223: 27 slots have passed without a CTRL flit, and the next slot carries one. -/
  | ctrlSlotDue (port : Fin 13)
  /-- R234: Every 1 ms, and within 20 µs of a change, the TAL8 sends TRAY_STATUS on every UP port. -/
  | trayStatusSend
  /-- R234: An accelerator reports its running work and temperature; a drained accelerator with no work and no open capsule is powered down. -/
  | accStatus (acc : Fin 8) (payload : Bytes)
  /-- R238: A node injects a message and chooses XY, YX or answers UNREACHABLE from its link table. -/
  | messageInject (header : Bytes) (payload : Bytes)
  /-- R242: A flit for another node is forwarded cut-through, turned around a DOWN link, or dropped at HOPS 127. -/
  | flitForward (port : Fin 12) (header : Bytes) (payload : Bytes)
  /-- R237: A link-state notice is applied if its EPOCH is newer, and flooded on when it changed the table. -/
  | linkNotice (seam : Fin 4) (payload : Bytes)
  /-- R237: The owner's port has stayed UP for 100 ms without a replay storm, and the link is declared UP and flooded. -/
  | linkUpDeclare (seam : Fin 4)
  /-- R243: Every 1 ms each seam port sends a TIME flit with the stamps of the previous exchange. -/
  | timeExchange (seam : Fin 4)
  /-- R243: A partner's TIME flit arrives, LINK_DELAY is updated, and in SEAM mode the offset to the parent is measured. -/
  | timeFlit (seam : Fin 4) (payload : Bytes) (arrival : Nat)
  /-- R244: A far-end loopback request arrives; the port returns every flit unchanged and its link becomes DOWN. -/
  | loopReq (port : Fin 12) (payload : Bytes)
  /-- R220: An accelerator declares its memory windows after its port goes UP. -/
  | windowDecl (acc : Fin 8) (payload : Bytes)
  /-- R207: A read request arrives, is checked against the firewall and inbound ranges, and is answered with RD_DATA or ERR. -/
  | rdReq (port : Fin 12) (header : Bytes) (payload : Bytes)
  /-- R232: Read data arrives for an outstanding request, with POISON per payload word. -/
  | rdData (port : Fin 12) (header : Bytes) (payload : Bytes)
  /-- R207: A write request arrives, is checked, and is performed and answered WR_ACK or refused with ERR. -/
  | wrReq (port : Fin 12) (header : Bytes) (payload : Bytes)
  /-- R232: A write acknowledgement completes an outstanding write. -/
  | wrAck (port : Fin 12) (header : Bytes) (payload : Bytes)
  /-- R233: An error response arrives; ABSENT or UNREACHABLE is handled as ABSENT by the requester. -/
  | err (port : Fin 12) (header : Bytes) (payload : Bytes)
  /-- R235: A forwarded message arrives for an endpoint and is delivered, or answered ERR status 3. -/
  | fwd (port : Fin 12) (header : Bytes) (payload : Bytes)
  /-- R280: A peer's MGMT order arrives for MBX14, and one over an A port is denied. -/
  | order (port : Fin 12) (header : Bytes) (payload : Bytes)
  /-- R280: A peer's reply to an order sent to it arrives. -/
  | orderReply (port : Fin 12) (header : Bytes) (payload : Bytes)
  /-- R248: Clearing FWD_EN makes the node refuse every flit in transit, and its neighbours see its links DOWN. -/
  | routeCtrlWrite (value : W32)
  /-- R255: A Suorta frame is checked for CRC and SEQ, acknowledgements and credits are taken, and pending notices are sent. -/
  | frameReceived (bytes : Bytes)
  /-- R256: A host read of a TAL8 address is served, carried over the seams for a peer window, or refused. -/
  | hRd (header : Bytes) (payload : Bytes)
  /-- R256: A host write is performed and acknowledged once visible to every master, or refused. -/
  | hWr (header : Bytes) (payload : Bytes)
  /-- R263: A host write-back of HCR lines is performed, or refused when poisoned or after HCR_LOST. -/
  | hWb (header : Bytes) (payload : Bytes)
  /-- R258: The host invalidates a range of host lines and the TAL8 answers SNP_ACK. -/
  | snpInv (header : Bytes) (payload : Bytes)
  /-- R261: The host grants a claim on HCR lines and the TAL8 performs the claimed access. -/
  | grant (header : Bytes) (payload : Bytes)
  /-- R258: Read data arrives from the host, serves the waiting reads and fills the HLC unless snooped or poisoned. -/
  | data (header : Bytes) (payload : Bytes)
  /-- R253: The host acknowledges a WR_NC or DROP, completing it. -/
  | ack (header : Bytes) (payload : Bytes)
  /-- R264: The host resets the link state: the HLC is emptied, requests answered ABSENT and host mailboxes return to version 3.2. -/
  | hostReset
  /-- R264: The Suorta link enters DOWN and the TAL8 acts as on HOST_RESET. -/
  | suortaLinkDown
  /-- R329: A host TIME frame arrives; the TAL8 replies and, if TRACEABLE, measures its offset and slews or steps. -/
  | timeFrame (header : Bytes) (payload : Bytes)
  /-- R281: A host FWD frame is injected as one FWD message. -/
  | fwdFrame (header : Bytes) (payload : Bytes)
  /-- R266: Writing SUBMIT in MB_CTRL moves an IDLE mailbox to SUBMITTED, or sets COLLIDE. -/
  | submit (mb : Fin 16)
  /-- R266: Writing RELEASE returns a REPLIED mailbox to IDLE. -/
  | release (mb : Fin 16)
  /-- R266: Writing ABORT returns a SUBMITTED mailbox to IDLE without a reply. -/
  | mailboxAbort (mb : Fin 16)
  /-- R428: An order not taken within 30 µs, or for a down core, is answered HELD_RESTARTING by the hardware responder. -/
  | orderTakeTimeout (mb : Fin 16)
  /-- R278: A vendor-defined MCTP message on TW30 or TW31 carries an order to MBX12 or MBX13, or is answered BUSY. -/
  | mctpOrder (port : Fin 2) (tagged : Nat) (message : Bytes)
  /-- R278: MCTP control message that sets the endpoint ID of the port. -/
  | setEndpointId (port : Fin 2) (tagged : Nat) (message : Bytes)
  /-- R278: MCTP control message that returns the endpoint ID. -/
  | getEndpointId (port : Fin 2) (tagged : Nat) (message : Bytes)
  /-- R278: MCTP control message that returns the endpoint UUID. -/
  | getEndpointUuid (port : Fin 2) (tagged : Nat) (message : Bytes)
  /-- R278: MCTP control message that returns the supported MCTP versions. -/
  | getMctpVersionSupport (port : Fin 2) (tagged : Nat) (message : Bytes)
  /-- R278: MCTP control message that returns the supported message types. -/
  | getMessageTypeSupport (port : Fin 2) (tagged : Nat) (message : Bytes)
  /-- R278: MCTP control message that returns the vendor-defined message support. -/
  | getVendorDefinedMessageSupport (port : Fin 2) (tagged : Nat) (message : Bytes)
  /-- R276: Negotiates the mailbox's version and returns CHIP_ID and CHIP_CAP. -/
  | hello (mb : Fin 16)
  /-- R275: Returns operating time and power-cycle count. -/
  | ping (mb : Fin 16)
  /-- R275: Returns tray state, degrade causes, island power, cores down and node identity. -/
  | trayQuery (mb : Fin 16)
  /-- R275: Reads up to 1,024 register words within the source's firewall windows. -/
  | regRead (mb : Fin 16)
  /-- R275: Writes one register word under a mask within the source's firewall windows. -/
  | regWrite (mb : Fin 16)
  /-- R275: Sets NODE_ID and TORUS_DIM before the SEC lock. -/
  | identitySet (mb : Fin 16)
  /-- R34: Sets the target of one peer window slot. -/
  | peerWinSet (mb : Fin 16)
  /-- R259: Enables the host-line cache, or disables it by dropping every line and clearing ACTIVE. -/
  | hlcCtrl (mb : Fin 16)
  /-- R262: Sets the host-cacheable range, refused while MEM is READY. -/
  | hcrSet (mb : Fin 16)
  /-- R519: The on order, acting by tray state and answered with ACCEPTED, DONE or a final status. -/
  | trayOn (mb : Fin 16)
  /-- R21: The off order, an off request that starts SEQUENCING-DOWN and sets TRAY_HOLD from the rack. -/
  | trayOff (mb : Fin 16)
  /-- R311: Powers one accelerator's group off in reverse journal order or on from ACC_ENTRY. -/
  | accPower (mb : Fin 16)
  /-- R275: Returns voltage, current and state of up to 256 rails. -/
  | railQuery (mb : Fin 16)
  /-- R316: Replaces the stitch program and rail table in STANDBY from the host window. -/
  | stitchLoad (mb : Fin 16) (image : Bytes)
  /-- R316: Replaces the slot table of a MODE 1 image in STANDBY. -/
  | slotLoad (mb : Fin 16) (image : Bytes)
  /-- R315: Returns valid first-failure records from FIRST upwards. -/
  | faillogRead (mb : Fin 16)
  /-- R297: Applies a clamped margin step to a PMBus rail that is ON. -/
  | margin (mb : Fin 16) (trim : W32)
  /-- R326: Returns rail energy counters in nJ. -/
  | meterRead (mb : Fin 16)
  /-- R342: Frees previously delivered batches, applies waiting closes and writes signed batches to the host. -/
  | ticketFetch (mb : Fin 16)
  /-- R342: Returns the signed record of a batch still in the store. -/
  | batchQuery (mb : Fin 16)
  /-- R325: Sweeps the named sense channels, or adds them to a running sweep. -/
  | calibrate (mb : Fin 16)
  /-- R330: Steps tray time to TAI_NS, refused on a SEAM follower. -/
  | timeSet (mb : Fin 16)
  /-- R400: Returns the sensor report. -/
  | thermalQuery (mb : Fin 16)
  /-- R400: Returns the cooling report. -/
  | coolQuery (mb : Fin 16)
  /-- R394: Raises one channel's duty for HOLD_MS, refused below the required duty or for a leak-closed valve. -/
  | coolOverride (mb : Fin 16)
  /-- R400: Returns the leak report. -/
  | leakQuery (mb : Fin 16)
  /-- R399: Signed reset of a DRY loop that raised a leak response, ending the response when all its loops are reset. -/
  | leakReset (mb : Fin 16)
  /-- R349: Records the source's cap and floor and recomputes CAP_EFF and FLOOR_EFF. -/
  | capSet (mb : Fin 16)
  /-- R349: Returns the caps, floor and grants in force. -/
  | capQuery (mb : Fin 16)
  /-- R363: Queues a work item with its energy and heat for release by the ledger. -/
  | workSubmit (mb : Fin 16)
  /-- R364: Removes a waiting work item. -/
  | workCancel (mb : Fin 16)
  /-- R368: Returns the ledger report. -/
  | ledgerQuery (mb : Fin 16)
  /-- R187: Sets sampling rates, bias, windows, peers, delegate and AS_CTRL. -/
  | assurePolicy (mb : Fin 16)
  /-- R158: Adds or replaces a replay registry entry, clears STALE and requeues PLAN_WAIT capsules. -/
  | replayRegister (mb : Fin 16)
  /-- R158: Removes a replay registry entry. -/
  | replayRemove (mb : Fin 16)
  /-- R187: Returns a job's LCS, open capsules and frozen state. -/
  | jobQuery (mb : Fin 16)
  /-- R173: Resumes a job at step L, withdrawing later capsules and unfreezing it. -/
  | jobRollback (mb : Fin 16)
  /-- R187: Frees a job with no open capsule. -/
  | jobClose (mb : Fin 16)
  /-- R169: Ends a PLAN_WAIT or HOST_WAIT capsule with COMMIT, DISCARD or FAULT_ACC. -/
  | capsuleRelease (mb : Fin 16)
  /-- R175: Signed clear of an accelerator's tag and group block. -/
  | accUntag (mb : Fin 16)
  /-- R180: Returns darn library index entries. -/
  | darnQuery (mb : Fin 16)
  /-- R177: Signed clear of the TAL8's self-tag. -/
  | selfUntag (mb : Fin 16)
  /-- R137: Submits a plan image by address for loading and running. -/
  | planSubmit (mb : Fin 16)
  /-- R275: Returns a plan's state and progress. -/
  | planQuery (mb : Fin 16)
  /-- R275: Aborts a waiting or running plan. -/
  | planAbort (mb : Fin 16)
  /-- R105: Suspends, resumes or self-tests a cluster. -/
  | clusterCtrl (mb : Fin 16)
  /-- R472: Returns whole event records of Keep or Tumble from FROM. -/
  | eventRead (mb : Fin 16)
  /-- R473: Signed clear of Tumble after flushing the coalescer, writing a CLEARED record. -/
  | eventClear (mb : Fin 16)
  /-- R482: Checks a configuration image and writes it into the target slot. -/
  | configStage (mb : Fin 16) (image : Bytes)
  /-- R484: Activates a STAGED generation in STANDBY, or defers it on an emergency latch. -/
  | configActivate (mb : Fin 16)
  /-- R489: Signed activation of the PREVIOUS slot. -/
  | rollback (mb : Fin 16)
  /-- R483: Returns slot generations, states, probation and owner. -/
  | configQuery (mb : Fin 16)
  /-- R451: Returns a signed attestation report over the nonce. -/
  | attest (mb : Fin 16)
  /-- R448: Returns a public key and its certificate. -/
  | keyQuery (mb : Fin 16)
  /-- R438: Copies a verified firmware image into a slot of its class. -/
  | fwStage (mb : Fin 16) (image : Bytes)
  /-- R439: Makes a slot active and restarts the named cores one at a time, or defers on a latch. -/
  | fwActivate (mb : Fin 16)
  /-- R431: Stops and restarts one core, clearing its held state and stop count. -/
  | coreRestart (mb : Fin 16)
  /-- R455: Signed release of a pinned master. -/
  | unpin (mb : Fin 16)
  /-- R444: Lowers starch limits, capping clusters while VCORE moves to a lower limit. -/
  | starchTighten (mb : Fin 16)
  /-- R456: Unlocks the debug port in STANDBY on a correct vendor response and advances EPOCH. -/
  | debugUnlock (mb : Fin 16)
  /-- R277: TAL2 command carried out as HELLO, returning CHIP_ID. -/
  | getId (mb : Fin 16)
  /-- R277: TAL2 command carried out as TRAY_ON with COMPLETION one. -/
  | powerOn (mb : Fin 16)
  /-- R277: TAL2 command carried out as TRAY_OFF with COMPLETION one. -/
  | powerOff (mb : Fin 16)
  /-- R277: TAL2 command carried out as RAIL_QUERY for at most 64 rails. -/
  | readRails (mb : Fin 16)
  /-- R277: TAL2 command always refused with DENIED. -/
  | loadSlots (mb : Fin 16)
  /-- R277: TAL2 command that returns the active slot table. -/
  | readSlots (mb : Fin 16)
  /-- R277: TAL2 command carried out as THERMAL_QUERY, returning 16 remote-diode readings. -/
  | readTemps (mb : Fin 16)
  /-- R277: TAL2 command carried out as COOL_OVERRIDE with HOLD_MS 0. -/
  | setFan (mb : Fin 16)
  /-- R277: TAL2 command carried out as FAILLOG_READ. -/
  | readLog (mb : Fin 16)
  /-- R277: TAL2 command carried out as METER_READ, returning energy in mJ. -/
  | readEnergy (mb : Fin 16)
  /-- R296: Stitch that stops its strand. -/
  | stEnd (strand : Fin 16)
  /-- R301: Stitch that enables a rail once its parents are ON, or completes at once if blocked, ON or FAILED. -/
  | stEnable (strand : Fin 16)
  /-- R304: Stitch that disables a rail and its dependants in reverse journal order. -/
  | stDisable (strand : Fin 16)
  /-- R296: Stitch that waits B µs. -/
  | stWait (strand : Fin 16)
  /-- R298: Stitch that waits for a rail to be ON, with its own timeout. -/
  | stWaitpg (strand : Fin 16)
  /-- R296: Stitch that samples a rail, sets C and optionally fails the rail with CHECK. -/
  | stCheck (strand : Fin 16) (mv da : Nat)
  /-- R296: Stitch that sets the next stitch. -/
  | stJump (strand : Fin 16)
  /-- R296: Stitch that jumps when its condition holds. -/
  | stJumpif (strand : Fin 16)
  /-- R296: Stitch that sets a signal, completing any AWAIT on it. -/
  | stSignal (strand : Fin 16)
  /-- R296: Stitch that waits for a signal. -/
  | stAwait (strand : Fin 16)
  /-- R296: Stitch that records a CLASS 2 CODE 6 event. -/
  | stLog (strand : Fin 16)
  /-- R297: Stitch that writes a clamped VOUT_TRIM margin to a PMBus rail. -/
  | stitchMargin (strand : Fin 16) (trim : W32)
  /-- R301: The last parent of a waiting rail becomes ON, and its enable action is issued and journalled. -/
  | parentsOn (rail : Fin 256)
  /-- R287: An enable or disable action completes at its pin, line or PMBus acknowledgement, and the stitch completes. -/
  | enableActionComplete (rail : Fin 256)
  /-- R417: A PMBus write not acknowledged is retried 50 µs later; after three attempts the rail fails with EN_FAIL. -/
  | pmbusAttemptRetry (rail : Fin 256)
  /-- R296: A WAIT stitch's B µs have passed and it completes. -/
  | waitElapsed (strand : Fin 16)
  /-- R290: A rail's power-good source first reports good, the rail becomes ON and a WAITPG on it completes. -/
  | powerGood (rail : Fin 256)
  /-- R298: A WAITPG timeout passes without power-good, and the rail fails with NO_PG. -/
  | waitpgTimeout (strand : Fin 16) (mv da tUs : Nat)
  /-- R290: A FALLING rail's voltage drops below OFF_MV and it becomes OFF. -/
  | railBelowOff (rail : Fin 256)
  /-- R304: A rail's OFF_GAP_US passes, and the next rail of the isolation or reverse sequence is disabled. -/
  | offGapElapsed (rail : Fin 256)
  /-- R291: A rail is still at or above OFF_MV after FALL_TMO and fails with NO_FALL. -/
  | fallTimeout (rail : Fin 256) (mv da tUs : Nat)
  /-- R291: UV, OV, OC or PG_LOST holds for DEB samples and the rail fails. -/
  | railFailureDetected (rail : Fin 256) (cause : Fin 4) (mv da tUs : Nat)
  /-- R288: Every 100 µs a PG_KIND 2 rail's STATUS_WORD is polled; ten missed polls count as not good. -/
  | statusWordPoll (rail : Fin 256) (word : Option W32) (pastBlank : Bool) (tUs : Nat)
  /-- R294: A strand executes 65,536 stitches without END; it stops, LOOP is set and an off request follows. -/
  | strandLoopLimit (strand : Fin 16)
  /-- R308: 10 ms after the last PFAIL-mode disable, every rail still at or above OFF_MV fails with NO_FALL. -/
  | pfailFallCheck (mv : List Nat) (tUs : Nat)
  /-- R313: A slot rail's ON_DLY from the common start is reached and it is enabled subject to its parents. -/
  | slotEnableTime (rail : Fin 256)
  /-- R313: A slot rail's off-delay and its predecessor's completion are both reached, and it is disabled. -/
  | slotDisableTime (rail : Fin 256)
  /-- R314: The latched first failure of a sequence is written to the non-volatile ring. -/
  | firstFailureWritten (torn : Bool)
  /-- R302: A write of ST_GROUP_BLOCK blocks or unblocks accelerator groups from being enabled. -/
  | stGroupBlockWrite (value : W32)
  /-- R326: Every 1 µs each rail's sample energy is added exactly into its accumulator. -/
  | meterSample (volts amps : List Int)
  /-- R325: A calibration sweep starts at power-up, every CAL_PERIOD or after a 5 K change of the sense die. -/
  | calSweepStart
  /-- R324: One channel's two-point calibration ends and its new coefficients are accepted or refused. -/
  | channelCalComplete (channel : Fin 512) (gain offset : W32) (dac : Nat)
  /-- R325: A sweep ends and CAL_ID is incremented if any coefficient changed. -/
  | calSweepEnd
  /-- R330: A decided time step is applied at the next 10 µs boundary, closing the interval in progress. -/
  | timeStepApply
  /-- R333: An accelerator's INTERVAL message arrives and is checked for use. -/
  | attribInterval (acc : Fin 8) (payload : Bytes)
  /-- R333: At the end of an interval plus ATTRIB_LAG, its energy is divided among requests, overhead and IDLE. -/
  | intervalAttribution
  /-- R335: A request has appeared in no used INTERVAL for TICKET_IDLE_MS and closes with IDLE_CLOSE. -/
  | ticketIdleClose (request : Nat)
  /-- R335: A request reaches TICKET_MAX_S, issues a CONTINUED ticket and reopens. -/
  | ticketMaxClose (request : Nat)
  /-- R338: BATCH_MS passes after a batch's first ticket and the batch closes. -/
  | batchTimeClose
  /-- R341: The security core forms the Merkle root and signs a closed batch. -/
  | batchSigned
  /-- R352: Every 1 ms the power-management core computes RESERVE, TH_W, grants and throttle levels, sends GRANTs and caps clusters. -/
  | budgetPeriod
  /-- R361: While the power-management core is down, the AON island repeats the last grants every 1 ms with HELD. -/
  | heldGrantRepeat
  /-- R351: An accelerator's demand arrives for the next split. -/
  | demand (acc : Fin 8) (payload : Bytes)
  /-- R359: Every 10 µs an accelerator's 100 µs mean power is compared with its guard level, tripping the GUARD cause. -/
  | guardCompare (acc : Fin 8) (meanW : Nat)
  /-- R359: 1.1 ms after a decreased GRANT is sent, GUARD takes the new grant. -/
  | guardLevelUpdate (acc : Fin 8)
  /-- R358: The clearance time of a RACK or GUARD cause passes and ACC_THR_N is released if no cause holds. -/
  | accThrCauseClear (acc : Fin 8) (guard : Bool)
  /-- R362: Every 1 ms the scheduler core credits balances, releases work items and starts Press plans by class. -/
  | ledgerPeriod
  /-- R356: Every 100 ms a TRAY_SUMMARY is sent to the configured host. -/
  | traySummary
  /-- R371: Every 20.48 µs the ring-oscillator sensors convert, zones are updated and trip votes taken. -/
  | ringSensorConversion (counts : List Nat) (temps : List Int)
  /-- R372: Every 10 ms a remote diode converts and may set the SAFETY cause of its accelerator. -/
  | remoteDiodeConversion (diode : Fin 16) (reading : Option Int)
  /-- R386: Every diode of an accelerator has read 5 K below its limit for 10 ms, and SAFETY clears. -/
  | diodeSafetyClear (acc : Fin 8)
  /-- R373: Every 10 ms a thermistor converts or is faulted. -/
  | thermistorConversion (input : Fin 32) (ohms : Nat)
  /-- R378: A faulted diode or thermistor has converted within range for 1 s and the fault clears. -/
  | inputFaultClear (thermistor : Bool) (input : Fin 32)
  /-- R379: Every 1 ms each island's oscillator and bandgap trims are set from its local sensor. -/
  | trimUpdate
  /-- R381: Every 100 µs each cluster's thermal limit is lowered or raised from its zones. -/
  | thermalLimitStep
  /-- R390: Every 1 ms the AON island sets each cooling output's duty. -/
  | coolingOutputUpdate
  /-- R392: Writing KICK in WDG_CTRL restarts the cooling watchdog. -/
  | kick (value : W32)
  /-- R392: Writing RELEASE after a recent kick returns fired outputs from full. -/
  | wdgRelease
  /-- R392: WDG_MS passes without a kick; every output goes to full. -/
  | coolingWatchdogFire
  /-- R393: A fan or pump below MIN_RPM for 2 s forces its group to full. -/
  | fanPumpFailure (channel : Fin 56) (rpm : Nat)
  /-- R393: A loop's flow below MIN for 1 s forces its pumps to full. -/
  | flowLow (flow : Fin 16) (rate : Nat)
  /-- R393: A failed channel or low loop has recovered for 10 s and the forced full ends. -/
  | coolingFailureRecovery (isFlow : Bool) (index : Fin 56) (speed : Nat)
  /-- R389: Every 100 ms tachometer speeds and flows are reported. -/
  | tachReport (rpm : List Nat) (rates : List Nat)
  /-- R395: Every 10 ms the power-management core reports QCAP_W. -/
  | qcapReport
  /-- R394: A cooling override's HOLD_MS ends. -/
  | overrideExpiry (channel : Fin 56)
  /-- R396: Every 10 ms each leak loop is measured and classed after three agreeing measurements. -/
  | leakMeasurement (loop : Fin 48) (ins cont : Nat)
  /-- R399: A warn-and-throttle loop has read DRY for 10 s and its response ends. -/
  | relaxedResponseEnd (loop : Fin 48)
  /-- R405: Writing GO in TW_XFER queues a core transaction on the port. -/
  | go (port : Fin 32) (value : W32)
  /-- R405: A two-wire transaction ends with its result, and the next requester is served. -/
  | twTransactionEnd (port : Fin 32) (result : Fin 16) (data : Bytes)
  /-- R408: SCL and SDA have been high for 50 µs and the bus is idle. -/
  | busIdleDetect (port : Fin 32)
  /-- R412: SCL is held low longer than TMO_MS; the transaction ends with TIMEOUT and recovery starts. -/
  | sclLowTimeout (port : Fin 32)
  /-- R413: SDA low with SCL high for 50 µs without START starts recovery. -/
  | stuckSdaDetect (port : Fin 32)
  /-- R413: After the RST_N pulse and 1 ms, the port checks the lines and becomes idle or STUCK. -/
  | resetLineRelease (port : Fin 32) (sclHigh sdaHigh : Bool)
  /-- R413: Every 1 s a STUCK port repeats recovery. -/
  | stuckRetry (port : Fin 32) (sclHigh sdaHigh : Bool)
  /-- R416: A target port sees no transaction for STBY_MS and enters STANDBY. -/
  | targetStandbyEntry (port : Fin 32)
  /-- R416: A STANDBY port sees its address, refuses that transaction and wakes. -/
  | targetWake (port : Fin 32)
  /-- R418: A START or STOP where a bit was due, or a PEC error, discards the partial target transaction. -/
  | targetProtocolError (port : Fin 32) (pecError : Bool)
  /-- R405: A write addressed to the port's target function completes into TW_TBUF. -/
  | targetWriteReceived (port : Fin 32) (data : Bytes)
  /-- R421: Writing GO in TW_STEST, or a configuration load with STEST, runs a bus self-test. -/
  | twStestGo (port : Fin 32) (pass : Bool)
  /-- R425: A core's watchdog expires and the core stops. -/
  | coreWatchdogExpiry (core : Fin 11)
  /-- R425: A core writes its bit of CORE_KICK, restarting its watchdog. -/
  | coreKick (core : Fin 11)
  /-- R427: A core takes a fatal exception or an uncorrectable memory error and stops. -/
  | coreFatalException (core : Fin 11) (memory : Bool)
  /-- R429: A restarted core runs again, reads its held state, answers interrupted orders and releases its mailbox. -/
  | coreRestartComplete (core : Fin 11)
  /-- R441: A newly activated core completes 10 min without a stop and its class's SVN floor rises. -/
  | probationPass (core : Fin 11)
  /-- R440: The last emergency latch clears and a pending firmware activation starts. -/
  | deferredActivationStart
  /-- R485: A configuration activation is applied in STANDBY once every latch is clear. -/
  | configActivationApply
  /-- R488: With ROLLBACK_DUE set, at the next STANDBY the PREVIOUS slot or factory image is activated. -/
  | rollbackApply
  /-- R453: An access that no window admits is refused, captured and its master pinned. -/
  | firewallViolation (master : Fin 37) (addr : Nat) (length : Nat) (write : Bool)
  /-- R443: VCORE above the limit plus 25 mV for 100 µs caps every cluster at 400 MHz and rewrites the limit. -/
  | vcoreBackstop (mv : Nat)
  /-- R443: VCORE has stayed within its window for 1 ms and the 400 MHz cap is released. -/
  | vcoreCapRelease
  /-- R468: An event is queued, coalesced or lost. -/
  | eventRaised (cls code inst : Nat) (data : Bytes)
  /-- R467: A queued event's record is written to Tumble and Keep and its commit pointer advanced. -/
  | recordCommit
  /-- R471: A coalescer entry's 1 s quiet or 10 s flood time passes and its REPEAT and RCHK are written. -/
  | coalescerFlush (index : Fin 8)
  /-- R308: PFAIL_N returns high past its filter, so PFAIL mode and the live PFAIL bit end. -/
  | pfailNRise
  /-- R464: VAON returns into its window after being absent, so the AON island starts again and POWER_CYCLES increments. -/
  | vaonRestored (selfTest : Nat) (adopt : Bool)
  /-- R218: Clearing EN in PORT_CTRL or SU_CTRL shuts a port down to OFF, ending TEST and any service traffic. -/
  | portDisable (port : Fin 13)
  /-- R413: A write of TW_CTRL that enables a two-wire port starts stuck-bus recovery, and one that writes MODE 0 releases the lines after the current transaction. -/
  | twCtrlWrite (port : Fin 32) (value : W32)
  /-- R204: Writing PERIOD_H in SCRUB_CTRL re-spreads the patrol, and a value of 0 stops it and records an event. -/
  | scrubPeriodWrite (value : W32)
  /-- R313: A slot rail's PG_TMO runs out after its enable without power-good, and the rail fails with NO_PG. -/
  | slotPgTimeout (rail : Fin 256) (mv da tUs : Nat)
  /-- R482: The write of a staged configuration image into its slot has been read back, and the slot moves from EMPTY to STAGED with the COMPLETION notice. -/
  | configStageComplete
  /-- R438: A firmware image copied into its slot has been written and read back, its header is written last, and the order completes. -/
  | fwStageComplete
  /-- R405: A read addressed to a port's target function is served from TW_TSEND. -/
  | targetReadReceived (port : Fin 32) (count : Nat)
  /-- R408: A START by another controller on the bus, not addressed to this port, moves the port to BUSY_OTHER. -/
  | busStartSeen (port : Fin 32)
  /-- R408: A STOP on the bus makes the port treat the bus as idle and leave BUSY_OTHER. -/
  | busStopSeen (port : Fin 32)
  deriving DecidableEq, Repr

end Sys2Proof
end

