-- ==== Sys2Proof/Machine/Bytes.lean ====
section
/-! DEFINITION. Byte strings (R3): little-endian fields, CRC-32C and SHA-512, the two checks that records,
frames, images and digests rest on. -/

namespace Sys2Proof.Machine

/-- `n` as `k` bytes, least significant first (R3). -/
def leBytes (k n : Nat) : Bytes :=
  match k with
  | 0 => []
  | j + 1 => BitVec.ofNat 8 n :: leBytes j (n / 256)

/-- The number that bytes spell, least significant first (R3). -/
def leNat (bs : Bytes) : Nat :=
  match bs with
  | [] => 0
  | b :: t => b.toNat + 256 * leNat t

/-- `n` bytes from byte `o` on; bytes beyond the end read as nothing. -/
def slice (bs : Bytes) (o n : Nat) : Bytes := (bs.drop o).take n

/-- The `k`-byte field at byte `o` (R3); a field beyond the end reads as zero there. -/
def leAt (bs : Bytes) (o k : Nat) : Nat := leNat (slice bs o k)

/-- Bytes cut or filled with zeros to `n` bytes: a fixed-size field. -/
def fix (n : Nat) (bs : Bytes) : Bytes := bs.take n ++ List.replicate (n - bs.length) 0

/-- `n` zero bytes: a reserved field (R4). -/
def zeros (n : Nat) : Bytes := List.replicate n 0

/-- A truth value as the byte a flag field shows. -/
def flagByte (b : Bool) : Bytes := if b then [1] else [0]

/-- One bit step of CRC-32C, reflected, polynomial 0x1EDC6F41. -/
def crcBit (c : W32) : W32 := if c.getLsbD 0 then (c >>> 1) ^^^ 0x82F63B78#32 else c >>> 1

/-- One byte step of CRC-32C. -/
def crcByte (c : W32) (b : Byte) : W32 :=
  crcBit (crcBit (crcBit (crcBit (crcBit (crcBit (crcBit (crcBit (c ^^^ b.setWidth 32))))))))

/-- CRC-32C over bytes (R465, R252). -/
def crc32c (bs : Bytes) : W32 := ~~~(bs.foldl crcByte 0xFFFFFFFF#32)

/-- The eighty round constants of SHA-512 (FIPS 180-4). -/
def shaK : List W64 :=
  [0x428A2F98D728AE22, 0x7137449123EF65CD, 0xB5C0FBCFEC4D3B2F, 0xE9B5DBA58189DBBC,
   0x3956C25BF348B538, 0x59F111F1B605D019, 0x923F82A4AF194F9B, 0xAB1C5ED5DA6D8118,
   0xD807AA98A3030242, 0x12835B0145706FBE, 0x243185BE4EE4B28C, 0x550C7DC3D5FFB4E2,
   0x72BE5D74F27B896F, 0x80DEB1FE3B1696B1, 0x9BDC06A725C71235, 0xC19BF174CF692694,
   0xE49B69C19EF14AD2, 0xEFBE4786384F25E3, 0x0FC19DC68B8CD5B5, 0x240CA1CC77AC9C65] ++
  [0x2DE92C6F592B0275, 0x4A7484AA6EA6E483, 0x5CB0A9DCBD41FBD4, 0x76F988DA831153B5,
   0x983E5152EE66DFAB, 0xA831C66D2DB43210, 0xB00327C898FB213F, 0xBF597FC7BEEF0EE4,
   0xC6E00BF33DA88FC2, 0xD5A79147930AA725, 0x06CA6351E003826F, 0x142929670A0E6E70,
   0x27B70A8546D22FFC, 0x2E1B21385C26C926, 0x4D2C6DFC5AC42AED, 0x53380D139D95B3DF,
   0x650A73548BAF63DE, 0x766A0ABB3C77B2A8, 0x81C2C92E47EDAEE6, 0x92722C851482353B] ++
  [0xA2BFE8A14CF10364, 0xA81A664BBC423001, 0xC24B8B70D0F89791, 0xC76C51A30654BE30,
   0xD192E819D6EF5218, 0xD69906245565A910, 0xF40E35855771202A, 0x106AA07032BBD1B8,
   0x19A4C116B8D2D0C8, 0x1E376C085141AB53, 0x2748774CDF8EEB99, 0x34B0BCB5E19B48A8,
   0x391C0CB3C5C95A63, 0x4ED8AA4AE3418ACB, 0x5B9CCA4F7763E373, 0x682E6FF3D6B2B8A3,
   0x748F82EE5DEFB2FC, 0x78A5636F43172F60, 0x84C87814A1F0AB72, 0x8CC702081A6439EC] ++
  [0x90BEFFFA23631E28, 0xA4506CEBDE82BDE9, 0xBEF9A3F7B2C67915, 0xC67178F2E372532B,
   0xCA273ECEEA26619C, 0xD186B8C721C0C207, 0xEADA7DD6CDE0EB1E, 0xF57D4F7FEE6ED178,
   0x06F067AA72176FBA, 0x0A637DC5A2C898A6, 0x113F9804BEF90DAE, 0x1B710B35131C471B,
   0x28DB77F523047D84, 0x32CAAB7B40C72493, 0x3C9EBE0A15C9BEBC, 0x431D67C49C100D4C,
   0x4CC5D4BECB3E42B6, 0x597F299CFC657E2A, 0x5FCB6FAB3AD6FAEC, 0x6C44198C4A475817]

/-- The initial hash value of SHA-512 (FIPS 180-4). -/
def shaInit : List W64 :=
  [0x6A09E667F3BCC908, 0xBB67AE8584CAA73B, 0x3C6EF372FE94F82B, 0xA54FF53A5F1D36F1,
   0x510E527FADE682D1, 0x9B05688C2B3E6C1F, 0x1F83D9ABFB41BD6B, 0x5BE0CD19137E2179]

/-- The number that bytes spell, most significant first (FIPS 180-4). -/
def beNat (bs : Bytes) : Nat := bs.foldl (fun a b => a * 256 + b.toNat) 0

/-- `n` as `k` bytes, most significant first. -/
def beBytes (k n : Nat) : Bytes := (leBytes k n).reverse

/-- The next word of the message schedule, from the sixteen before it, oldest first. -/
def shaNextW (w : List W64) : W64 :=
  let a := w.getD 0 0
  let b := w.getD 1 0
  let s0 := b.rotateRight 1 ^^^ b.rotateRight 8 ^^^ (b >>> 7)
  let e := w.getD 14 0
  let s1 := e.rotateRight 19 ^^^ e.rotateRight 61 ^^^ (e >>> 6)
  a + s0 + w.getD 9 0 + s1

/-- The working variables after one round with constant `k` and schedule word `w`. -/
def shaRound (v : List W64) (k w : W64) : List W64 :=
  match v with
  | [a, b, c, d, e, f, g, h] =>
    let t1 := h + (e.rotateRight 14 ^^^ e.rotateRight 18 ^^^ e.rotateRight 41)
      + ((e &&& f) ^^^ (~~~e &&& g)) + k + w
    let t2 := (a.rotateRight 28 ^^^ a.rotateRight 34 ^^^ a.rotateRight 39)
      + ((a &&& b) ^^^ (a &&& c) ^^^ (b &&& c))
    [t1 + t2, a, b, c, d + t1, e, f, g]
  | _ => v

/-- The eighty rounds over the constants `ks`, sliding the sixteen-word window of the schedule. -/
def shaRounds (ks : List W64) (v win : List W64) : List W64 :=
  match ks with
  | [] => v
  | k :: t => shaRounds t (shaRound v k (win.getD 0 0)) (win.drop 1 ++ [shaNextW win])

/-- The sixteen words of a 128-byte block. -/
def shaWords (n : Nat) (blk : Bytes) : List W64 :=
  match n with
  | 0 => []
  | j + 1 => BitVec.ofNat 64 (beNat (blk.take 8)) :: shaWords j (blk.drop 8)

/-- The hash value after `n` blocks. -/
def shaBlocks (n : Nat) (h : List W64) (bs : Bytes) : List W64 :=
  match n with
  | 0 => h
  | j + 1 =>
    let v := shaRounds shaK h (shaWords 16 (bs.take 128))
    shaBlocks j (List.zipWith (· + ·) h v) (bs.drop 128)

/-- SHA-512 of bytes, 64 bytes (FIPS 180-4; R65, R445). -/
def sha512 (m : Bytes) : Bytes :=
  let z := (239 - m.length % 128) % 128
  let p := m ++ [0x80#8] ++ zeros z ++ beBytes 16 (8 * m.length)
  (shaBlocks (p.length / 128) shaInit p).flatMap (fun w => beBytes 8 w.toNat)

/-- Insert an element before the first that it does not exceed. -/
def insertBy {α : Type} (le : α → α → Bool) (x : α) (ys : List α) : List α :=
  match ys with
  | [] => [x]
  | y :: t => if le x y then x :: y :: t else y :: insertBy le x t

/-- Sort, equals in the order they stand in. -/
def sortBy {α : Type} (le : α → α → Bool) (xs : List α) : List α :=
  match xs with
  | [] => []
  | x :: t => insertBy le x (sortBy le t)

end Sys2Proof.Machine
end

