-- ==== Sys2Proof/Config.lean ====
section
/-! DEFINITION. What one chip holds fixed (factory values, one-time-programmable memory, keys) and the free
values of the model: constants with no body, of which no proof can know a value.
Log entries coded here: 4 (DESIGN CHOICE), 12 (UNVERIFIED), 13 (DESIGN CHOICE), 63 (DESIGN CHOICE), 100 (DESIGN
CHOICE). -/

namespace Sys2Proof

/-- The vendor identifier that MCTP_IANA holds from the factory (R278). UNVERIFIED: a factory value. -/
opaque Config.mctpIana : W32
/-- CAL_ID as the factory left it (R325). -/
opaque Config.calIdFactory : W32
/-- GAIN word of a channel's factory coefficients (R324, R345). -/
opaque Config.calGainFactory : Nat → W32
/-- OFFSET word of a channel's factory coefficients (R324, R345). -/
opaque Config.calOffsetFactory : Nat → W32
/-- The chip serial number, 16 bytes (R461). -/
opaque Config.serialNumber : Bytes
/-- The endpoint UUID of R278. -/
opaque Config.endpointUuid : Bytes
/-- A point of the RC-oscillator trim table of a local sensor's island, 20 points at 10 K steps from −40 °C (R379). -/
opaque Config.oscTrim : Nat → Nat → Int
/-- A point of the bandgap trim table of a local sensor's island (R379). -/
opaque Config.gapTrim : Nat → Nat → Int
/-- The seed of the device identity key, fused at manufacture (R447). -/
opaque Config.identitySeed : Bytes
/-- The identity certificate issued by a device certification key, 136 bytes (R448). -/
opaque Config.identityCert : Bytes
/-- The public key of a vendor key slot, which the boot ROM holds (R435). -/
opaque Config.vendorKey : Nat → Bytes
/-- Whether one-time-programmable memory revokes a vendor key slot (R435). -/
opaque Config.vendorRevoked : Nat → Bool
/-- The vendor debug public key (R456). -/
opaque Config.debugKey : Bytes
/-- The four device CA public keys (R448). -/
opaque Config.deviceCaKey : Nat → Bytes
/-- ROM_HASH, the SHA-512 of the boot ROM (R451). -/
opaque Config.romHash : Bytes
/-- The factory SVN floor of a class of firmware (R435, R460). -/
opaque Config.svnFactory : Nat → Nat
/-- Ed25519 public key of a seed (RFC 8032, R445). -/
opaque Config.edPublic : Bytes → Bytes
/-- Ed25519 signature with the seed's key over a message (RFC 8032, R445). -/
opaque Config.edSign : Bytes → Bytes → Bytes
/-- Ed25519 verification of key, message and signature (RFC 8032, R445). -/
opaque Config.edVerify : Bytes → Bytes → Bytes → Bool
/-- Bytes drawn from the module's Hash_DRBG (R445) at the draw that the counter names. FREE VALUE. -/
opaque Config.drbg : Nat → Bytes
/-- The part number in the FRU EEPROM of an accelerator, 16 bytes (R178). FREE VALUE: no layout is given for it. -/
opaque Config.accPart : Nat → Bytes
/-- What reserved bits of the register word at an offset read as, at the read the counter names (R4).
FREE VALUE. -/
opaque Config.reservedBits : Nat → Nat → W32
/-- What a tensor byte at an address holds before a stage has written it (R122). FREE VALUE. -/
opaque Config.unwrittenByte : Nat → Nat → Byte
/-- A value the spec does not state, at the use the counter names. FREE VALUE. -/
opaque Config.unstated : Nat → Nat → Nat

end Sys2Proof
end

