-- ==== Sys2Proof/Machine/Map.lean ====
section
/-! DEFINITION. The one representation of everything the spec indexes (registers, rails, ports, memory
bytes, table entries): a list of key and value pairs in canonical form, keys strictly rising and no
entry equal to what an unlisted key reads as, so that equal contents are equal data. -/

namespace Sys2Proof.Machine

/-- A sparse map: an unlisted key reads as the default given to `SMap.get`. -/
abbrev SMap (α : Type) := List (Nat × α)

variable {α : Type}

/-- What key `k` holds; `d` where nothing is listed. -/
def SMap.get (d : α) (m : SMap α) (k : Nat) : α :=
  match m with
  | [] => d
  | (k', v) :: t => if k' = k then v else SMap.get d t k

/-- The entry at key `k`, where one is listed. -/
def SMap.find (m : SMap α) (k : Nat) : Option α :=
  match m with
  | [] => none
  | (k', v) :: t => if k' = k then some v else SMap.find t k

/-- Insert or replace the entry of key `k`, keeping rising keys rising. -/
def SMap.insert (m : SMap α) (k : Nat) (v : α) : SMap α :=
  match m with
  | [] => [(k, v)]
  | (k', v') :: t =>
    if k' = k then (k, v) :: t
    else if k < k' then (k, v) :: (k', v') :: t
    else (k', v') :: SMap.insert t k v

/-- Remove every entry of key `k`. -/
def SMap.erase (m : SMap α) (k : Nat) : SMap α := m.filter (fun e => e.1 != k)

/-- Write `v` at key `k`; writing the default removes the entry. -/
def SMap.set [DecidableEq α] (d : α) (m : SMap α) (k : Nat) (v : α) : SMap α :=
  if v = d then SMap.erase m k else SMap.insert m k v

/-- Change what key `k` holds. -/
def SMap.upd [DecidableEq α] (d : α) (m : SMap α) (k : Nat) (f : α → α) : SMap α :=
  SMap.set d m k (f (SMap.get d m k))

/-- Keep the entries whose key satisfies `p`; the others read as the default again. -/
def SMap.keep (m : SMap α) (p : Nat → Bool) : SMap α := m.filter (fun e => p e.1)

/-- Keys strictly rising. -/
def SMap.sorted (m : SMap α) : Bool :=
  match m with
  | [] => true
  | (k, _) :: t => t.all (fun e => k < e.1) && SMap.sorted t

/-- The canonical form: keys strictly rising, and no entry that equals the default. -/
def SMap.wf [DecidableEq α] (d : α) (m : SMap α) : Bool :=
  SMap.sorted m && m.all (fun e => decide (e.2 ≠ d))

end Sys2Proof.Machine
end

