-- ==== Sys2Proof/Machine/Tra.lean ====
section
/-! DEFINITION. Taluerus reference arithmetic, edition 3 (02): the element formats, the one rounding, conversions,
block scaling, exact sums, the canonical tree, the normalisation window and the counter generator.
Log entries coded here: 50 (DEDUCED), 51 (DEDUCED), 53 (DEDUCED), 232 (DESIGN CHOICE). -/

namespace Sys2Proof.Machine

/-! Values -/

/-- The value of an element: a NaN, an infinity, or (−1)^neg × m × 2^e, where m = 0 is a signed zero. -/
inductive TVal where
  | nan
  | inf (neg : Bool)
  | fin (neg : Bool) (m : Nat) (e : Int)
  deriving DecidableEq, Repr

/-- Sticky flags (R43), as the bits of IRON_FLAGS: INVALID, OVERFLOW, UNDERFLOW, SATURATE, EXTENSION. -/
abbrev TFlag.invalid : Nat := 1
abbrev TFlag.overflow : Nat := 2
abbrev TFlag.underflow : Nat := 4
abbrev TFlag.saturate : Nat := 8
abbrev TFlag.extension : Nat := 16

/-- An element encoding with the flags that its making set. -/
structure TRes where
  bits : Nat
  flags : Nat := 0
  deriving DecidableEq, Repr

/-- Format codes (R38): 1 E2M1, 2 E2M3, 3 E3M2, 4 E4M3, 5 E5M2, 6 binary16, 7 bfloat16, 8 binary32, 9 INT4,
10 INT8, 11 INT32, 12 E8M0. -/
def fmtBits (f : Nat) : Nat :=
  match f with
  | 1 | 9 => 4
  | 2 | 3 => 6
  | 4 | 5 | 10 | 12 => 8
  | 6 | 7 => 16
  | _ => 32

/-- Exponent bits of a floating-point format. -/
def fmtExp (f : Nat) : Nat :=
  match f with
  | 1 | 2 => 2
  | 3 => 3
  | 4 => 4
  | 5 | 6 => 5
  | _ => 8

/-- Trailing significand bits. -/
def fmtSig (f : Nat) : Nat :=
  match f with
  | 1 => 1
  | 2 => 3
  | 3 => 2
  | 4 => 3
  | 5 => 2
  | 6 => 10
  | 7 => 7
  | _ => 23

/-- Exponent bias. -/
def fmtBias (f : Nat) : Nat :=
  match f with
  | 1 | 2 => 1
  | 3 => 3
  | 4 => 7
  | 5 | 6 => 15
  | _ => 127

/-- Whether a format is one of the integer formats. -/
def fmtInt (f : Nat) : Bool := 9 ≤ f && f ≤ 11

/-- Whether a format has infinities: E5M2, binary16, bfloat16, binary32. -/
def fmtHasInf (f : Nat) : Bool := 5 ≤ f && f ≤ 8

/-- Encoding of a format's largest finite magnitude. -/
def fmtMax (f : Nat) : Nat :=
  match f with
  | 1 => 0x7
  | 2 => 0x1F
  | 3 => 0x1F
  | 4 => 0x7E
  | 5 => 0x7B
  | 6 => 0x7BFF
  | 7 => 0x7F7F
  | 8 => 0x7F7FFFFF
  | 9 => 0x7
  | 10 => 0x7F
  | _ => 0x7FFFFFFF

/-- The canonical NaN of a format (R39); a format without one: zero (R44). -/
def fmtNan (f : Nat) : Nat :=
  match f with
  | 4 => 0x7F
  | 5 => 0x7E
  | 6 => 0x7E00
  | 7 => 0x7FC0
  | 8 => 0x7FC00000
  | 12 => 0xFF
  | _ => 0

/-- The value of an encoding (R38). -/
def decodeElem (f bits : Nat) : TVal :=
  if fmtInt f then
    let w := fmtBits f
    let b := bits % 2 ^ w
    if b < 2 ^ (w - 1) then .fin false b 0 else .fin true (2 ^ w - b) 0
  else if f = 12 then (if bits % 256 = 255 then .nan else .fin false 1 ((bits % 256 : Nat) - 127))
  else
    let sg := fmtSig f
    let m := bits % 2 ^ sg
    let x := bits / 2 ^ sg % 2 ^ fmtExp f
    let neg := bits.testBit (fmtBits f - 1)
    if f = 4 && x = 15 && m = 7 then .nan
    else if fmtHasInf f && x = 2 ^ fmtExp f - 1 then (if m = 0 then .inf neg else .nan)
    else if x = 0 then .fin neg m (1 - (fmtBias f : Int) - sg)
    else .fin neg (2 ^ sg + m) ((x : Int) - fmtBias f - sg)

/-! The one rounding (R40) -/

/-- Number of bits of `n`. -/
def bitLen (n : Nat) : Nat := if n = 0 then 0 else n.log2 + 1

/-- m × 2^e in units of 2^q, rounded down, and whether anything was lost. -/
def toUnits (m : Nat) (e q : Int) : Nat × Bool :=
  if q ≤ e then (m * 2 ^ (e - q).toNat, false)
  else (m / 2 ^ (q - e).toNat, m % 2 ^ (q - e).toNat ≠ 0)

/-- Whether m × 2^e, with more below it when `sticky`, is at or above n × 2^q. -/
def atLeast (m : Nat) (e : Int) (n : Nat) (q : Int) : Bool :=
  if q ≤ e then n ≤ m * 2 ^ (e - q).toNat else n * 2 ^ (q - e).toNat ≤ m

/-- Round a magnitude m × 2^e (with more below it when `sticky`) to a multiple of 2^q, ties to even; and whether
the result differs. -/
def roundUnits (m : Nat) (e : Int) (sticky : Bool) (q : Int) : Nat × Bool :=
  let (h, lost) := toUnits m e (q - 1)
  let rest := lost || sticky
  let n := h / 2
  (if h % 2 = 1 && (rest || n % 2 = 1) then n + 1 else n, h % 2 = 1 || rest)

/-- The sign bit of a format at its place. -/
def signBit (f : Nat) (neg : Bool) : Nat := if neg then 2 ^ (fmtBits f - 1) else 0

/-- Round an exact finite value to an integer format: nearest even, saturated from a magnitude of the largest
value plus a half on, for either sign (R40). -/
def roundInt (f : Nat) (neg : Bool) (m : Nat) (e : Int) (sticky : Bool) : TRes :=
  let w := fmtBits f
  let top := 2 ^ (w - 1)
  let lim := top - 1
  if atLeast m e (2 * lim + 1) (-1) then ⟨if neg then top else top - 1, TFlag.saturate⟩
  else
    let n := min lim (roundUnits m e sticky 0).1
    ⟨if neg && n ≠ 0 then 2 ^ w - n else n, 0⟩

/-- Round an exact finite value to a format (R40, R41, R43). `blk`: block quantisation, in which E5M2 saturates
(R46). -/
def roundFin (f : Nat) (blk : Bool) (neg : Bool) (m : Nat) (e : Int) (sticky : Bool) : TRes :=
  if fmtInt f then roundInt f neg m e sticky
  else
    let sg := fmtSig f
    let emin : Int := 1 - (fmtBias f : Int)
    let sb := signBit f neg
    match decodeElem f (fmtMax f) with
    | .fin _ mm me =>
      if atLeast m e (2 * mm + 1) (me - 1) then
        (if fmtHasInf f && !(blk && f = 5) then
           ⟨sb + (2 ^ fmtExp f - 1) * 2 ^ sg, TFlag.overflow⟩
         else ⟨sb + fmtMax f, TFlag.saturate⟩)
      else if m = 0 && !sticky then ⟨sb, 0⟩
      else
        let lead : Int := e + bitLen m - 1
        let q := (if m = 0 then emin else max lead emin) - sg
        let (n, inexact) := roundUnits m e sticky q
        let enc := min (fmtMax f) ((q - (emin - sg)).toNat * 2 ^ sg + n)
        let tiny := m = 0 || decide (lead < emin)
        ⟨sb + enc, if tiny && inexact then TFlag.underflow else 0⟩
    | _ => ⟨sb, 0⟩

/-- A conversion (R44): one rounding, and the outcomes of the special values. `blk` as in R46. -/
def convertVal (f : Nat) (v : TVal) : TRes :=
  match v with
  | .nan =>
    if f = 4 || (5 ≤ f && f ≤ 8) then ⟨fmtNan f, 0⟩ else ⟨0, TFlag.invalid⟩
  | .inf neg =>
    if fmtInt f then ⟨if neg then 2 ^ (fmtBits f - 1) else fmtMax f, TFlag.saturate⟩
    else if fmtHasInf f then ⟨signBit f neg + (2 ^ fmtExp f - 1) * 2 ^ fmtSig f, 0⟩
    else ⟨signBit f neg + fmtMax f, TFlag.saturate⟩
  | .fin neg m e => roundFin f false neg m e false

/-- Round a ratio of magnitudes, n × 2^e / d, to a format. -/
def roundRatio (f : Nat) (neg : Bool) (n d : Nat) (e : Int) : TRes :=
  let k := bitLen d + 320
  roundFin f false neg (n * 2 ^ k / d) (e - k) (n * 2 ^ k % d ≠ 0)

/-! Exact arithmetic on values -/

/-- A dyadic number m × 2^e. -/
structure Dy where
  m : Int
  e : Int
  deriving DecidableEq, Repr

/-- Exact sum of dyadic numbers. -/
def Dy.add (a b : Dy) : Dy :=
  if a.m = 0 then b else if b.m = 0 then a
  else if a.e ≤ b.e then ⟨a.m + b.m * (2 ^ (b.e - a.e).toNat : Nat), a.e⟩
  else ⟨a.m * (2 ^ (a.e - b.e).toNat : Nat) + b.m, b.e⟩

/-- Exact product of two values; 0 × ∞ is a NaN (R42, R70). -/
def mulVal (a b : TVal) : TVal :=
  match a, b with
  | .nan, _ => .nan
  | _, .nan => .nan
  | .inf s, .inf t => .inf (s != t)
  | .inf s, .fin t m _ => if m = 0 then .nan else .inf (s != t)
  | .fin s m _, .inf t => if m = 0 then .nan else .inf (s != t)
  | .fin s m e, .fin t n g => .fin (s != t) (m * n) (e + g)

/-- 0 × ∞, which sets INVALID (R70). -/
def mulInvalid (a b : TVal) : Bool :=
  match a, b with
  | .inf _, .fin _ m _ => m == 0
  | .fin _ m _, .inf _ => m == 0
  | _, _ => false

/-- The exact running sum of terms, special values and all (R42, R48, R70). -/
structure ESum where
  nan : Bool := false
  invalid : Bool := false
  pinf : Bool := false
  ninf : Bool := false
  sum : Dy := ⟨0, 0⟩
  any : Bool := false
  allNegZero : Bool := true
  deriving DecidableEq, Repr

/-- Add one term. -/
def ESum.term (a : ESum) (v : TVal) : ESum :=
  match v with
  | .nan => { a with nan := true, any := true, allNegZero := false }
  | .inf true => { a with ninf := true, any := true, allNegZero := false }
  | .inf false => { a with pinf := true, any := true, allNegZero := false }
  | .fin neg m e =>
    { a with sum := a.sum.add ⟨if neg then -(m : Int) else m, e⟩, any := true
             allNegZero := a.allNegZero && neg && m == 0 }

/-- The total as a value: NaN, infinity, or the exact sum with the sign that R42 gives a zero. -/
def ESum.total (a : ESum) : TVal :=
  if a.nan || (a.pinf && a.ninf) then .nan
  else if a.pinf then .inf false
  else if a.ninf then .inf true
  else if a.sum.m = 0 then .fin (a.any && a.allNegZero) 0 0
  else .fin (a.sum.m < 0) a.sum.m.natAbs a.sum.e

/-- In an E-sum, +∞ with −∞ is INVALID whatever the other products are (R70, second row); in a normalisation sum a NaN
decides first (R55), and `ESum.flags` says so. -/
def ESum.settle (a : ESum) : ESum := { a with invalid := a.invalid || (a.pinf && a.ninf) }

/-- Flags of the special values: INVALID for 0 × ∞ and for +∞ with −∞ without a NaN. -/
def ESum.flags (a : ESum) : Nat :=
  if a.invalid || (!a.nan && a.pinf && a.ninf) then TFlag.invalid else 0

/-- Round a total. -/
def ESum.round (a : ESum) (f : Nat) : TRes :=
  let r := convertVal f a.total
  { r with flags := r.flags ||| a.flags }

/-- Two terms added exactly and rounded once. -/
def addTo (f : Nat) (a b : TVal) : TRes := ((({} : ESum).term a).term b).round f

/-- Two factors multiplied exactly and rounded once. -/
def mulTo (f : Nat) (a b : TVal) : TRes :=
  let r := convertVal f (mulVal a b)
  { r with flags := r.flags ||| (if mulInvalid a b then TFlag.invalid else 0) }

/-- binary32 of an encoding. -/
def val32 (b : Nat) : TVal := decodeElem 8 b

/-- binary32 addition and multiplication with one rounding (R53, R58). -/
def add32 (a b : Nat) : TRes := addTo 8 (val32 a) (val32 b)
def mul32 (a b : Nat) : TRes := mulTo 8 (val32 a) (val32 b)

/-- Negate a value. -/
def negVal (v : TVal) : TVal :=
  match v with
  | .nan => .nan
  | .inf s => .inf (!s)
  | .fin s m e => .fin (!s) m e

/-- Whether a < b for values that are no NaN. -/
def ltVal (a b : TVal) : Bool :=
  match a, b with
  | .nan, _ => false
  | _, .nan => false
  | .inf s, .inf t => s && !t
  | .inf s, _ => s
  | _, .inf t => !t
  | .fin _ _ _, .fin _ _ _ =>
    match ((({} : ESum).term a).term (negVal b)).total with
    | .fin s m _ => s && m != 0
    | _ => false

/-- A zero of either sign. -/
def isZeroVal (v : TVal) : Bool :=
  match v with
  | .fin _ 0 _ => true
  | _ => false

/-! Exact sums (R48 to R52) -/

/-- Grid exponent g and magnitude exponent t of a format (the table before R50). -/
def fmtGrid (f : Nat) : Int :=
  match f with
  | 1 => -1
  | 2 => -3
  | 3 => -4
  | 4 => -9
  | 5 => -16
  | 6 => -24
  | _ => 0

/-- An operand element of an E-sum: its element value and the exponent of its block's scale; a NaN scale is `none`. -/
structure Scaled where
  v : TVal
  scale : Option Int := some 0
  deriving DecidableEq, Repr

/-- The value with its scale; a block scale of 0xFF makes every element a NaN (R47). -/
def Scaled.val (x : Scaled) : TVal :=
  match x.scale with
  | none => .nan
  | some k =>
    match x.v with
    | .fin s m e => .fin s m (e + k)
    | v => v

/-- Combined scale exponent of a product. -/
def combinedScale (p : Scaled × Scaled) : Option Int :=
  match p.1.scale, p.2.scale with
  | some a, some b => some (a + b)
  | _, _ => none

/-- The anchor E: the largest combined scale exponent, or 0 where neither operand is scaled (R50). -/
def eAnchor (scaled : Bool) (ps : List (Scaled × Scaled)) : Int :=
  if !scaled then 0
  else match ps.filterMap combinedScale with
    | [] => 0
    | x :: t => t.foldl max x

/-- Whether the primary window anchored at E holds a value exactly: bits from 2^(E−96) below 2^(E+63). -/
def inWindow (E : Int) (v : TVal) : Bool :=
  match v with
  | .fin neg m e =>
    m = 0 || (!(toUnits m e (E - 96)).2
      && (!atLeast m e 1 (E + 63) || (neg && toUnits m e (E - 96) == (2 ^ 159, false))))
  | _ => true

/-- Whether an extension window is needed (R50): a scale group or the addend lies outside the primary window. -/
def eExtension (scaled : Bool) (fa fb : Nat) (ps : List (Scaled × Scaled)) (c : Option TVal) : Bool :=
  let E := eAnchor scaled ps
  ((ps.filterMap combinedScale).any (fun e => decide (e + fmtGrid fa + fmtGrid fb < E - 96)))
    || (match c with
        | some v => !inWindow E v
        | none => false)

/-- One E-sum's exact total (R48), with 0 × ∞ noted. -/
def eSumAcc (ps : List (Scaled × Scaled)) (c : Option TVal) : ESum :=
  let a := ps.foldl (fun a p =>
    let a1 := a.term (mulVal p.1.val p.2.val)
    if mulInvalid p.1.val p.2.val then { a1 with invalid := true } else a1) ({} : ESum)
  (match c with
   | some v => a.term v
   | none => a).settle

/-- Products of one E-sum (R51). -/
abbrev eChunk : Nat := 2 ^ 31

/-- Consecutive chunks of `n` elements. -/
def chunksOf {α : Type} (fuel n : Nat) (xs : List α) : List (List α) :=
  match fuel with
  | 0 => []
  | k + 1 => if xs.isEmpty then [] else xs.take n :: chunksOf k n (xs.drop n)

/-! Canonical tree (R53) -/

/-- One level: neighbours are added in binary32, an unpaired last term passes unchanged. -/
def treeLevel (xs : List TRes) : List TRes :=
  match xs with
  | a :: b :: t =>
    let r := add32 a.bits b.bits
    ⟨r.bits, r.flags ||| a.flags ||| b.flags⟩ :: treeLevel t
  | xs => xs

/-- Levels until one value remains. -/
def treeGo (fuel : Nat) (xs : List TRes) : TRes :=
  match fuel, xs with
  | _, [] => ⟨0, 0⟩
  | _, [x] => x
  | 0, x :: _ => x
  | k + 1, xs => treeGo k (treeLevel xs)

/-- The C-tree of binary32 terms in index order. -/
def cTree (xs : List TRes) : TRes := treeGo xs.length xs

/-- EXTENSION where an extension window is needed. -/
def extFlag (scaled : Bool) (fa fb : Nat) (ps : List (Scaled × Scaled)) (c : Option TVal) : Nat :=
  if eExtension scaled fa fb ps c then TFlag.extension else 0

/-- The sum of more than 2^31 products (R51): each chunk an E-sum rounded to binary32, the chunks joined by the C-tree, the
addend added at the root. Each chunk has its own anchor. -/
def eSumChunks (scaled : Bool) (fa fb : Nat) (ps : List (Scaled × Scaled)) (c : Option TVal) : TRes :=
  let parts := (chunksOf ps.length eChunk ps).map (fun q =>
    let r := (eSumAcc q none).round 8
    { r with flags := r.flags ||| extFlag scaled fa fb q none })
  let t := cTree parts
  match c with
  | some v =>
    let u := addTo 8 (val32 t.bits) v
    { u with flags := u.flags ||| t.flags }
  | none => t

/-- An E-sum rounded to a format, with the chunk rule of R51 above 2^31 products. -/
def eSum (scaled : Bool) (fa fb fout : Nat) (ps : List (Scaled × Scaled)) (c : Option TVal) : TRes :=
  if ps.length ≤ eChunk then
    let r := (eSumAcc ps c).round fout
    { r with flags := r.flags ||| extFlag scaled fa fb ps c }
  else
    let u := eSumChunks scaled fa fb ps c
    let r := convertVal fout (val32 u.bits)
    { r with flags := r.flags ||| u.flags }

/-- An integer E-sum with a dequantisation factor: binary32 RNE(σ × exact sum) (R52); above 2^31 products the sum is that of
R51. -/
def eSumDequant (fa fb : Nat) (ps : List (Scaled × Scaled)) (c : Option TVal) (sigma : TVal) : TRes :=
  if ps.length ≤ eChunk then mulTo 8 sigma (eSumAcc ps c).total
  else
    let u := eSumChunks false fa fb ps c
    let r := mulTo 8 sigma (val32 u.bits)
    { r with flags := r.flags ||| u.flags }

/-- A dot product over bfloat16 or binary32 (R54): products rounded to binary32, then the C-tree, the addend at
the root, and one rounding to the output format. A stage that delivers one range of a split reduction (R78) adds its addend
to that range's value, before the MERGE: the spec does not say where the root of a split tree takes it. DESIGN CHOICE. -/
def treeDot (fout : Nat) (ps : List (TVal × TVal)) (c : Option TVal) : TRes :=
  let t := cTree (ps.map (fun p => mulTo 8 p.1 p.2))
  let u := match c with
    | some v => let r := addTo 8 (val32 t.bits) v
                { r with flags := r.flags ||| t.flags }
    | none => t
  if fout = 8 then u
  else
    let r := convertVal fout (val32 u.bits)
    { r with flags := r.flags ||| u.flags }

/-! Block scaling (R45 to R47) -/

/-- emax of an element format (R46). -/
def blockEmax (f : Nat) : Nat :=
  match f with
  | 1 | 2 => 2
  | 3 => 4
  | 4 => 8
  | _ => 15

/-- floor(log2) of a non-zero finite magnitude. -/
def leadExp (v : TVal) : Option Int :=
  match v with
  | .fin _ m e => if m = 0 then none else some (e + bitLen m - 1)
  | _ => none

/-- Quantise one block: scale encoding, elements and flags (R46). -/
def blockQuant (f : Nat) (vs : List TVal) : Nat × List Nat × Nat :=
  if vs.any (fun v => match v with
      | .fin _ _ _ => false
      | _ => true) then (0xFF, vs.map (fun _ => 0), TFlag.invalid)
  else
    let s : Nat := match vs.filterMap leadExp with
      | [] => 127
      | x :: t => (min 254 (max 0 (t.foldl max x - blockEmax f + 127))).toNat
    let rs := vs.map (fun v => match v with
      | .fin neg m e => roundFin f true neg m (e + 127 - s) false
      | _ => ⟨0, 0⟩)
    (s, rs.map (fun r => r.bits), rs.foldl (fun a r => a ||| r.flags) 0)

/-! The normalisation window (R55, R56) -/

/-- A term truncated towards zero at 2^q, in units of 2^q, and whether anything was cut. -/
def normTrunc (q : Int) (v : TVal) : Int × Bool :=
  match v with
  | .fin neg m e =>
    let (n, lost) := toUnits m e q
    (if neg then -(n : Int) else n, lost)
  | _ => (0, false)

/-- One normalisation sum of binary32 terms (R55). -/
def normSum1 (vs : List TVal) : TRes :=
  let a := vs.foldl (fun a v => a.term v) ({} : ESum)
  if a.nan || a.pinf || a.ninf then a.round 8
  else match vs.filterMap leadExp with
    | [] => ⟨signBit 8 (a.any && a.allNegZero), 0⟩
    | x :: t =>
      let q := t.foldl max x - 223
      let parts := vs.map (normTrunc q)
      let w := parts.foldl (fun s p => s + p.1) (0 : Int)
      let k := parts.any (fun p => p.2)
      if w = 0 then ⟨0, if k then TFlag.underflow else 0⟩
      else
        let m := 2 * w.natAbs + (if k then 1 else 0)
        roundFin 8 false (w < 0) m (q - 1) false

/-- A normalisation sum, by chunks and a C-tree above 2^31 terms (R56). -/
def normSum (vs : List TVal) : TRes :=
  if vs.length ≤ eChunk then normSum1 vs
  else cTree ((chunksOf vs.length eChunk vs).map normSum1)

/-! Counter generator (R62) -/

/-- A 32-bit left rotation. -/
def rotl32 (x : W32) (n : Nat) : W32 := x.rotateLeft n

/-- Round r of the generator on the four words. -/
def genRound (k0 k1 : W32) (r : Nat) (x : W32 × W32 × W32 × W32) : W32 × W32 × W32 × W32 :=
  let rk0 := k0 + BitVec.ofNat 32 (r * 0xA4F36C1D)
  let rk1 := k1 + BitVec.ofNat 32 (r * 0x5B2E9D87)
  let x0 := x.1 + x.2.1 + rk0
  let x3 := rotl32 (x.2.2.2 ^^^ x0) 11
  let x2 := x.2.2.1 + x3 + rk1
  let x1 := rotl32 (x.2.1 ^^^ x2) 19
  let y0 := x0 + x1
  let y3 := rotl32 (x3 ^^^ y0) 6
  let y2 := x2 + y3
  let y1 := rotl32 (x1 ^^^ y2) 25
  (y1, y2, y3, y0)

/-- The counter generator: a 128-bit counter and a 64-bit key give four output words (R62). -/
def counterGen (c0 c1 c2 c3 k0 k1 : W32) : List W32 :=
  let x := (List.range 10).foldl (fun x r => genRound k0 k1 r x) (c0, c1, c2, c3)
  [x.1 + c0, x.2.1 + c1, x.2.2.1 + c2, x.2.2.2 + c3]

end Sys2Proof.Machine
end

