-- ==== Sys2Proof/Machine/TraFn.lean ====
section
/-! DEFINITION. The elementary functions of the reference arithmetic (R57 to R61): correctly rounded for inputs of
16 bits or fewer, the wide-input path for binary32, and two-pass attention's pieces. Real values are held as
integers in units of 2^−1024, exact wherever the mathematical value is a multiple of the unit or zero.
Log entries coded here: 51 (DEDUCED), 52 (DEDUCED), 53 (DEDUCED), 54 (DEDUCED), 226 (DESIGN CHOICE), 227 (DESIGN
CHOICE), 228 (DEDUCED), 229 (DESIGN CHOICE). -/

namespace Sys2Proof.Machine

/-- Fraction bits of the fixed-point values. -/
abbrev fxBits : Nat := 1024

/-- One, in fixed point. -/
abbrev fxOne : Int := 2 ^ fxBits

/-- Product and quotient, rounded towards −∞. -/
def fxMul (a b : Int) : Int := (a * b) / fxOne
def fxDiv (a b : Int) : Int := if b = 0 then 0 else (a * fxOne) / b

/-- A dyadic value in fixed point. -/
def fxOf (m : Int) (e : Int) : Int :=
  if 0 ≤ e + fxBits then m * (2 ^ (e + fxBits).toNat : Nat) else m / (2 ^ (-(e + fxBits)).toNat : Nat)

/-- Integer square root, bit by bit from bit `n - 1` down. -/
def isqrtGo (n x r : Nat) : Nat :=
  match n with
  | 0 => r
  | k + 1 => if (r + 2 ^ k) * (r + 2 ^ k) ≤ x then isqrtGo k x (r + 2 ^ k) else isqrtGo k x r

/-- The integer square root. -/
def isqrt (x : Nat) : Nat := isqrtGo (bitLen x / 2 + 1) x 0

/-- Square root of a fixed-point value that is not negative. -/
def fxSqrt (a : Int) : Int := isqrt (a.toNat * 2 ^ fxBits)

/-- The terms of a power series: term n + 1 is term n times `z` divided by `d n`. -/
def fxSeries (fuel n : Nat) (z : Int) (d : Nat → Int) (t acc : Int) : Int :=
  match fuel with
  | 0 => acc
  | k + 1 => fxSeries k (n + 1) z d (fxMul t z / d n) (acc + t)

/-- Square a value n times. -/
def fxSquare (n : Nat) (x : Int) : Int :=
  match n with
  | 0 => x
  | k + 1 => fxSquare k (fxMul x x)

/-- e^x for |x| below 256: the series at x / 2^24, then 24 squarings. -/
def fxExp (x : Int) : Int :=
  if x = 0 then fxOne
  else
    let big := fxSquare 24 (fxSeries 80 1 ((if x < 0 then -x else x) / 2 ^ 24) (fun n => n) fxOne 0)
    if x < 0 then fxDiv fxOne big else big

/-- The odd series of the inverse hyperbolic tangent: z + z³/3 + z⁵/5 + …, with `p` the running power. -/
def fxAtanhGo (fuel n : Nat) (z2 p acc : Int) : Int :=
  match fuel with
  | 0 => acc
  | k + 1 => fxAtanhGo k (n + 2) z2 (fxMul p z2) (acc + p / n)

/-- Inverse hyperbolic tangent of a small value. -/
def fxAtanh (z : Int) : Int := fxAtanhGo 340 1 (fxMul z z) z 0

/-- ln 2. -/
def fxLn2 : Int := 2 * fxAtanh (fxOne / 3)

/-- ln of a value near 1. -/
def fxLog1 (m : Int) : Int := if m = fxOne then 0 else 2 * fxAtanh (fxDiv (m - fxOne) (m + fxOne))

/-- The alternating odd series of the inverse tangent of 1 / q. -/
def fxAtanInvGo (fuel n q2 : Nat) (p acc : Int) (plus : Bool) : Int :=
  match fuel with
  | 0 => acc
  | k + 1 => fxAtanInvGo k (n + 2) q2 (p / q2) (if plus then acc + p / n else acc - p / n) (!plus)

/-- Inverse tangent of 1 / q. -/
def fxAtanInv (q : Nat) : Int := fxAtanInvGo 480 1 (q * q) (fxOne / q) 0 true

/-- π. -/
def fxPi : Int := 4 * (4 * fxAtanInv 5 - fxAtanInv 239)

/-- e^(−x²). -/
def fxGauss (x : Int) : Int := fxExp (-(fxMul x x))

/-- erf of a value of magnitude below 15: 2/√π e^(−x²) Σ 2^n x^(2n+1) / (1 · 3 ⋯ (2n + 1)). -/
def fxErf (x : Int) : Int :=
  if x = 0 then 0
  else
    let s := fxSeries 2200 1 (2 * fxMul x x) (fun n => 2 * n + 1) x 0
    fxDiv (2 * fxMul (fxGauss x) s) (fxSqrt fxPi)

/-- Φ(x) = (1 + erf(x / √2)) / 2. -/
def fxPhi (x : Int) : Int := (fxOne + fxErf (fxDiv x (fxSqrt (2 * fxOne)))) / 2

/-- Functions (R57): 0 exp, 1 log, 2 recip, 3 rsqrt, 4 tanh, 5 sigmoid, 6 erf, 7 gelu, 8 silu. -/
inductive TFun where
  | exp | log | recip | rsqrt | tanh | sigmoid | erf | gelu | silu
  deriving DecidableEq, Repr

/-- Magnitude beyond which the value is fixed to far below half a unit of every output format: erf and gelu at
15, the others at 128 (R58's own bound). -/
def farOf (f : TFun) : Nat :=
  match f with
  | .erf | .gelu => 15
  | _ => 128

/-- Round a fixed-point value, which may lie just above or below the exact one, to a format. -/
def roundFx (f : Nat) (neg : Bool) (x : Int) (exact : Bool) : TRes :=
  roundFin f false (if x = 0 then neg else decide (x < 0)) x.natAbs (-(fxBits : Int)) (!exact)

/-- A positive value too small for every format: rounds to zero, tiny and inexact. -/
def tinyOf (f : Nat) (neg : Bool) : TRes := roundFin f false neg 0 0 true

/-- A positive value too large for every format. -/
def hugeOf (f : Nat) : TRes := roundFin f false false 1 4096 false

/-- The fixed-point value of a function at x, |x| < far. -/
def fxFun (f : TFun) (x : Int) : Int :=
  match f with
  | .exp => fxExp x
  | .tanh => let e := fxExp (2 * x)
             fxDiv (e - fxOne) (e + fxOne)
  | .sigmoid => let e := fxExp x
                fxDiv e (e + fxOne)
  | .erf => fxErf x
  | .gelu => fxMul x (fxPhi x)
  | .silu => let e := fxExp x
             fxMul x (fxDiv e (e + fxOne))
  | _ => 0

/-- ln of m × 2^e, m > 0, brought to [0.75, 1.5) first. -/
def fxLogOf (m : Nat) (e : Int) : Int :=
  let l : Int := bitLen m - 1
  let x := fxOf m (-l)
  let (y, k) := if 2 * x < 3 * fxOne then (x, e + l) else (x / 2, e + l + 1)
  k * fxLn2 + fxLog1 y

/-- A function of a finite non-zero x, correctly rounded (R57). -/
def funFinite (f : TFun) (out : Nat) (neg : Bool) (m : Nat) (e : Int) : TRes :=
  match f with
  | .recip => roundRatio out neg 1 m (-e)
  | .rsqrt =>
    if neg then ⟨fmtNan out, TFlag.invalid⟩
    else
      -- 1/√(m·2^e) with an even exponent: √(2^2k / m') / 2^(k + e'/2)
      let m' := if e % 2 = 0 then m else 2 * m
      let e' := if e % 2 = 0 then e else e - 1
      let k := bitLen m' + 320
      let q := 2 ^ (2 * k) / m'
      let r := isqrt q
      roundFin out false false r (-(k : Int) - e' / 2) (r * r * m' ≠ 2 ^ (2 * k))
  | .log =>
    if neg then ⟨fmtNan out, TFlag.invalid⟩
    else
      let y := fxLogOf m e
      roundFx out false y (y = 0)
  | _ =>
    if atLeast m e (farOf f) 0 then
      (match f, neg with
       | .exp, false => hugeOf out
       | .exp, true => tinyOf out false
       | .tanh, _ => roundFin out false neg (2 ^ 2000 - 1) (-2000) true
       | .erf, _ => roundFin out false neg (2 ^ 2000 - 1) (-2000) true
       | .sigmoid, false => roundFin out false false (2 ^ 2000 - 1) (-2000) true
       | .sigmoid, true => tinyOf out false
       | _, false => roundFin out false false (m * 2 ^ 2000 - 1) (e - 2000) true
       | _, true => tinyOf out true)
    else
      let x := fxOf (if neg then -(m : Int) else m) e
      -- below 2^-400 the function is its first-order value to far within half a unit
      roundFx out (neg && f != .sigmoid) (fxFun f x) false

/-- Special values of the functions (R57). -/
def funSpecial (f : TFun) (out : Nat) (v : TVal) : Option TRes :=
  let one := convertVal out (.fin false 1 0)
  match v with
  | .nan => some (convertVal out .nan)
  | .inf neg =>
    match f with
    | .exp => some (if neg then ⟨0, 0⟩ else convertVal out (.inf false))
    | .log => some (if neg then ⟨fmtNan out, TFlag.invalid⟩ else convertVal out (.inf false))
    | .recip => some ⟨signBit out neg, 0⟩
    | .rsqrt => some (if neg then ⟨fmtNan out, TFlag.invalid⟩ else ⟨0, 0⟩)
    | .tanh => some (convertVal out (.fin neg 1 0))
    | .sigmoid => some (if neg then ⟨0, 0⟩ else one)
    | .erf => some (convertVal out (.fin neg 1 0))
    | _ => some (if neg then ⟨signBit out true, 0⟩ else convertVal out (.inf false))
  | .fin neg 0 _ =>
    match f with
    | .exp => some one
    | .log => some (convertVal out (.inf true))
    | .recip => some (convertVal out (.inf neg))
    | .rsqrt => some (convertVal out (.inf neg))
    | .sigmoid => some (convertVal out (.fin false 1 (-1)))
    | _ => some ⟨signBit out neg, 0⟩
  | _ => none

/-- A function of an input of 16 bits or fewer (R57). -/
def funNarrow (f : TFun) (out : Nat) (v : TVal) : TRes :=
  match funSpecial f out v with
  | some r => r
  | none =>
    match v with
    | .fin neg m e => funFinite f out neg m e
    | _ => ⟨0, 0⟩

/-! The wide-input path (R58, R59) -/

/-- x truncated towards zero to binary16, for |x| < 2^16. -/
def trunc16 (v : TVal) : TVal :=
  match v with
  | .fin neg m e =>
    let q := max (e + bitLen m - 1) (-14) - 10
    .fin neg (toUnits m e q).1 q
  | v => v

/-- A coefficient from a fixed-point value over a small divisor, rounded to binary32 (R58). A coefficient whose exact value
is zero is +0, for h = −0 too, so that gelu and silu of −2^−149 deliver +0: R58 gives no sign to an exact zero that is no
sum or product of R42. DESIGN CHOICE. -/
def coef (x : Int) (d : Nat) : TRes :=
  let n := x.natAbs
  roundFin 8 false (x < 0) (n * 2 ^ 64 / d) (-(fxBits : Int) - 64) (n * 2 ^ 64 % d ≠ 0)

/-- f^(j)(h) for j = 0 to 4, in fixed point. -/
def derivs (f : TFun) (h : Int) : List Int :=
  let h2 := fxMul h h
  match f with
  | .exp => let e := fxExp h
            [e, e, e, e, e]
  | .tanh =>
    let t := fxFun .tanh h
    let t2 := fxMul t t
    let u := fxOne - t2
    [t, u, fxMul (-2 * t) u, fxMul u (6 * t2 - 2 * fxOne), fxMul u (fxMul t (16 * fxOne - 24 * t2))]
  | .sigmoid => sigDerivs h
  | .erf =>
    let g := fxDiv (2 * fxGauss h) (fxSqrt fxPi)
    [fxErf15 h, g, fxMul (-2 * h) g, fxMul (4 * h2 - 2 * fxOne) g, fxMul (fxMul h (12 * fxOne - 8 * h2)) g]
  | .gelu =>
    -- from −20 down all five values are negative and of a magnitude below 2^−280: each rounds to −0
    if h ≤ -20 * fxOne then [-1, -1, -1, -1, -1] else
    let phi := fxDiv (fxExp (-(h2 / 2))) (fxSqrt (2 * fxPi))
    let p := fxPhi15 h
    [fxMul h p, p + fxMul h phi, fxMul (2 * fxOne - h2) phi, fxMul (fxMul h (h2 - 4 * fxOne)) phi,
     fxMul (7 * h2 - fxMul h2 h2 - 4 * fxOne) phi]
  | .silu =>
    match sigDerivs h with
    | [s0, s1, s2, s3, s4] =>
      [fxMul h s0, s0 + fxMul h s1, 2 * s1 + fxMul h s2, 3 * s2 + fxMul h s3, 4 * s3 + fxMul h s4]
    | _ => []
  | _ => []
where
  /-- The logistic function and its derivatives. -/
  sigDerivs (h : Int) : List Int :=
    let s := fxFun .sigmoid h
    let v := fxMul s (fxOne - s)
    let w := fxOne - 2 * s
    let s2 := fxMul s s
    [s, v, fxMul v w, fxMul v (fxOne - 6 * s + 6 * s2), fxMul (fxMul v w) (fxOne - 12 * s + 12 * s2)]
  /-- erf, ±1 from a magnitude of 15 on (the difference lies below 2^−320). -/
  fxErf15 (h : Int) : Int :=
    if 15 * fxOne ≤ h then fxOne else if h ≤ -15 * fxOne then -fxOne else fxErf h
  /-- Φ, 1 or 0 from a magnitude of 20 on. -/
  fxPhi15 (h : Int) : Int :=
    if 20 * fxOne ≤ h then fxOne else if h ≤ -20 * fxOne then 0 else fxPhi h

/-- Factorial. -/
def fact (n : Nat) : Nat :=
  match n with
  | 0 => 1
  | k + 1 => (k + 1) * fact k

/-- The Horner evaluation in binary32 (R58), with the flags of every rounding it names: coefficients, products and sums.
Where binary16 holds x exactly, d is zero; an exp coefficient that has overflowed then gives ∞ × 0, so exp of such an x in
[88.75, 128) is a NaN by the pseudocode of R58, while the worked example after R136 says that EXP overflows to +∞ there. The
pseudocode is followed. DEDUCED. -/
def wideEval (c : List TRes) (d : Nat) : TRes :=
  let z : TRes := ⟨0, 0⟩
  [3, 2, 1, 0].foldl (fun t j =>
    let k := c.getD j z
    let m := mul32 t.bits d
    let r := add32 k.bits m.bits
    { r with flags := r.flags ||| m.flags ||| k.flags ||| t.flags }) (c.getD 4 z)

/-- The fixed results of |x| ≥ 128 (R58); `x`: the binary32 encoding of the input. -/
def wideFar (f : TFun) (neg : Bool) (x : TRes) : TRes :=
  match f, neg with
  | .exp, false => ⟨0x7F800000, TFlag.overflow⟩
  | .exp, true => ⟨0, TFlag.underflow⟩
  | .tanh, false => ⟨0x3F800000, 0⟩
  | .tanh, true => ⟨0xBF800000, 0⟩
  | .erf, false => ⟨0x3F800000, 0⟩
  | .erf, true => ⟨0xBF800000, 0⟩
  | .sigmoid, false => ⟨0x3F800000, 0⟩
  | .sigmoid, true => ⟨0, 0⟩
  | _, false => x
  | _, true => ⟨0x80000000, 0⟩

/-- The reduced functions' coefficients at h = n × 2^e (R59): recip, rsqrt, log. -/
def reducedCoef (f : TFun) (n : Nat) (e : Int) : List TRes :=
  (List.range 5).map (fun (j : Nat) =>
    match f with
    | .recip => roundRatio 8 (j % 2 = 1) 1 (n ^ (j + 1)) (-(e * ((j : Int) + 1)))
    | .log =>
      if j = 0 then coef (fxLog1 (fxOf n e)) 1
      else roundRatio 8 (j % 2 = 0) 1 (j * n ^ j) (-(e * (j : Int)))
    | _ =>
      -- (−1)^j C_j h^(−1/2−j), with C_j = 1, 1/2, 3/8, 5/16, 35/128
      let num := ([1, 1, 3, 5, 35] : List Nat).getD j 1
      let den := ([1, 2, 8, 16, 128] : List Nat).getD j 1
      let h := fxOf n e
      let root := fxSqrt (fxDiv fxOne h)
      let p := (List.range j).foldl (fun a _ => fxDiv a h) root
      coef ((if j % 2 = 1 then -1 else 1) * (num : Int) * p) den)

/-- recip, rsqrt and log of a positive finite magnitude m × 2^e of a binary32 input (R59): the exponent k of the
reduction, and y_m. -/
def reducedEval (f : TFun) (m : Nat) (e : Int) : Int × TRes :=
  let l : Int := bitLen m - 1
  let lead := e + l
  -- reduced value m × 2^(e − k)
  let k : Int := match f with
    | .recip => lead
    | .rsqrt => if lead % 2 = 0 then lead else lead - 1
    | _ => if 2 * m < 3 * 2 ^ l.toNat then lead else lead + 1
  let v : TVal := .fin false m (e - k)
  let h := trunc16 v
  match h with
  | .fin _ n g =>
    let d := (addTo 8 v (negVal h)).bits
    (k, wideEval (reducedCoef f n g) d)
  | _ => (k, ⟨0, 0⟩)

/-- Add the flags of an earlier rounding. -/
def TRes.withFlags (r : TRes) (f : Nat) : TRes := { r with flags := r.flags ||| f }

/-- The binary32 result of a function of a binary32 input that is not special (R58, R59). -/
def funWide32 (f : TFun) (neg : Bool) (m : Nat) (e : Int) : TRes :=
  match f with
  | .recip =>
    let (k, y) := reducedEval f m e
    (match val32 y.bits with
     | .fin _ n g => (roundFin 8 false neg n (g - k) false).withFlags y.flags
     | v => (convertVal 8 v).withFlags y.flags)
  | .rsqrt =>
    if neg then ⟨fmtNan 8, TFlag.invalid⟩
    else
      let (k, y) := reducedEval f m e
      (match val32 y.bits with
       | .fin _ n g => (roundFin 8 false false n (g - k / 2) false).withFlags y.flags
       | v => (convertVal 8 v).withFlags y.flags)
  | .log =>
    if neg then ⟨fmtNan 8, TFlag.invalid⟩
    else
      let (k, y) := reducedEval f m e
      (match val32 0x3F317218 with
       | .fin _ n g => (addTo 8 (.fin (k < 0) (k.natAbs * n) g) (val32 y.bits)).withFlags y.flags
       | _ => ⟨0, 0⟩)
  | _ =>
    if atLeast m e 128 0 then wideFar f neg (convertVal 8 (.fin neg m e))
    else
      let v : TVal := .fin neg m e
      let h := trunc16 v
      match h with
      | .fin s n g =>
        let hx := fxOf (if s then -(n : Int) else n) g
        let cs := (List.range 5).map (fun j => coef ((derivs f hx).getD j 0) (fact j))
        wideEval cs (addTo 8 v (negVal h)).bits
      | _ => ⟨0, 0⟩

/-- A function of an element of format `fin`, to format `out` (R57 to R59). DESIGN CHOICE where R57 and R58 name no path:
an E8M0 input, which R57's list leaves out and R58's "binary32 input" does not cover, is correctly rounded; a block-scaled
input, which R57 leaves out as well, goes the wide-input path on its exact scaled value, which is not rounded to binary32
first. -/
def funEval (f : TFun) (fin : Nat) (scaled : Bool) (v : TVal) (out : Nat) : TRes :=
  if fin = 8 || scaled then
    match funSpecial f 8 v with
    | some _ => funNarrow f out v
    | none =>
      match v with
      | .fin neg m e =>
        let r := funWide32 f neg m e
        if out = 8 then r
        else
          let q := convertVal out (val32 r.bits)
          { q with flags := q.flags ||| r.flags }
      | _ => ⟨0, 0⟩
  else funNarrow f out v

/-- Correctly rounded division and square root (R57's last sentence). -/
def divTo (out : Nat) (a b : TVal) : TRes :=
  match a, b with
  | .nan, _ => convertVal out .nan
  | _, .nan => convertVal out .nan
  | .inf _, .inf _ => ⟨fmtNan out, TFlag.invalid⟩
  | .inf s, .fin t _ _ => convertVal out (.inf (s != t))
  | .fin s _ _, .inf t => convertVal out (.fin (s != t) 0 0)
  | .fin s m e, .fin t n g =>
    if n = 0 then (if m = 0 then ⟨fmtNan out, TFlag.invalid⟩ else convertVal out (.inf (s != t)))
    else if m = 0 then convertVal out (.fin (s != t) 0 0)
    else roundRatio out (s != t) m n (e - g)

/-- Square root. -/
def sqrtTo (out : Nat) (a : TVal) : TRes :=
  match a with
  | .nan => convertVal out .nan
  | .inf s => if s then ⟨fmtNan out, TFlag.invalid⟩ else convertVal out (.inf false)
  | .fin s m e =>
    if m = 0 then convertVal out (.fin s 0 0)
    else if s then ⟨fmtNan out, TFlag.invalid⟩
    else
      let m' := if e % 2 = 0 then m else 2 * m
      let e' := if e % 2 = 0 then e else e - 1
      let r := isqrt (m' * 2 ^ 640)
      roundFin out false false r (e' / 2 - 320) (r * r ≠ m' * 2 ^ 640)

end Sys2Proof.Machine
end

