-- ==== Sys2Proof/Machine/TraDigest.lean ====
section
/-! DEFINITION. Tensors as data, their canonical byte streams and digests (R64 to R66), and the comparison modes
(R67 to R69, R128).
Log entries coded here: 56 (DESIGN CHOICE). -/

namespace Sys2Proof.Machine

/-- A tensor's shape: format, block scales, extents. Format 0x80 stands for raw 32-byte words (partials and
attention states). -/
structure Shape where
  fmt : Nat
  scaled : Bool := false
  ext : List Nat := []
  deriving DecidableEq, Repr

/-- A tensor's contents in logical index order; a raw tensor's elements are bytes. -/
structure TData where
  shape : Shape
  elems : List Nat
  scales : List Nat := []
  deriving DecidableEq, Repr

/-- Number of elements of extents. -/
def extCount (ext : List Nat) : Nat := ext.foldl (fun a n => a * n) 1

/-- Extent of the last dimension; 1 for a scalar. -/
def lastExt (ext : List Nat) : Nat := ext.getLast?.getD 1

/-- Blocks in one row of the last dimension (R45). -/
def rowBlocks (ext : List Nat) : Nat := (lastExt ext + 31) / 32

/-- The block of element i (R45). -/
def blockOf (ext : List Nat) (i : Nat) : Nat :=
  let l := lastExt ext
  if l = 0 then 0 else i / l * rowBlocks ext + i % l / 32

/-- Scale exponent of element i: 0 without scales, none for 0xFF (R47). -/
def scaleExp (t : TData) (i : Nat) : Option Int :=
  if t.shape.scaled then
    let s := t.scales.getD (blockOf t.shape.ext i) 127
    if s = 255 then none else some ((s : Int) - 127)
  else some 0

/-- Element i as an operand of an E-sum. -/
def elemScaled (t : TData) (i : Nat) : Scaled := ⟨decodeElem t.shape.fmt (t.elems.getD i 0), scaleExp t i⟩

/-- Value of element i. -/
def elemVal (t : TData) (i : Nat) : TVal := (elemScaled t i).val

/-- An encoding with its NaN made canonical (R39, R64). -/
def canonElem (f bits : Nat) : Nat :=
  match decodeElem f bits with
  | .nan => fmtNan f
  | _ => bits % 2 ^ fmtBits f

/-- Nibbles packed two to a byte (R64). -/
def pack4 (xs : List Nat) : Bytes :=
  match xs with
  | a :: b :: t => BitVec.ofNat 8 (a % 16 + 16 * (b % 16)) :: pack4 t
  | [a] => [BitVec.ofNat 8 (a % 16)]
  | [] => []

/-- 6-bit elements packed four to three bytes (R64). -/
def pack6 (xs : List Nat) : Bytes :=
  match xs with
  | a :: b :: c :: d :: t => leBytes 3 (a % 64 + 64 * (b % 64) + 4096 * (c % 64) + 262144 * (d % 64)) ++ pack6 t
  | [] => []
  | a :: t => leBytes 3 (a % 64 + 64 * (t.getD 0 0 % 64) + 4096 * (t.getD 1 0 % 64))

/-- Elements as bytes: packed below 8 bits, little-endian above (R64). -/
def packElems (f : Nat) (xs : List Nat) : Bytes :=
  match fmtBits f with
  | 4 => pack4 xs
  | 6 => pack6 xs
  | w => xs.flatMap (leBytes (w / 8))

/-- n elements out of packed bytes. -/
def unpackElems (f n : Nat) (bs : Bytes) : List Nat :=
  let w := fmtBits f
  if w = 4 then
    (List.range n).map (fun i => (bs.getD (i / 2) 0).toNat / 16 ^ (i % 2) % 16)
  else if w = 6 then
    (List.range n).map (fun i => leAt bs (3 * (i / 4)) 3 / 64 ^ (i % 4) % 64)
  else (List.range n).map (fun i => leAt bs (w / 8 * i) (w / 8))

/-- The canonical byte stream of a tensor (R64). -/
def canonStream (t : TData) : Bytes :=
  packElems t.shape.fmt (t.elems.map (canonElem t.shape.fmt))
    ++ (if t.shape.scaled then t.scales.map (BitVec.ofNat 8) else [])

/-- The tensor digest header, 80 bytes (R65). -/
def digestHeader (sh : Shape) (len : Nat) : Bytes :=
  leBytes 1 3 ++ leBytes 1 sh.fmt ++ leBytes 1 sh.ext.length ++ leBytes 1 (if sh.scaled then 12 else 0)
    ++ leBytes 2 (if sh.scaled then 32 else 0) ++ zeros 2 ++ leBytes 8 len
    ++ fix 64 (sh.ext.flatMap (leBytes 8))

/-- One level of the digest tree: neighbours combine, an unpaired last node passes (R66). -/
def digestLevel (xs : List Bytes) : List Bytes :=
  match xs with
  | a :: b :: t => sha512 (1 :: (a ++ b)) :: digestLevel t
  | xs => xs

/-- Levels until one node remains. -/
def digestGo (fuel : Nat) (xs : List Bytes) : Bytes :=
  match fuel, xs with
  | _, [] => []
  | _, [x] => x
  | 0, x :: _ => x
  | k + 1, xs => digestGo k (digestLevel xs)

/-- The digest of a byte stream under a header (R66). -/
def treeDigest (hdr stream : Bytes) : Bytes :=
  let cs := chunksOf (stream.length + 1) 65536 stream
  let leaves := (if cs.isEmpty then [[]] else cs).map (fun l => sha512 (0 :: l))
  sha512 (2 :: (hdr ++ digestGo leaves.length leaves))

/-- The tensor digest, 64 bytes (R66). -/
def tensorDigest (t : TData) : Bytes :=
  let st := canonStream t
  treeDigest (digestHeader t.shape st.length) st

/-- The key of a value for the ULP distance (R68); a NaN has none. -/
def ulpKey (f bits : Nat) : Option Int :=
  if fmtInt f then
    (match decodeElem f bits with
     | .fin neg m _ => some (if neg then -(m : Int) else m)
     | _ => none)
  else match decodeElem f bits with
    | .nan => none
    | _ =>
      if f = 12 then some (bits % 256 : Nat)
      else
        let mag : Int := (bits % 2 ^ (fmtBits f - 1) : Nat)
        some (if bits.testBit (fmtBits f - 1) then -mag else mag)

/-- Whether an element pair passes under ULPBOUND(n) by its encodings (R67, R68). -/
def ulpPass (f n a b : Nat) : Bool :=
  match ulpKey f a, ulpKey f b with
  | none, none => true
  | some x, some y => decide ((x - y).natAbs ≤ n)
  | _, _ => false

/-- Comparison modes (R67). -/
inductive CmpMode where
  | bitexact | ulp (n : Nat) | digest
  deriving DecidableEq, Repr

/-- Whether element i passes (R128). -/
def elemPasses (mode : CmpMode) (a b : TData) (i : Nat) : Bool :=
  let f := a.shape.fmt
  let x := a.elems.getD i 0
  let y := b.elems.getD i 0
  let sameScale := !a.shape.scaled
    || a.scales.getD (blockOf a.shape.ext i) 127 == b.scales.getD (blockOf a.shape.ext i) 127
  match mode with
  | .bitexact => canonElem f x == canonElem f y && sameScale
  | .ulp n =>
    if elemVal a i == .nan && elemVal b i == .nan then true
    else sameScale && elemVal a i != .nan && elemVal b i != .nan && ulpPass f n x y
  | .digest => true

/-- What a comparison gives: pass, first failing element, failing elements. -/
structure CmpResult where
  pass : Bool
  first : Nat
  count : Nat
  deriving DecidableEq, Repr

/-- Compare two tensors, or two digests under DIGEST (R128). -/
def compareTensors (mode : CmpMode) (a b : TData) : CmpResult :=
  match mode with
  | .digest =>
    if a.elems.map (fun x => x % 256) = b.elems.map (fun x => x % 256) then ⟨true, 2 ^ 64 - 1, 0⟩
    else ⟨false, 2 ^ 64 - 1, 1⟩
  | _ =>
    let bad := (List.range a.elems.length).filter (fun i => !elemPasses mode a b i)
    match bad with
    | [] => ⟨true, 2 ^ 64 - 1, 0⟩
    | i :: _ => ⟨false, i, min (2 ^ 64 - 1) bad.length⟩

/-- The compare record, 32 bytes (R128). What N holds under the modes that use none is not stated. -/
def compareRecord (mode : CmpMode) (r : CmpResult) : Bytes :=
  let (code, n) := match mode with
    | .bitexact => (0, Config.unstated 128 0)
    | .ulp n => (1, n)
    | .digest => (2, Config.unstated 128 2)
  leBytes 1 (if r.pass then 0 else 1) ++ leBytes 1 code ++ leBytes 2 n ++ zeros 4 ++ leBytes 8 r.first
    ++ leBytes 8 r.count ++ zeros 8

end Sys2Proof.Machine
end

