-- ==== Sys2Proof/Machine/TensorOps.lean ====
section
/-! DEFINITION. What each stage kind computes (03 R89, 04 R123 to R136): element operations, matrix products,
reductions, attention, microstages and merges, each on whole tensors.
Log entries coded here: 53 (DEDUCED), 55 (DEDUCED), 57 (DEDUCED), 63 (DESIGN CHOICE), 73 (DESIGN CHOICE), 224
(DEDUCED), 230 (DESIGN CHOICE), 231 (DESIGN CHOICE), 237 (DESIGN CHOICE). -/

namespace Sys2Proof.Machine

/-- A stage's result: its output tensors and the sticky flags it set. -/
structure StageOut where
  outs : List TData
  flags : Nat := 0
  deriving DecidableEq, Repr

/-- Collect results into a tensor. -/
def collect (sh : Shape) (rs : List TRes) : TData × Nat :=
  (⟨sh, rs.map (fun r => r.bits), []⟩, rs.foldl (fun a r => a ||| r.flags) 0)

/-- One output tensor of element results. -/
def outOf (sh : Shape) (rs : List TRes) : StageOut :=
  let (t, f) := collect sh rs
  ⟨[t], f⟩

/-- The bytes of a record as an INT8 tensor of rank 1. -/
def byteTensor (bs : Bytes) : TData := ⟨⟨10, false, [bs.length]⟩, bs.map (fun b => b.toNat), []⟩

/-- Raw 32-byte words: E-sum partials (format 0x80, extents of the elements) and attention states (0x81, rows and
HEAD). -/
def rawTensor (fmt : Nat) (ext : List Nat) (bs : Bytes) : TData := ⟨⟨fmt, false, ext⟩, bs.map (fun b => b.toNat), []⟩

/-- Bytes of a raw or INT8 tensor. -/
def tensorBytes (t : TData) : Bytes := t.elems.map (BitVec.ofNat 8)

/-! Indices -/

/-- The multi-index of linear index `i`, outermost first. -/
def unflatten (ext : List Nat) (i : Nat) : List Nat :=
  match ext with
  | [] => []
  | n :: t => (if extCount t = 0 then 0 else i / extCount t % max n 1) :: unflatten t i

/-- The linear index of a multi-index. -/
def flatten (ext idx : List Nat) : Nat :=
  (List.zip ext idx).foldl (fun a ni => a * ni.1 + ni.2) 0

/-! Element operations (R129, R130) -/

/-- An operand of an element operation: format, encoding, value. -/
structure Opnd where
  fmt : Nat
  bits : Nat
  v : TVal
  scaled : Bool := false
  deriving DecidableEq, Repr

/-- The integer an operand holds. -/
def Opnd.int (o : Opnd) : Int :=
  match o.v with
  | .fin neg m e => (if neg then -1 else 1) * (toUnits m e 0).1
  | _ => 0

/-- An integer result saturated into a format (R40, R130). -/
def intTo (f : Nat) (x : Int) : TRes := convertVal f (.fin (x < 0) x.natAbs 0)

/-- An integer result that wraps into a format: its low bits, or for a floating-point format its 32-bit value. -/
def intWrap (f : Nat) (x : Int) : TRes :=
  let w : Nat := (x % (2 ^ 32 : Nat)).toNat
  if fmtInt f then ⟨w % 2 ^ fmtBits f, 0⟩
  else intTo f (if w < 2 ^ 31 then w else (w : Int) - 2 ^ 32)

/-- The functions of R57 by operation code, in order from 0x0010. -/
def funOf (op : Nat) : Option TFun :=
  match op with
  | 0x10 => some .exp
  | 0x11 => some .log
  | 0x12 => some .recip
  | 0x13 => some .rsqrt
  | 0x14 => some .tanh
  | 0x15 => some .sigmoid
  | 0x16 => some .erf
  | 0x17 => some .gelu
  | 0x18 => some .silu
  | _ => none

/-- The sign of a value. -/
def signOf (v : TVal) : Bool :=
  match v with
  | .fin s _ _ => s
  | .inf s => s
  | .nan => false

/-- a orders before b, −0 below +0 (R130, R131). -/
def before (a b : TVal) : Bool :=
  ltVal a b || (isZeroVal a && isZeroVal b && signOf a && !signOf b)

/-- The larger or the smaller of two values; a NaN if either is one. -/
def pickVal (larger : Bool) (a b : TVal) : TVal :=
  if a = .nan || b = .nan then .nan
  else if larger then (if before a b then b else a) else (if before b a then b else a)

/-- One element operation (R129, R130). -/
def eltOp (op fout : Nat) (a b c : Opnd) : TRes :=
  match op with
  | 0x01 => addTo fout a.v b.v
  | 0x02 => addTo fout a.v (negVal b.v)
  | 0x03 => mulTo fout a.v b.v
  | 0x04 => divTo fout a.v b.v
  | 0x05 => sqrtTo fout a.v
  | 0x06 =>
    let r := addTo fout (mulVal a.v b.v) c.v
    { r with flags := r.flags ||| (if mulInvalid a.v b.v then TFlag.invalid else 0) }
  | 0x07 => convertVal fout (pickVal false a.v b.v)
  | 0x08 => convertVal fout (pickVal true a.v b.v)
  | 0x09 => convertVal fout (if signOf a.v then negVal a.v else a.v)
  | 0x0A => convertVal fout (negVal a.v)
  | 0x0B => convertVal fout (.fin false (if ltVal a.v b.v then 1 else 0) 0)
  | 0x0C =>
    let eq := a.v != .nan && b.v != .nan && !ltVal a.v b.v && !ltVal b.v a.v
    convertVal fout (.fin false (if eq then 1 else 0) 0)
  | 0x0D => convertVal fout (if isZeroVal a.v then c.v else b.v)
  | 0x0E => convertVal fout a.v
  | 0x20 => intWrap fout (BitVec.ofInt 32 a.int &&& BitVec.ofInt 32 b.int).toInt
  | 0x21 => intWrap fout (BitVec.ofInt 32 a.int ||| BitVec.ofInt 32 b.int).toInt
  | 0x22 => intWrap fout (BitVec.ofInt 32 a.int ^^^ BitVec.ofInt 32 b.int).toInt
  | 0x23 => intWrap fout (a.int * (2 ^ (b.int % 32).toNat : Nat))
  | 0x24 => intTo fout (a.int / (2 ^ (b.int % 32).toNat : Nat))
  | 0x25 => intWrap fout (a.int + b.int)
  | _ =>
    match funOf op with
    | some f => funEval f a.fmt a.scaled a.v fout
    | none => ⟨0, 0⟩

/-- The operand that element i of a tensor gives. -/
def opndAt (t : TData) (i : Nat) : Opnd := ⟨t.shape.fmt, t.elems.getD i 0, elemVal t i, t.shape.scaled⟩

/-- The operand that an immediate gives: INT32 or binary32 (R129). -/
def immOpnd (isInt : Bool) (imm : Nat) : Opnd :=
  let f := if isInt then 11 else 8
  ⟨f, imm, decodeElem f imm, false⟩

/-- ELTWISE over whole tensors. -/
def eltwise (op fout imm : Nat) (immInt : Bool) (a : TData) (b c : Option TData) : StageOut :=
  outOf ⟨fout, false, a.shape.ext⟩ ((List.range a.elems.length).map (fun i =>
    eltOp op fout (opndAt a i)
      (match b with
       | some t => opndAt t i
       | none => immOpnd immInt imm)
      (match c with
       | some t => opndAt t i
       | none => immOpnd false 0)))

/-! CONVERT (R44, R46) -/

/-- The rows of a list, n elements each. -/
def rowsOf (n : Nat) (xs : List Nat) : List (List Nat) := chunksOf xs.length (max n 1) xs

/-- Convert a tensor, with block quantisation where scales are asked for. -/
def convertTensor (fout : Nat) (scaleOut : Bool) (a : TData) : StageOut :=
  let ext := a.shape.ext
  if scaleOut then
    let blocks := (rowsOf (lastExt ext) (List.range a.elems.length)).flatMap (rowsOf 32)
    let qs := blocks.map (fun is => blockQuant fout (is.map (elemVal a)))
    ⟨[⟨⟨fout, true, ext⟩, qs.flatMap (fun q => q.2.1), qs.map (fun q => q.1)⟩], qs.foldl (fun f q => f ||| q.2.2) 0⟩
  else outOf ⟨fout, false, ext⟩ ((List.range a.elems.length).map (fun i => convertVal fout (elemVal a i)))

/-! E-sum partials (R76) -/

/-- One partial word: window, anchor, flags, MORE. -/
def partialWord (w : Int) (anchor : Int) (flags more : Nat) : Bytes :=
  leBytes 20 (w % (2 ^ 160 : Nat)).toNat ++ leBytes 2 (anchor % 65536).toNat ++ leBytes 1 flags ++ leBytes 1 more ++ zeros 8

/-- Exact sum of values in units of 2^q. -/
def windowSum (q : Int) (vs : List TVal) : Int :=
  vs.foldl (fun a v => match v with
    | .fin neg m e => let n : Int := (toUnits m e q).1
                      if neg then a - n else a + n
    | _ => a) 0

/-- The windows of a sum, primary first: each holds the products whose scale groups lie within its grid (R50). -/
def windowsOf (fuel : Nat) (g : Int) (ps : List (Int × TVal)) : List (Int × Int) :=
  match fuel, ps with
  | 0, _ => []
  | _, [] => []
  | k + 1, p :: t =>
    let E := t.foldl (fun m x => max m x.1) p.1
    let here := (p :: t).filter (fun x => decide (E - 96 ≤ x.1 + g))
    let rest := (p :: t).filter (fun x => decide (x.1 + g < E - 96))
    (windowSum (E - 96) (here.map (fun x => x.2)), E) :: windowsOf k g rest

/-- Words of a list of windows, all but the last marked MORE. -/
def windowWords (flags : Nat) (ws : List (Int × Int)) : Bytes :=
  match ws with
  | [] => partialWord 0 0 flags 0
  | [w] => partialWord w.1 w.2 flags 0
  | w :: t => partialWord w.1 w.2 flags 1 ++ windowWords flags t

/-- Put an addend into the first window that holds it, sum and all; where none does, into an extension window of its own
(R50). `ws`: windows with their anchors, the primary first. -/
def placeAddend (neg : Bool) (m : Nat) (e : Int) (ws : List (Int × Int)) : List (Int × Int) :=
  match ws with
  | [] => [((if neg then -(m : Int) else m), e + 96)]
  | w :: t =>
    let s := w.1 + windowSum (w.2 - 96) [.fin neg m e]
    if inWindow w.2 (.fin neg m e) && decide (-(2 ^ 159 : Nat) ≤ s) && decide (s < (2 ^ 159 : Nat)) then (s, w.2) :: t
    else w :: placeAddend neg m e t

/-- A value carried as binary32 in bytes 0 to 3 of a partial word, with bit 7 of MORE set (R76). -/
def valueWord (bits flags : Nat) : Bytes := leBytes 20 bits ++ zeros 2 ++ leBytes 1 flags ++ leBytes 1 0x80 ++ zeros 8

/-- The partial of one E-sum. A NaN, an infinity, and a sum of nothing but −0 travel as a binary32 value. The sum of more
than 2^31 products is the binary32 value of R51, held exactly in one window. -/
def partialOf (scaled : Bool) (fa fb : Nat) (ps : List (Scaled × Scaled)) (c : Option TVal) : Bytes × Nat :=
  if eChunk < ps.length then
    let u := eSumChunks scaled fa fb ps c
    (match val32 u.bits with
     | .fin neg m e =>
       if m = 0 && neg then (valueWord 0x80000000 u.flags, u.flags)
       else (partialWord (if neg then -(m : Int) else m) (e + 96) u.flags 0, u.flags)
     | _ => (valueWord u.bits u.flags, u.flags))
  else
    let acc := eSumAcc ps c
    let flags := acc.flags ||| extFlag scaled fa fb ps c
    match acc.total with
    | .fin neg m _ =>
      if m = 0 && neg then (valueWord 0x80000000 flags, flags)
      else
        let prods := ps.filterMap (fun p => (combinedScale p).map (fun e => (e, mulVal p.1.val p.2.val)))
        let ws := match windowsOf ps.length (fmtGrid fa + fmtGrid fb) prods with
          | [] => [(0, 0)]
          | ws => ws
        (windowWords flags (match c with
          | some (.fin s n e) => if n = 0 then ws else placeAddend s n e ws
          | _ => ws), flags)
    | v => (valueWord (convertVal 8 v).bits flags, flags)

/-- A signed field. -/
def signed (w n : Nat) : Int := if n < 2 ^ (w - 1) then n else (n : Int) - (2 ^ w : Nat)

/-- Read one partial off raw bytes: the sum it holds, its flags, and the bytes after it. -/
def readPartial (fuel : Nat) (bs : Bytes) (acc : ESum) (flags : Nat) : ESum × Nat × Bytes :=
  match fuel with
  | 0 => (acc, flags, bs)
  | k + 1 =>
    let more := leAt bs 23 1
    let f := flags ||| leAt bs 22 1
    if more.testBit 7 then (acc.term (val32 (leAt bs 0 4)), f, bs.drop 32)
    else
      let w := signed 160 (leAt bs 0 20)
      let e := signed 16 (leAt bs 20 2) - 96
      let acc' := acc.term (.fin (w < 0) w.natAbs e)
      if more.testBit 0 then readPartial k (bs.drop 32) acc' f else (acc', f, bs.drop 32)

/-! MATMUL (R124) -/

/-- Parameters of a MATMUL stage. -/
structure MatParam where
  fa : Nat
  fb : Nat
  fout : Nat
  transA : Bool
  transB : Bool
  exactInt : Bool
  partials : Bool
  m : Nat
  n : Nat
  k : Nat
  sigma : Nat
  deriving DecidableEq, Repr

/-- The pair of operands of product kk of output (i, j). -/
def matPair (p : MatParam) (a b : TData) (i j kk : Nat) : Scaled × Scaled :=
  (elemScaled a (if p.transA then kk * p.m + i else i * p.k + kk),
   elemScaled b (if p.transB then j * p.k + kk else kk * p.n + j))

/-- Whether a format pair is reduced by the C-tree (R53, R54). -/
def isTree (fa fb : Nat) : Bool := (fa == 7 || fa == 8) && (fb == 7 || fb == 8)

/-- One output element. -/
def matElem (p : MatParam) (a b : TData) (c : Option TData) (i j : Nat) : TRes :=
  let ps := (List.range p.k).map (matPair p a b i j)
  let cv := c.map (fun t => elemVal t (i * p.n + j))
  if isTree p.fa p.fb then treeDot (if p.partials then 8 else p.fout) (ps.map (fun q => (q.1.val, q.2.val))) cv
  else if fmtInt p.fa then
    (if p.exactInt then eSum false p.fa p.fb 11 ps cv
     else eSumDequant p.fa p.fb ps cv (val32 p.sigma))
  else eSum (a.shape.scaled || b.shape.scaled) p.fa p.fb p.fout ps cv

/-- The whole product. -/
def matmul (p : MatParam) (a b : TData) (c : Option TData) : StageOut :=
  let ij := (List.range p.m).flatMap (fun i => (List.range p.n).map (fun j => (i, j)))
  if p.partials && !isTree p.fa p.fb then
    let rs := ij.map (fun x => partialOf (a.shape.scaled || b.shape.scaled) p.fa p.fb
      ((List.range p.k).map (matPair p a b x.1 x.2)) (c.map (fun t => elemVal t (x.1 * p.n + x.2))))
    ⟨[rawTensor 0x80 [p.m, p.n] (rs.flatMap (fun r => r.1))], rs.foldl (fun f r => f ||| r.2) 0⟩
  else
    let fo := if isTree p.fa p.fb && p.partials then 8
      else if fmtInt p.fa then (if p.exactInt then 11 else 8) else p.fout
    outOf ⟨fo, false, [p.m, p.n]⟩ (ij.map (fun x => matElem p a b c x.1 x.2))

/-! The accumulator files (R75) -/

/-- The exact sum of windows, in units of the least anchor of them. -/
def joinWindows (ws : List (Int × Int)) : Int × Int :=
  match ws with
  | [] => (0, 0)
  | w :: t =>
    let E := t.foldl (fun m x => min m x.2) w.2
    ((w :: t).foldl (fun a x => a + x.1 * (2 ^ (x.2 - E).toNat : Nat)) 0, E)

/-- The entries of one set of windows after the last beat: rows 0 to 255 of the last M-block in the columns of the last N tile,
the checksum row as entry 256 and the checksum column as column 64. `base`: where the set's keys begin. -/
def accEntries (win : Nat → Nat → Int × Int) (rows cols base : Nat) (m : SMap (Int × Int)) : SMap (Int × Int) :=
  let put (c e : Nat) (w : Int × Int) (m : SMap (Int × Int)) := SMap.set (0, 0) m (base + 257 * c + e) w
  let data := (List.range cols).foldl (fun a c => (List.range rows).foldl (fun b r => put c r (win r c) b) a) m
  let sums := (List.range cols).foldl (fun a c => put c 256 (joinWindows ((List.range rows).map (fun r => win r c))) a) data
  (List.range rows).foldl (fun a r => put 64 r (joinWindows ((List.range cols).map (fun c => win r c))) a) sums

/-- The accumulator files as an E-sum MATMUL leaves them: primary windows, and the second set of the extension pass. -/
def accFiles (p : MatParam) (a b : TData) (tile : Nat) : SMap (Int × Int) :=
  let r0 := (p.m - 1) / 256 * 256
  let c0 := (p.n - 1) / tile * tile
  let wins (r c : Nat) : List (Int × Int) :=
    windowsOf p.k (fmtGrid p.fa + fmtGrid p.fb) (((List.range p.k).map (matPair p a b (r0 + r) (c0 + c))).filterMap
      (fun q => (combinedScale q).map (fun e => (e, mulVal q.1.val q.2.val))))
  accEntries (fun r c => (wins r c).getD 1 (0, 0)) (p.m - r0) (p.n - c0) (65 * 257)
    (accEntries (fun r c => (wins r c).getD 0 (0, 0)) (p.m - r0) (p.n - c0) 0 [])

/-! REDUCE (R131) -/

/-- A normalisation sum rounded straight to a format (R131, RKIND 4 and 5). -/
def normSumTo (f : Nat) (vs : List TVal) : TRes :=
  let a := vs.foldl (fun a v => a.term v) ({} : ESum)
  if a.nan || a.pinf || a.ninf then a.round f
  else if eChunk < vs.length then
    let r := normSum vs
    let q := convertVal f (val32 r.bits)
    { q with flags := q.flags ||| r.flags }
  else match vs.filterMap leadExp with
    | [] => ⟨signBit f (a.any && a.allNegZero), 0⟩
    | x :: t =>
      let q := t.foldl max x - 223
      let parts := vs.map (normTrunc q)
      let w := parts.foldl (fun s p => s + p.1) (0 : Int)
      let k := parts.any (fun p => p.2)
      if w = 0 then ⟨0, if k then TFlag.underflow else 0⟩
      else roundFin f false (w < 0) (2 * w.natAbs + (if k then 1 else 0)) (q - 1) false

/-- Maximum or minimum of a row; an empty row gives the infinity or the most extreme finite value, with no flag. -/
def extremeOf (larger : Bool) (f : Nat) (vs : List TVal) : TRes :=
  match vs with
  | [] => { convertVal f (.inf larger) with flags := 0 }
  | v :: t => convertVal f (t.foldl (pickVal larger) v)

/-- A row of elements reduced (R131). -/
def reduceRow (rkind fin fout : Nat) (scaled : Bool) (xs : List Scaled) : TRes :=
  let one : Scaled := ⟨.fin false 1 0, some 0⟩
  match rkind with
  | 0 => eSum scaled fin 10 fout (xs.map (fun x => (x, one))) none
  | 1 =>
    let t := cTree (xs.map (fun x => convertVal 8 x.val))
    if fout = 8 then t
    else
      let r := convertVal fout (val32 t.bits)
      { r with flags := r.flags ||| t.flags }
  | 2 => extremeOf true fout (xs.map Scaled.val)
  | 3 => extremeOf false fout (xs.map Scaled.val)
  | 4 => normSumTo fout (xs.map Scaled.val)
  | _ =>
    let qs := xs.map (fun x => mulTo 8 x.val x.val)
    let r := normSumTo fout (qs.map (fun q => val32 q.bits))
    { r with flags := qs.foldl (fun f q => f ||| q.flags) r.flags }

/-- Linear indices of the elements of one output row of a reduction along an axis. -/
def axisRow (ext : List Nat) (axis o : Nat) : List Nat :=
  let n := ext.getD axis 1
  let inner := extCount (ext.drop (axis + 1))
  (List.range n).map (fun i => (if inner = 0 then 0 else (o / inner * n + i) * inner + o % inner))

/-- REDUCE along an axis; E-sum partials travel as words (R76). -/
def reduceTensor (rkind axis fout : Nat) (partials : Bool) (a : TData) : StageOut :=
  let ext := a.shape.ext
  let oext := ext.take axis ++ ext.drop (axis + 1)
  let rows := (List.range (extCount oext)).map (fun o => (axisRow ext axis o).map (elemScaled a))
  if partials && rkind = 0 then
    let rs := rows.map (fun xs => partialOf a.shape.scaled a.shape.fmt 10
      (xs.map (fun x => (x, ⟨.fin false 1 0, some 0⟩))) none)
    ⟨[rawTensor 0x80 oext (rs.flatMap (fun r => r.1))], rs.foldl (fun f r => f ||| r.2) 0⟩
  else
    let fo := if partials && rkind = 1 then 8 else fout
    outOf ⟨fo, false, oext⟩ (rows.map (reduceRow rkind a.shape.fmt fo a.shape.scaled))

/-! PERMUTE (R132) -/

/-- Swap two positions of a list. -/
def swapAt (a b : Nat) (xs : List Nat) : List Nat := (xs.set a (xs.getD b 0)).set b (xs.getD a 0)

/-- A tensor whose element i is element `f i` of another; scales follow their blocks. -/
def gatherElems (a : TData) (ext : List Nat) (f : Nat → Nat) : TData :=
  let n := extCount ext
  let l := lastExt ext
  let firstOf (b : Nat) : Nat := if rowBlocks ext = 0 then 0 else b / rowBlocks ext * l + b % rowBlocks ext * 32
  ⟨⟨a.shape.fmt, a.shape.scaled, ext⟩,
   (List.range n).map (fun i => canonElem a.shape.fmt (a.elems.getD (f i) 0)),
   if a.shape.scaled then
     (List.range (if l = 0 then 0 else n / l * rowBlocks ext)).map (fun b =>
       a.scales.getD (blockOf a.shape.ext (f (firstOf b))) 127)
   else []⟩

/-- Transpose two axes. -/
def transposeT (x y : Nat) (a : TData) : TData :=
  let ext := swapAt x y a.shape.ext
  gatherElems a ext (fun i => flatten a.shape.ext (swapAt x y (unflatten ext i)))

/-- An element whose value no rule gives: a free value by its place and the index that names nothing. -/
def freeElem (f i key : Nat) : Nat := canonElem f (Config.unstated 132 (i * 2 ^ 33 + key) % 2 ^ fmtBits f)

/-- Gather along an axis by indices. An index that names no element gives an element that the spec does not state. -/
def gatherT (axis : Nat) (idx : List Nat) (a : TData) : TData :=
  let ext := a.shape.ext.set axis idx.length
  let at_ (i : Nat) : Nat := idx.getD ((unflatten ext i).getD axis 0) 0
  let t := gatherElems a ext (fun i => flatten a.shape.ext ((unflatten ext i).set axis (at_ i)))
  { t with elems := t.elems.zipIdx.map (fun e =>
      if at_ e.2 < a.shape.ext.getD axis 1 then e.1 else freeElem a.shape.fmt e.2 (at_ e.2)) }

/-- Scatter along an axis into a destination; the source element with the highest logical index wins. An index beyond the
destination names no element, and nothing is written for it. -/
def scatterT (axis : Nat) (idx : List Nat) (a dst : TData) : TData :=
  let src := a.shape.ext
  (List.range a.elems.length).foldl (fun d i =>
    let m := unflatten src i
    let x := idx.getD (m.getD axis 0) 0
    let j := flatten d.shape.ext (m.set axis x)
    if d.shape.ext.getD axis 1 ≤ x then d
    else
      { d with
        elems := d.elems.set j (canonElem a.shape.fmt (a.elems.getD i 0))
        scales := if d.shape.scaled then d.scales.set (blockOf d.shape.ext j)
            (a.scales.getD (blockOf src i) 127) else d.scales }) dst

/-- The destination of a scatter onto a stream: a tensor whose elements nothing has written, each a free value. -/
def freeTensor (fmt : Nat) (scaled : Bool) (ext : List Nat) : TData :=
  let n := if scaled then extCount ext.dropLast * rowBlocks ext else 0
  ⟨⟨fmt, scaled, ext⟩, (List.range (extCount ext)).map (fun i => freeElem fmt i (2 ^ 32)),
   (List.range n).map (fun i => Config.unstated 132 (i * 2 ^ 33 + 2 ^ 32 + 1) % 256)⟩

/-- The piece that position p along an axis falls into, and the position within it. -/
def pieceAt (sizes : List Nat) (p k : Nat) : Nat × Nat :=
  match sizes with
  | [] => (k, p)
  | n :: t => if p < n then (k, p) else pieceAt t (p - n) (k + 1)

/-- Concatenate along an axis. -/
def concatT (axis : Nat) (xs : List TData) : TData :=
  match xs with
  | [] => ⟨⟨10, false, [0]⟩, [], []⟩
  | a :: _ =>
    let sizes := xs.map (fun t => t.shape.ext.getD axis 1)
    let ext := a.shape.ext.set axis (sizes.foldl (· + ·) 0)
    let pick (i : Nat) : TData × Nat :=
      let m := unflatten ext i
      let (k, p) := pieceAt sizes (m.getD axis 0) 0
      let t := xs.getD k a
      (t, flatten t.shape.ext (m.set axis p))
    let n := extCount ext
    let l := lastExt ext
    ⟨⟨a.shape.fmt, a.shape.scaled, ext⟩,
     (List.range n).map (fun i => let (t, j) := pick i
                                  canonElem t.shape.fmt (t.elems.getD j 0)),
     if a.shape.scaled then
       (List.range (if l = 0 then 0 else n / l * rowBlocks ext)).map (fun b =>
         let (t, j) := pick (if rowBlocks ext = 0 then 0 else b / rowBlocks ext * l + b % rowBlocks ext * 32)
         t.scales.getD (blockOf t.shape.ext j) 127)
     else []⟩

/-- Split along an axis into pieces of the given sizes. -/
def splitT (axis : Nat) (sizes : List Nat) (a : TData) : List TData :=
  (sizes.zipIdx).map (fun sk =>
    let off := (sizes.take sk.2).foldl (· + ·) 0
    let ext := a.shape.ext.set axis sk.1
    gatherElems a ext (fun i =>
      let m := unflatten ext i
      flatten a.shape.ext (m.set axis (m.getD axis 0 + off))))

/-! RANDOM (R125) -/

/-- Element n of a RANDOM stage. R63 gives a uniform integer as o itself and does not say how it enters a format: an
integer format narrower than 32 bits takes the low bits of o, without saturation, and a floating-point format takes o as an
unsigned number. DESIGN CHOICE. -/
def randomElem (k0 k1 : Nat) (ctr : List Nat) (deriv fout thr n : Nat) : TRes :=
  let q := n / 4
  let lo := ctr.getD 0 0 + q % 2 ^ 32
  let hi := ctr.getD 1 0 + q / 2 ^ 32 + lo / 2 ^ 32
  let ws := counterGen (BitVec.ofNat 32 lo) (BitVec.ofNat 32 hi) (BitVec.ofNat 32 (ctr.getD 2 0))
    (BitVec.ofNat 32 (ctr.getD 3 0)) (BitVec.ofNat 32 k0) (BitVec.ofNat 32 k1)
  let o := (ws.getD (n % 4) 0).toNat
  match deriv with
  | 0 => convertVal fout (.fin false (o / 256) (-24))
  | 1 => convertVal fout (.fin false (o / 256 + 1) (-24))
  | 2 => convertVal fout (.fin false (if o < thr then 1 else 0) 0)
  | _ => if fmtInt fout then ⟨o % 2 ^ fmtBits fout, 0⟩ else convertVal fout (.fin false o 0)

/-! Attention (R60, R61, R126, R127) -/

/-- Parameters of an attention stage. -/
structure AttnParam where
  head : Nat
  sigma : Nat
  mask : Nat
  group : Nat
  rows : Nat
  qPos0 : Nat
  keyFirst : Nat
  keyCount : Nat
  deriving DecidableEq, Repr

/-- Row of a key or value tensor that holds key number KEY_FIRST + t: row t of a tensor of KEY_COUNT rows, otherwise
the key's own row. -/
def keyRow (p : AttnParam) (k : TData) (t : Nat) : Nat :=
  if k.shape.ext.getD 0 0 = p.keyCount then t else p.keyFirst + t

/-- Whether key number j is masked for row r (R126). -/
def maskedAt (p : AttnParam) (maskT : Option TData) (r j : Nat) : Bool :=
  match p.mask with
  | 0 => false
  | 1 => decide (p.qPos0 + r / max p.group 1 < j)
  | _ =>
    match maskT with
    | some t => t.elems.getD (r * t.shape.ext.getD 1 0 + j) 0 % 256 != 0
    | none => false

/-- s_j of row r (R60, pass 1), with its flags. -/
def score (p : AttnParam) (q k : TData) (maskT : Option TData) (r t : Nat) : TRes :=
  if maskedAt p maskT r (p.keyFirst + t) then ⟨0xFF800000, 0⟩
  else
    let row := keyRow p k t
    let ps := (List.range p.head).map (fun h => (elemScaled q (r * p.head + h), elemScaled k (row * p.head + h)))
    let acc := eSumAcc ps none
    let x := mulTo 8 (val32 p.sigma) acc.total
    let ext := if eExtension (q.shape.scaled || k.shape.scaled) q.shape.fmt k.shape.fmt ps none then TFlag.extension else 0
    { x with flags := x.flags ||| acc.flags ||| ext }

/-- ATTN_SCORE: the exact maximum of each row. -/
def attnScore (p : AttnParam) (q k : TData) (maskT : Option TData) : StageOut :=
  let rs := (List.range p.rows).map (fun r =>
    let ss := (List.range p.keyCount).map (score p q k maskT r)
    let m := extremeOf true 8 (ss.map (fun s => val32 s.bits))
    (⟨m.bits, ss.foldl (fun f s => f ||| s.flags) m.flags⟩ : TRes))
  outOf ⟨8, false, [p.rows]⟩ rs

/-- p_j and P_j of a row: exp of the rounded difference, and its binary16 rounding, with the flags of d_j = RNE16 kept.
Where s_j − m lies between −65,504 and −65,520, R61 reads as if d_j rounded to −∞, while the threshold of R40 rounds it to
−65,504; R40 is followed. p_j is +0 either way, and only the flag differs: UNDERFLOW of the exp, not OVERFLOW of d_j.
DESIGN CHOICE. -/
def weightOf (s m : Nat) : TRes × TRes :=
  let d := addTo 6 (val32 s) (negVal (val32 m))
  let pj := funNarrow .exp 8 (decodeElem 6 d.bits)
  (⟨pj.bits, pj.flags ||| d.flags⟩, convertVal 6 (val32 pj.bits))

/-- What pass 2 gives one row: weights, and per head element the products of P_j and v_ji. -/
def attnRow (p : AttnParam) (q k v : TData) (maskT : Option TData) (m r : Nat) :
    List TRes × List (List (Scaled × Scaled)) × Nat :=
  let ss := (List.range p.keyCount).map (score p q k maskT r)
  let ws := ss.map (fun s => weightOf s.bits m)
  let heads := (List.range p.head).map (fun i =>
    (ws.zipIdx).map (fun wt =>
      ((⟨decodeElem 6 wt.1.2.bits, some 0⟩ : Scaled), elemScaled v (keyRow p v wt.2 * p.head + i))))
  (ws.map (fun w => w.1), heads, ws.foldl (fun f w => f ||| w.1.flags ||| w.2.flags) (ss.foldl (fun f s => f ||| s.flags) 0))

/-- Every key of the stage's range is masked for row r (R61, R126). -/
def rowMasked (p : AttnParam) (maskT : Option TData) (r : Nat) : Bool :=
  (List.range p.keyCount).all (fun t => maskedAt p maskT r (p.keyFirst + t))

/-- The final division of one row (R60, step 3); a row with every key masked is +0 with INVALID (R61). -/
def attnDivide (fout : Nat) (masked : Bool) (l : Nat) (ns : List Nat) : List TRes :=
  if masked then ns.zipIdx.map (fun ni => ⟨0, if ni.2 = 0 then TFlag.invalid else 0⟩)
  else ns.map (fun n => divTo fout (val32 n) (val32 l))

/-- ATTN_ACCUM in MODE 0 and MODE 1. -/
def attnAccum (p : AttnParam) (fout : Nat) (partial_ : Bool) (q k v ms : TData) (maskT : Option TData) : StageOut :=
  let rows := (List.range p.rows).map (fun r =>
    (rowMasked p maskT r, ms.elems.getD r 0, attnRow p q k v maskT (ms.elems.getD r 0) r))
  if partial_ then
    let rs := rows.map (fun mr =>
      let row := mr.2.2
      let cut := (row.1.map (fun w => val32 w.bits)).map (normTrunc (-223))
      let W : Int := if mr.1 then 0 else cut.foldl (fun (a : Int) c => a + c.1) 0
      let sticky := !mr.1 && cut.any (fun c => c.2)
      let parts := row.2.1.map (fun ps => if mr.1 then (partialWord 0 0 0 0, 0)
        else partialOf v.shape.scaled 6 v.shape.fmt ps none)
      let flags := parts.foldl (fun f x => f ||| x.2) row.2.2
      (leBytes 32 (W % (2 ^ 256 : Nat)).toNat ++ leBytes 1 (b2n sticky) ++ leBytes 1 flags ++ zeros 2
        ++ leBytes 4 mr.2.1 ++ zeros 24 ++ parts.flatMap (fun x => x.1), flags))
    ⟨[rawTensor 0x81 [p.rows, p.head] (rs.flatMap (fun r => r.1))], rs.foldl (fun f r => f ||| r.2) 0⟩
  else
    let rs := rows.flatMap (fun mr =>
      let row := mr.2.2
      let l := normSum (row.1.map (fun w => val32 w.bits))
      let ns := row.2.1.map (fun ps => eSum v.shape.scaled 6 v.shape.fmt 8 ps none)
      let f := ns.foldl (fun a n => a ||| n.flags) (row.2.2 ||| l.flags)
      (attnDivide fout mr.1 l.bits (ns.map (fun n => n.bits))).map (fun r => r.withFlags f))
    outOf ⟨fout, false, [p.rows, p.head]⟩ rs

/-! MERGE (R76, R78, R126, R127) -/

/-- The attention state of one row read off raw bytes. -/
structure AttnState where
  w : Int
  sticky : Bool
  flags : Nat
  m : Nat
  n : List ESum
  deriving DecidableEq, Repr

/-- Read `h` E-sum partials. -/
def readPartials (h : Nat) (bs : Bytes) (acc : List ESum) (flags : Nat) : List ESum × Nat × Bytes :=
  match h with
  | 0 => (acc, flags, bs)
  | k + 1 =>
    let (e, f, rest) := readPartial (bs.length / 32 + 1) bs {} flags
    readPartials k rest (acc ++ [e]) f

/-- Read the state of one row. -/
def readState (head : Nat) (bs : Bytes) : AttnState × Bytes :=
  let (ns, f, rest) := readPartials head (bs.drop 64) [] 0
  (⟨signed 256 (leAt bs 0 32), (leAt bs 32 1).testBit 0, leAt bs 33 1 ||| f, leAt bs 36 4, ns⟩, rest)

/-- All rows of one piece. -/
def readStates (fuel head : Nat) (bs : Bytes) : List AttnState :=
  match fuel with
  | 0 => []
  | k + 1 => if bs.isEmpty then [] else
    let (s, rest) := readState head bs
    s :: readStates k head rest

/-- All partials of one piece. -/
def readAllPartials (fuel : Nat) (bs : Bytes) : List (ESum × Nat) :=
  match fuel with
  | 0 => []
  | k + 1 => if bs.isEmpty then [] else
    let (e, f, rest) := readPartial (bs.length / 32 + 1) bs {} 0
    (e, f) :: readAllPartials k rest

/-- Two running sums joined. -/
def ESum.join (a b : ESum) : ESum :=
  if !a.any then b else if !b.any then a else
  { nan := a.nan || b.nan, invalid := a.invalid || b.invalid, pinf := a.pinf || b.pinf, ninf := a.ninf || b.ninf
    sum := a.sum.add b.sum, any := true, allNegZero := a.allNegZero && b.allNegZero }

/-- Combine the states of one row; none where their maxima differ (R127). -/
def joinStates (xs : List AttnState) : Option AttnState :=
  match xs with
  | [] => none
  | a :: t => t.foldl (fun o b => match o with
      | none => none
      | some x => if x.m = b.m then
          some ⟨x.w + b.w, x.sticky || b.sticky, x.flags ||| b.flags, x.m, List.zipWith ESum.join x.n b.n⟩
        else none) (some a)

/-- The output row of a combined state: l and every n_i rounded to binary32, then the division. With a row maximum of −∞
every key of the row was masked (R61), unless an unmasked s_j of −∞ has left NaNs in the sums. -/
def stateRow (fout : Nat) (s : AttnState) : List TRes :=
  let l := if s.w = 0 then (⟨0, if s.sticky then TFlag.underflow else 0⟩ : TRes)
    else roundFin 8 false (s.w < 0) (2 * s.w.natAbs + b2n s.sticky) (-224) false
  let ns := s.n.map (fun e => e.settle.round 8)
  let f := ns.foldl (fun a n => a ||| n.flags) (s.flags ||| l.flags)
  let masked := val32 s.m == .inf true && ns.all (fun n => val32 n.bits != .nan)
  (attnDivide fout masked l.bits (ns.map (fun n => n.bits))).map (fun r => r.withFlags f)

/-- MERGE of pieces; none where attention maxima differ and the plan ends with FAULT. -/
def mergeTensors (pkind fout head : Nat) (pieces : List TData) : Option StageOut :=
  match pkind with
  | 0 =>
    let ps := pieces.map (fun t => readAllPartials (t.elems.length / 32 + 1) (tensorBytes t))
    let ext := ((pieces.headD ⟨⟨0x80, false, [0]⟩, [], []⟩).shape).ext
    some (outOf ⟨fout, false, ext⟩ ((List.range (extCount ext)).map (fun i =>
      let xs := ps.map (fun p => p.getD i ({}, 0))
      let e := (xs.foldl (fun a x => a.join x.1) ({} : ESum)).settle
      let r := e.round fout
      { r with flags := xs.foldl (fun f x => f ||| x.2) r.flags })))
  | 1 =>
    let sh := (pieces.headD ⟨⟨8, false, [0]⟩, [], []⟩).shape
    some (outOf ⟨fout, false, sh.ext⟩ ((List.range (extCount sh.ext)).map (fun i =>
      let t := cTree (pieces.map (fun p => ⟨p.elems.getD i 0, 0⟩))
      if fout = 8 then t
      else let r := convertVal fout (val32 t.bits)
           { r with flags := r.flags ||| t.flags })))
  | 2 =>
    let sh := (pieces.headD ⟨⟨8, false, [0]⟩, [], []⟩).shape
    some (outOf ⟨fout, false, sh.ext⟩ ((List.range (extCount sh.ext)).map (fun i =>
      extremeOf true fout (pieces.map (fun p => elemVal p i)))))
  | _ =>
    let ps := pieces.map (fun t => readStates (t.elems.length / 64 + 1) head (tensorBytes t))
    let n := (ps.headD []).length
    let rows := (List.range n).map (fun r => joinStates (ps.filterMap (fun p => p[r]?)))
    if rows.any (fun r => r.isNone) then none
    else some (outOf ⟨fout, false, [n, head]⟩ (rows.flatMap (fun r => match r with
      | some s => stateRow fout s
      | none => [])))

/-! MICRO (R134, R135) -/

/-- State of a microstage: registers of 256 lanes, normalisation terms, input cursors, outputs. -/
structure Micro where
  regs : List (List Nat)
  accs : List (List TVal)
  cur : List Nat
  outs : List (List TRes)
  skip : Nat := 0
  ended : Bool := false
  flags : Nat := 0
  deriving DecidableEq, Repr

/-- A register of 256 equal lanes. -/
def lanes (x : Nat) : List Nat := List.replicate 256 x

/-- A lane as an operand: integer operations take it as INT32, the others as binary32. -/
def laneOpnd (op x : Nat) : Opnd :=
  let f := if 0x20 ≤ op && op ≤ 0x25 then 11 else 8
  ⟨f, x, decodeElem f x, false⟩

/-- One instruction of a microstage on the 256 lanes (R134). `ins`: the input tensors; `fin`, `fout`: port formats. -/
def microInstr (ins : List TData) (fout : List Nat) (w : Nat) (m : Micro) : Micro :=
  let opc := w / 2 ^ 56 % 256
  let dst := w / 2 ^ 50 % 64
  let a := m.regs.getD (w / 2 ^ 44 % 64) []
  let b := m.regs.getD (w / 2 ^ 38 % 64) []
  let c := m.regs.getD (w / 2 ^ 32 % 64) []
  let imm := w % 2 ^ 32
  let put (xs : List Nat) : Micro := { m with regs := m.regs.set dst xs }
  if m.ended then m
  else if 0 < m.skip then { m with skip := m.skip - 1 }
  else match opc with
    | 0x01 =>
      let port := imm % 4
      let t := ins.getD port ⟨⟨8, false, [0]⟩, [], []⟩
      let at_ := m.cur.getD port 0
      let xs := (List.range 256).map (fun l =>
        if imm.testBit 8 then
          (if fmtInt t.shape.fmt then
             (BitVec.ofInt 32 (opndAt t (at_ + l)).int).toNat else t.elems.getD (at_ + l) 0)
        else (convertVal 8 (elemVal t (at_ + l))).bits)
      { put xs with cur := m.cur.set port (at_ + 256) }
    | 0x02 =>
      let port := imm % 4
      let rs := a.map (fun x => convertVal (fout.getD port 8) (val32 x))
      { m with outs := m.outs.set port (m.outs.getD port [] ++ rs)
               flags := rs.foldl (fun f r => f ||| r.flags) m.flags }
    | 0x03 => put (lanes imm)
    | 0x04 =>
      let op := imm % 65536
      let rs := (List.range 256).map (fun l =>
        eltOp op 8 (laneOpnd op (a.getD l 0)) (laneOpnd op (b.getD l 0)) (laneOpnd op (c.getD l 0)))
      { put (rs.map (fun r => r.bits)) with flags := rs.foldl (fun f r => f ||| r.flags) m.flags }
    | 0x05 => put ((List.range 256).map (fun l => a.getD (b.getD l 0 % 256) 0))
    | 0x06 => put (List.range 256)
    | 0x07 => put (lanes (extremeOf true 8 (a.map val32)).bits)
    | 0x08 => put (lanes (extremeOf false 8 (a.map val32)).bits)
    | 0x09 => { m with accs := m.accs.set (imm % 16) (m.accs.getD (imm % 16) [] ++ a.map val32) }
    | 0x0A =>
      let r := normSum (m.accs.getD (imm % 16) [])
      { put (lanes r.bits) with accs := m.accs.set (imm % 16) [], flags := m.flags ||| r.flags }
    | 0x0B => if isZeroVal (val32 (a.getD 0 0)) then m else { m with skip := imm % 256 }
    | _ => { m with ended := true }

/-- One invocation: v0 to v47 start at +0 (R135). -/
def microInvoke (ins : List TData) (fout prog : List Nat) (m : Micro) : Micro :=
  let m0 := { m with regs := List.replicate 48 (lanes 0) ++ m.regs.drop 48, skip := 0, ended := false }
  prog.foldl (fun x w => microInstr ins fout w x) m0

/-- `n` invocations. -/
def microRun (n : Nat) (ins : List TData) (fout prog : List Nat) (m : Micro) : Micro :=
  match n with
  | 0 => m
  | k + 1 => microRun k ins fout prog (microInvoke ins fout prog m)

/-- The vector unit after a MICRO stage: the program has run ITER times. -/
def microEnd (iter : Nat) (ins : List TData) (fout prog : List Nat) : Micro :=
  microRun iter ins fout prog
    ⟨List.replicate 64 (lanes 0), List.replicate 16 [], [0, 0, 0, 0], [[], [], [], []], 0, false, 0⟩

/-- MICRO: one output tensor per port. -/
def microStage (iter : Nat) (ins : List TData) (fout prog : List Nat) : StageOut :=
  let m := microEnd iter ins fout prog
  ⟨(List.range 4).map (fun p => let rs := m.outs.getD p []
                                ⟨⟨fout.getD p 8, false, [rs.length]⟩, rs.map (fun r => r.bits), []⟩), m.flags⟩

end Sys2Proof.Machine
end

