-- ==== Sys2Proof/Machine/StatePress.lean ====
section
/-! DEFINITION. State of the Press (03, 04): clusters, irons, and the plans that the scheduler core holds.
Log entries coded here: 76 (DESIGN CHOICE), 224 (DEDUCED). -/

namespace Sys2Proof.Machine

/-- Cluster states (STATE of CL_STATE). -/
inductive ClSt where
  | off | idle | loading | running | frozen | suspended | selftest
  deriving DecidableEq, Repr

/-- The code of a cluster state. -/
def ClSt.code (c : ClSt) : Nat :=
  match c with
  | .off => 0
  | .idle => 1
  | .loading => 2
  | .running => 3
  | .frozen => 4
  | .suspended => 5
  | .selftest => 6

/-- Iron states (STATE of IRON_STATE). -/
inductive IronSt where
  | idle | bound | active | frozen | halted | test
  deriving DecidableEq, Repr

/-- The code of an iron state; a cluster that is OFF shows 0. -/
def IronSt.code (i : IronSt) : Nat :=
  match i with
  | .idle => 1
  | .bound => 2
  | .active => 3
  | .frozen => 4
  | .halted => 5
  | .test => 6

/-- One iron: the stage bound to it and its progress (R97). -/
structure Iron where
  st : IronSt := .idle
  /-- Index and kind of the bound stage. -/
  stage : Option (Nat × Nat) := none
  flags : Nat := 0
  beat : Nat := 0
  beats : Nat := 0
  inBound : Nat := 0
  outBound : Nat := 0
  /-- Words that have passed each input and each output port: the stream cursors of R97. -/
  inCur : List Nat := []
  outCur : List Nat := []
  /-- A result of the stage carries POISON (R95, R101). -/
  poison : Bool := false
  /-- The vector unit's registers v0 to v63 of 256 lanes, as a microstage left them (R79, R135). -/
  vregs : List (List Nat) := []
  /-- Terms in the 16 normalisation accumulators (R80, R135). -/
  norms : List (List TVal) := []
  /-- The accumulator files of the MAC array after the last beat (R75): window and anchor by 257 × column + entry; column 64
  is the checksum column, entry 256 the checksum row, and from 65 × 257 on lies the second set of an extension pass. -/
  accs : SMap (Int × Int) := []
  deriving DecidableEq, Repr

/-- One cluster and its control core's held state. -/
structure Cluster where
  st : ClSt := .off
  /-- The suspension of R105 is in force: CLUSTER_SUSP of DEGRADE_CAUSE. -/
  susp : Bool := false
  /-- The plan loaded, by plan number; the cluster may be any of the plan's span. -/
  plan : Option Nat := none
  restartable : Bool := false
  restarts : Nat := 0
  /-- The last self-test passed. -/
  passed : Bool := false
  /-- A check failed in this iron: the quick test of R102 runs, or waits for the control core. -/
  failed : Option Nat := none
  /-- The control core has stopped and has not released the irons since (R98, R99). -/
  ctlFroze : Bool := false
  /-- The plan is being rerun after a check failure. -/
  rerun : Bool := false
  /-- A poisoned word from outside the Press has arrived and is to be reloaded (R95). -/
  poison : Bool := false
  /-- RESUME or power-up waits for a suspension or power-down in progress. -/
  resumeWaits : Bool := false
  /-- A stall of 1 s has been recorded (R106). -/
  stallTold : Bool := false
  /-- Causes of waiting that have stood since the last 1 ms tick, and those that have stood for 1 ms: STALL_CAUSE (R106). -/
  stallSeen : Nat := 0
  stallShown : Nat := 0
  /-- FLAGS_ANY: the flags of every stage since a plan was loaded. -/
  flagsAny : Nat := 0
  /-- Budget cap and thermal limit, MHz (R85, R360, R381); the 1,600 they stand at limits nothing. -/
  capMhz : Nat := 1600
  thermMhz : Nat := 1600
  deriving DecidableEq, Repr

/-- Who submitted a plan. -/
inductive PlanOwner where
  | host (mb tag : Nat)
  | replay (acc capsule : Nat)
  | third (node req : Nat)
  | capture (acc capsule : Nat)
  | prep (darn : Nat)
  deriving DecidableEq, Repr

/-- Where a plan stands: STATE of PLAN_QUERY. -/
inductive PlanSt where
  | waiting | loading | running | done | fault | aborted
  deriving DecidableEq, Repr

/-- The code of a plan's state (R275). -/
def PlanSt.code (p : PlanSt) : Nat :=
  match p with
  | .waiting => 0
  | .loading => 1
  | .running => 2
  | .done => 3
  | .fault => 4
  | .aborted => 5

/-- A part of a scratch tensor (R143): its offset and length in the tensor, its level of memory and its device address. -/
structure ScratchPart where
  tensor : Nat
  off : Nat
  len : Nat
  level : Nat
  addr : Nat
  deriving DecidableEq, Repr

/-- One plan (R115 to R144). -/
structure Plan where
  id : Nat
  owner : PlanOwner
  /-- Class of R365: 0 HOLD replay, 1 AUDIT replay, 2 host job, 3 screening preparation; and when it entered it. -/
  cls : Nat
  since : Nat
  addr : Nat
  len : Nat
  /-- HOME that the header or the mailbox fixes. -/
  fixedHome : Option Nat := none
  image : Bytes := []
  st : PlanSt := .waiting
  home : Nat := 0
  phase : Nat := 0
  /-- Cluster and iron of each stage (R140). -/
  place : List (Nat × Nat) := []
  stagesDone : Nat := 0
  /-- The phase's results stand, and its stores beyond this node are under way. -/
  stored : Bool := false
  flags : Nat := 0
  /-- REASON of a plan that ended in FAULT. -/
  reason : Nat := 0
  /-- Refused at load (R137). -/
  refused : Bool := false
  /-- What the DIGEST and COMPARE stages of a plan of the TAL8 itself reported: stage, results and inputs. -/
  reports : List (Nat × List TData) := []
  /-- Handed back to the scheduler core: it is placed afresh, on any span (R99, R102, R146). -/
  requeued : Bool := false
  /-- Where its scratch tensors lie (R143). -/
  parts : List ScratchPart := []
  /-- Bits of STALL_CAUSE of the levels whose space it waits for (R144). -/
  waitLevels : Nat := 0
  /-- Loaded, and waiting for scratch space (R144) or held by the ledger (R366). -/
  spaceWaits : Bool := false
  budgetWaits : Bool := false
  /-- Bytes of scratch tensors that a stage has written: key tensor × 2^64 + byte; the others are undefined (R122). -/
  wrote : SMap Bool := []
  deriving DecidableEq, Repr

/-- A word in a stream lane: 32 data bytes and the sideband bits of R91. -/
structure SWord where
  data : Bytes
  first : Bool
  last : Bool
  fin : Bool
  poison : Bool
  deriving DecidableEq, Repr

/-- A read that an iron's load/store agent has still to issue, or has outstanding: the cluster that the plan's accesses go by,
the iron, the address and the length (R84). -/
structure IronRead where
  c : Nat
  g : Nat
  addr : Nat
  len : Nat
  deriving DecidableEq, Repr

/-- The plan is a capsule's replay (R159). -/
def Plan.isReplay (p : Plan) : Bool :=
  match p.owner with
  | .replay _ _ => true
  | _ => false

/-- The Press (R71). -/
structure Press where
  clusters : SMap Cluster := []
  irons : SMap Iron := []
  /-- Iron SRAM data bytes by offset in the alias of R27. -/
  sram : SMap Byte := []
  plans : List Plan := []
  nextPlan : Nat := 1
  /-- Bytes read from beyond this node for a cluster's plan: key cluster × 2^64 + device address. -/
  ext : SMap Byte := []
  /-- Words waiting in the two-entry buffers of lane segments (R92): key cluster of the plan's HOME × 2^32 + stream × 2^16 +
  segment, the oldest word first. -/
  lanes : SMap (List SWord) := []
  /-- Reads issued by irons, and reads that wait because 64 of their iron are outstanding (R84). -/
  issued : List IronRead := []
  readQueue : List IronRead := []
  /-- Reads whose data came with POISON: cluster, address, length; and the addresses reloaded once (R95). -/
  poisoned : List (Nat × Nat × Nat) := []
  reloads : List (Nat × Nat) := []
  /-- Writes of register space that STORE stages have issued: master, address, bytes. -/
  regWrites : List (Nat × Nat × Bytes) := []
  /-- Hash engines granted, and stages that wait for them in request order: plan, stage, engines (R87). -/
  hashUsed : List (Nat × Nat × Nat) := []
  hashWait : List (Nat × Nat × Nat) := []
  deriving DecidableEq, Repr

end Sys2Proof.Machine
end

