-- ==== Sys2Proof/Machine/StateAssure.lean ====
section
/-! DEFINITION. State of assurance (05): capsules, the replay registry, jobs, sampling, verdicts, work for peers and
darns. -/

namespace Sys2Proof.Machine

/-- Capsule states (R163); an entry that is not listed is FREE. -/
inductive CapSt where
  | queued | planWait | fetching | replaying | peerWait | hostWait | done
  deriving DecidableEq, Repr

/-- The code of a capsule state (R163). -/
def CapSt.code (c : CapSt) : Nat :=
  match c with
  | .queued => 1
  | .planWait => 2
  | .fetching => 3
  | .replaying => 4
  | .peerWait => 5
  | .hostWait => 6
  | .done => 7

/-- Whom a capsule came from: an accelerator of this tray, or a node that delegates its duty here (R154, R177). -/
inductive CapFrom where
  | acc (a : Nat)
  | node (n : Nat)
  deriving DecidableEq, Repr

/-- An open entry of the capsule table (R152 to R163). -/
structure Capsule where
  src : CapFrom
  /-- CAPSULE_ID. -/
  id : Nat
  /-- The CAPSULE payload (R152). -/
  body : Bytes
  st : CapSt := .queued
  /-- Order of arrival. -/
  order : Nat := 0
  /-- The registry entry that the dispatch took, and its image (R158, collisions: the running replay keeps its copy). -/
  entry : Bytes := []
  image : Bytes := []
  /-- Evidence space held: address and length of each range. -/
  space : List (Nat × Nat) := []
  /-- Evidence addresses of the elements and the scales of each input, and of the output where it is copied. -/
  inputs : List (Nat × Nat) := []
  output : Option (Nat × Nat) := none
  /-- The bound plan: address and length (R159). -/
  plan : Nat × Nat := (0, 0)
  /-- The replay's plan number. -/
  planId : Option Nat := none
  pressDigest : Bytes := []
  accDigest : Bytes := []
  /-- Press result and accelerator's output, for ULPBOUND (R164). -/
  pressOut : Option TData := none
  accOut : Option TData := none
  /-- Inputs of the replay's stage CAP_T, as it took them (R179). -/
  capIns : List TData := []
  firstElem : Nat := 2 ^ 64 - 1
  failCount : Nat := 0
  inconsistent : Bool := false
  sourcePoison : Bool := false
  /-- Judged by the delegate (R177). -/
  delegated : Bool := false
  /-- Node to which the capsule has been sent for judgement. -/
  sentTo : Option Nat := none
  /-- Bit c: PCc ran the replay. -/
  clusters : Nat := 0
  /-- The peer plan and the range for ULPBOUND output (R166, R167); EVID_WAIT while they do not fit. -/
  peerPlan : Option (Nat × Nat) := none
  outAddr : Nat := 0
  evidWait : Bool := false
  /-- Peers counted and their digests (R165, R171). -/
  peers : List Nat := []
  peerDigests : List Bytes := []
  /-- Candidates already asked or passed over in this round. -/
  tried : List Nat := []
  /-- The THIRD_REQ outstanding: REQ_ID and node. -/
  req : Option (Nat × Nat) := none
  /-- The TAG of the THIRD_REQ or DELEGATE_CAPSULE outstanding (R233). -/
  reqTag : Nat := 0
  /-- An UNRESOLVED verdict has been recorded. -/
  hostDecision : Nat := 0
  verdict : Nat := 0
  darnId : Bytes := []
  deriving DecidableEq, Repr

/-- A job (R172). `lcs` none is NONE. -/
structure Job where
  id : Nat
  lcs : Option Nat := none
  frozen : Bool := false
  /-- CLEAN ordinals by accelerator, newest first, at most 64 each. -/
  cleans : List (Nat × Nat) := []
  /-- When it was last touched, in the order of arrivals. -/
  touched : Nat := 0
  deriving DecidableEq, Repr

/-- How far a third execution for a peer has come (R166, R168). -/
inductive ThirdSt where
  | plan | tensors | running | output | done
  deriving DecidableEq, Repr

/-- A third execution that a peer asked for (R166). -/
structure Third where
  node : Nat
  /-- The THIRD_REQ payload. -/
  body : Bytes
  st : ThirdSt := .plan
  /-- Working slot: its bytes stand in the scheduler core's scratch at slot × 2^48. -/
  slot : Nat
  planId : Option Nat := none
  digest : Bytes := []
  deriving DecidableEq, Repr

/-- A darn in the index (R180). -/
structure Darn where
  /-- DARN_ID as a number. -/
  id : Nat
  origin : Nat
  kind : Nat := 0
  isLocal : Bool := false
  prepared : Bool := false
  quarantined : Bool := false
  hits : Nat := 0
  slot : Nat
  /-- Order of acceptance. -/
  order : Nat := 0
  deriving DecidableEq, Repr

/-- A darn on its way into the library (R181, R182, R184). -/
structure DarnWork where
  id : Nat
  /-- Node it comes from, and its length and address there. -/
  node : Nat
  origin : Nat
  len : Nat
  addr : Nat
  /-- Working slot of the scheduler core's scratch. -/
  slot : Nat
  /-- Preparation under way: plan number, and the cluster that gave another digest (R182). -/
  planId : Option Nat := none
  firstOn : Option Nat := none
  deriving DecidableEq, Repr

/-- A capture under way (R179). -/
structure Capture where
  src : CapFrom
  id : Nat
  planId : Nat
  slot : Nat
  /-- Fragment plan image, its operand data, its output tensor and the graph of the failed step. -/
  frag : Bytes
  data : Bytes
  outT : Nat
  graph : Bytes
  acc : Nat
  /-- SEQ of the verdict record it belongs to. -/
  seq : Nat
  deriving DecidableEq, Repr

/-- Assurance (05). -/
structure Assure where
  /-- The TAL8 is tagged for replacement (R177). -/
  selfTag : Bool := false
  /-- Assurance duty lies with the delegate: DELEGATED of AS_STATUS. -/
  delegated : Bool := false
  /-- Accelerators tagged for replacement (R175), and the FRU serial number held with each tag. -/
  accTag : BitVec 8 := 0
  serials : SMap Bytes := []
  /-- The tray seed (R157). -/
  seed : Option Nat := none
  /-- The seed of this power cycle, which a cold reset by SYSRST_N does not change (R157). -/
  seedHeld : Option Nat := none
  caps : List Capsule := []
  /-- Registry entries by graph hash (R158): 128 bytes each. -/
  registry : List Bytes := []
  jobs : List Job := []
  /-- Outstanding selects: accelerator, JOB_ID, STEP (R151). -/
  selects : List (Nat × Nat × Nat) := []
  /-- Recency table: first 8 bytes of the graph hash and operating time, the one selected longest ago first (R156). -/
  recency : List (Nat × Nat) := []
  /-- Arrivals counted, for the order of capsules and jobs. -/
  arrivals : Nat := 0
  /-- Verdict records, newest first, at most 64 (R171), and the SEQ of the newest. -/
  vlog : List Bytes := []
  vseq : Nat := 0
  /-- Operating times of FAULTY-SELF verdicts counted (R177), and clusters suspended for one. -/
  selfTimes : List Nat := []
  selfSusp : Nat := 0
  nextReq : Nat := 1
  thirds : List Third := []
  /-- The scheduler core's scratch for peers' plans and tensors (R166): slot × 2^48 + offset. -/
  work : SMap Byte := []
  darns : List Darn := []
  /-- Slots of the library that hold their darn (R184). -/
  filled : List Nat := []
  fetches : List DarnWork := []
  captures : List Capture := []
  libFull : Bool := false
  /-- Screening (R183): darns that go first, and the slot screened last, by accelerator; the darn that runs. -/
  front : SMap (List Nat) := []
  cycle : SMap Nat := []
  screening : SMap (Option Nat) := []
  /-- Indexed darns that the neighbours have been asked for (R184). -/
  wanted : List Nat := []
  deriving DecidableEq, Repr

/-- What a cold reset keeps: tags with their serial numbers, the self-tag, while which duty lies with the delegate, the darn index,
and the seed of the power cycle (R157, R175, R177, R180). -/
def Assure.kept (a : Assure) : Assure :=
  { selfTag := a.selfTag, delegated := a.selfTag, accTag := a.accTag, serials := a.serials, darns := a.darns, seedHeld := a.seedHeld }

/-- The capsule table and the other contents of capsule memory after an AON trip, and at the end of SEQUENCING-DOWN
(R154). -/
def Assure.emptied (a : Assure) : Assure :=
  { a with caps := [], selects := [], thirds := [], work := [] }

end Sys2Proof.Machine
end

