-- ==== Sys2Proof/Machine/Regs.lean ====
section
/-! DEFINITION. The register space (R27, R30): the offset of every register, and the register maps of
the chapters with each register's access code (R8), reset value, writable bits and reserved bits (R4).
Log entries coded here: 15 (DESIGN CHOICE), 22 (DESIGN CHOICE). -/

namespace Sys2Proof.Machine

/-- Register access codes (R8). A register whose fields are set by hardware alone is `ro`. -/
inductive Acc where
  | ro | rw | w1c | wo | rwl
  deriving DecidableEq, Repr

/-- One row of a register map: words `base + s1*i + s2*j + 4*w` for `i < n1`, `j < n2`, `w < words`,
with access code, reset value, the bits that a write changes, and the reserved bits. -/
structure RegRow where
  base : Nat
  s1 : Nat
  n1 : Nat
  s2 : Nat
  n2 : Nat
  words : Nat
  acc : Acc
  reset : Nat
  wmask : Nat
  rsv : Nat
  deriving DecidableEq, Repr

abbrev R.CHIP_ID : Nat := 0x0
abbrev R.CHIP_CAP : Nat := 0x4
abbrev R.NODE_ID : Nat := 0x8
abbrev R.TORUS_DIM : Nat := 0xC
abbrev R.TRAY_STATE : Nat := 0x10
abbrev R.DEGRADE_CAUSE : Nat := 0x14
abbrev R.ERR_STATUS : Nat := 0x18
abbrev R.ERR_ADDR_LO : Nat := 0x1C
abbrev R.ERR_ADDR_HI : Nat := 0x20
abbrev R.ISLAND_PWR : Nat := 0x24
abbrev R.PEER_WIN (i : Nat) : Nat := 0x40 + 0x4 * i
abbrev R.CL_STATE (c : Nat) : Nat := 0x10000000 + 0x1000000 * c
abbrev R.CL_CTRL (c : Nat) : Nat := 0x10000004 + 0x1000000 * c
abbrev R.CL_FREQ (c : Nat) : Nat := 0x10000008 + 0x1000000 * c
abbrev R.CL_FREQ_ACT (c : Nat) : Nat := 0x1000000C + 0x1000000 * c
abbrev R.PLAN_ADDR_LO (c : Nat) : Nat := 0x10000010 + 0x1000000 * c
abbrev R.PLAN_ADDR_HI (c : Nat) : Nat := 0x10000014 + 0x1000000 * c
abbrev R.PLAN_TAG (c : Nat) : Nat := 0x10000018 + 0x1000000 * c
abbrev R.PLAN_PROGRESS (c : Nat) : Nat := 0x1000001C + 0x1000000 * c
abbrev R.STALL_CAUSE (c : Nat) : Nat := 0x10000020 + 0x1000000 * c
abbrev R.FAULT_STATUS (c : Nat) : Nat := 0x10000024 + 0x1000000 * c
abbrev R.FAULT_LOC (c : Nat) : Nat := 0x10000028 + 0x1000000 * c
abbrev R.SELFTEST_RESULT (c : Nat) : Nat := 0x1000002C + 0x1000000 * c
abbrev R.CL_CNT_TC_CORR (c : Nat) : Nat := 0x10000030 + 0x1000000 * c
abbrev R.CL_CNT_TC_UNCORR (c : Nat) : Nat := 0x10000034 + 0x1000000 * c
abbrev R.CL_CNT_RESIDUE (c : Nat) : Nat := 0x10000038 + 0x1000000 * c
abbrev R.CL_CNT_CHECKSUM (c : Nat) : Nat := 0x1000003C + 0x1000000 * c
abbrev R.CL_CNT_RERUN (c : Nat) : Nat := 0x10000040 + 0x1000000 * c
abbrev R.BRIDGE_CTRL (c : Nat) : Nat := 0x10000044 + 0x1000000 * c
abbrev R.BRIDGE_STATUS (c : Nat) : Nat := 0x10000048 + 0x1000000 * c
abbrev R.FLAGS_ANY (c : Nat) : Nat := 0x1000004C + 0x1000000 * c
abbrev R.IRON_STATE (c : Nat) (i : Nat) : Nat := 0x10010000 + 0x1000000 * c + 0x100 * i
abbrev R.IRON_STAGE (c : Nat) (i : Nat) : Nat := 0x10010004 + 0x1000000 * c + 0x100 * i
abbrev R.IRON_FLAGS (c : Nat) (i : Nat) : Nat := 0x10010008 + 0x1000000 * c + 0x100 * i
abbrev R.IRON_BEAT (c : Nat) (i : Nat) : Nat := 0x1001000C + 0x1000000 * c + 0x100 * i
abbrev R.IRON_BEATS (c : Nat) (i : Nat) : Nat := 0x10010010 + 0x1000000 * c + 0x100 * i
abbrev R.IRON_PORTS (c : Nat) (i : Nat) : Nat := 0x10010014 + 0x1000000 * c + 0x100 * i
abbrev R.IRON_ERR (c : Nat) (i : Nat) : Nat := 0x10010018 + 0x1000000 * c + 0x100 * i
abbrev R.AS_CTRL : Nat := 0xB000000
abbrev R.AS_STATUS : Nat := 0xB000004
abbrev R.SEED_LO : Nat := 0xB000008
abbrev R.SEED_HI : Nat := 0xB00000C
abbrev R.SAMPLE_BIAS : Nat := 0xB000010
abbrev R.RECENCY_MS : Nat := 0xB000014
abbrev R.SELF_WINDOW_MS : Nat := 0xB000018
abbrev R.DELEGATE : Nat := 0xB00001C
abbrev R.TAGS : Nat := 0xB000020
abbrev R.SELF_COUNT : Nat := 0xB000024
abbrev R.VLOG_HEAD : Nat := 0xB000028
abbrev R.OPEN_COUNT : Nat := 0xB00002C
abbrev R.EVID_AREA : Nat := 0xB000030
abbrev R.LIB_AREA : Nat := 0xB000034
abbrev R.DARN_COUNT : Nat := 0xB000038
abbrev R.RATE (i : Nat) : Nat := 0xB000040 + 0x4 * i
abbrev R.PEER (i : Nat) : Nat := 0xB000060 + 0x4 * i
abbrev R.VLOG (i : Nat) (w : Nat) : Nat := 0xB001000 + 0x200 * i + 4 * w
abbrev R.AS_CNT_SELECTED : Nat := 0xB000100
abbrev R.AS_CNT_SKIPPED : Nat := 0xB000104
abbrev R.AS_CNT_CLEAN : Nat := 0xB000108
abbrev R.AS_CNT_FAULTY_ACC : Nat := 0xB00010C
abbrev R.AS_CNT_FAULTY_SELF : Nat := 0xB000110
abbrev R.AS_CNT_UNRESOLVED : Nat := 0xB000114
abbrev R.AS_CNT_PEER_SERVED : Nat := 0xB000118
abbrev R.AS_CNT_SCREEN_RUNS : Nat := 0xB00011C
abbrev R.MEM_STATE : Nat := 0x20000000
abbrev R.MEM_CFG : Nat := 0x20000004
abbrev R.TC_MODE : Nat := 0x20000008
abbrev R.SCRUB_CTRL : Nat := 0x2000000C
abbrev R.HWIN_BASE : Nat := 0x20000010
abbrev R.HWIN_SIZE : Nat := 0x20000014
abbrev R.UE_HEAD : Nat := 0x20000018
abbrev R.PIN_BASE (i : Nat) : Nat := 0x20000020 + 0x8 * i
abbrev R.PIN_CFG (i : Nat) : Nat := 0x20000024 + 0x8 * i
abbrev R.STK_STATUS (i : Nat) : Nat := 0x20000100 + 0x40 * i
abbrev R.MEM_CNT_CE (i : Nat) : Nat := 0x20000104 + 0x40 * i
abbrev R.MEM_CNT_UE (i : Nat) : Nat := 0x20000108 + 0x40 * i
abbrev R.SCRUB_POS (i : Nat) : Nat := 0x2000010C + 0x40 * i
abbrev R.SCRUB_PASSES (i : Nat) : Nat := 0x20000110 + 0x40 * i
abbrev R.LANE_SUSPECT_LO (i : Nat) : Nat := 0x20000114 + 0x40 * i
abbrev R.LANE_SUSPECT_HI (i : Nat) : Nat := 0x20000118 + 0x40 * i
abbrev R.DIE_BROKEN (i : Nat) : Nat := 0x2000011C + 0x40 * i
abbrev R.UE_LOG (i : Nat) (w : Nat) : Nat := 0x20001000 + 0x10 * i + 4 * w
abbrev R.PORT_CTRL (k : Nat) : Nat := 0x30000000 + 0x100000 * k
abbrev R.PORT_STATE (k : Nat) : Nat := 0x30000004 + 0x100000 * k
abbrev R.PARTNER (k : Nat) : Nat := 0x30000008 + 0x100000 * k
abbrev R.PORT_ERR (k : Nat) : Nat := 0x3000000C + 0x100000 * k
abbrev R.GH_LANE_STAT (k : Nat) (i : Nat) : Nat := 0x30000010 + 0x100000 * k + 0x4 * i
abbrev R.GH_CNT_FEC_CORR (k : Nat) : Nat := 0x30000020 + 0x100000 * k
abbrev R.GH_CNT_FEC_UNCORR (k : Nat) : Nat := 0x30000024 + 0x100000 * k
abbrev R.GH_CNT_TC_CORR (k : Nat) : Nat := 0x30000028 + 0x100000 * k
abbrev R.GH_CNT_TC_UNCORR (k : Nat) : Nat := 0x3000002C + 0x100000 * k
abbrev R.GH_CNT_REPLAY (k : Nat) : Nat := 0x30000030 + 0x100000 * k
abbrev R.GH_CNT_RETRAIN (k : Nat) : Nat := 0x30000034 + 0x100000 * k
abbrev R.LINK_DELAY (k : Nat) : Nat := 0x30000038 + 0x100000 * k
abbrev R.MIRROR_PORT (k : Nat) : Nat := 0x3000003C + 0x100000 * k
abbrev R.TEST_CTRL (k : Nat) : Nat := 0x30000040 + 0x100000 * k
abbrev R.TEST_ERR (k : Nat) : Nat := 0x30000044 + 0x100000 * k
abbrev R.TX_CREDIT (k : Nat) (i : Nat) : Nat := 0x30000060 + 0x100000 * k + 0x4 * i
abbrev R.ROUTE_CTRL : Nat := 0x30880000
abbrev R.CNT_DROP : Nat := 0x30880004
abbrev R.CNT_UNREACH : Nat := 0x30880008
abbrev R.CNT_TURNED : Nat := 0x3088000C
abbrev R.TABLE_EPOCH : Nat := 0x30880010
abbrev R.LINKDOWN (i : Nat) : Nat := 0x30881000 + 0x4 * i
abbrev R.SU_CTRL : Nat := 0x38000000
abbrev R.SU_STATE : Nat := 0x38000004
abbrev R.SU_ERR : Nat := 0x38000008
abbrev R.SU_HLC : Nat := 0x3800000C
abbrev R.SU_HLC_BASE : Nat := 0x38000010
abbrev R.SU_HLC_SIZE : Nat := 0x38000014
abbrev R.SU_HCR : Nat := 0x38000018
abbrev R.NOTICE_CTRL : Nat := 0x3800001C
abbrev R.NOTICE_PEND : Nat := 0x38000020
abbrev R.SU_LANE_STAT (i : Nat) : Nat := 0x38000040 + 0x4 * i
abbrev R.SU_CNT_FEC_CORR : Nat := 0x38000080
abbrev R.SU_CNT_FEC_UNCORR : Nat := 0x38000084
abbrev R.SU_CNT_CRC : Nat := 0x38000088
abbrev R.SU_CNT_REPLAY : Nat := 0x3800008C
abbrev R.SU_CNT_RETRAIN : Nat := 0x38000090
abbrev R.SU_CNT_HLC_HIT : Nat := 0x38000094
abbrev R.SU_CNT_HLC_MISS : Nat := 0x38000098
abbrev R.SU_CNT_SNP : Nat := 0x3800009C
abbrev R.SU_CNT_CLAIM : Nat := 0x380000A0
abbrev R.SU_CNT_POISON : Nat := 0x380000A4
abbrev R.CREDIT (i : Nat) : Nat := 0x380000C0 + 0x4 * i
abbrev R.MB_CTRL (i : Nat) : Nat := 0x8000000 + 0x40 * i
abbrev R.MB_STATE (i : Nat) : Nat := 0x8000004 + 0x40 * i
abbrev R.MB_CFG (i : Nat) : Nat := 0x8000008 + 0x40 * i
abbrev R.MB_VER (i : Nat) : Nat := 0x800000C + 0x40 * i
abbrev R.MB_ERR (i : Nat) : Nat := 0x8000010 + 0x40 * i
abbrev R.MB_DONE (i : Nat) : Nat := 0x8000014 + 0x40 * i
abbrev R.MBX_REPLIED : Nat := 0x8000800
abbrev R.MBX_CORE_DOWN : Nat := 0x8000804
abbrev R.MCTP_IANA : Nat := 0x8000808
abbrev R.MCTP_EID : Nat := 0x800080C
abbrev R.ST_STATE : Nat := 0x2000000
abbrev R.ST_CFG : Nat := 0x2000004
abbrev R.ST_PROG : Nat := 0x2000008
abbrev R.ST_GROUP_BLOCK : Nat := 0x200000C
abbrev R.ST_SIGNALS : Nat := 0x2000010
abbrev R.ST_FAULT : Nat := 0x2000014
abbrev R.FFLOG_HEAD : Nat := 0x2000018
abbrev R.JOURNAL_LEN : Nat := 0x200001C
abbrev R.STRAND (i : Nat) : Nat := 0x2000040 + 0x4 * i
abbrev R.RAIL_STATE (i : Nat) : Nat := 0x2000100 + 0x4 * i
abbrev R.JOURNAL (i : Nat) : Nat := 0x2000800 + 0x4 * i
abbrev R.RAIL_CFG (i : Nat) (w : Nat) : Nat := 0x2001000 + 0x20 * i + 4 * w
abbrev R.STITCH (i : Nat) (w : Nat) : Nat := 0x2004000 + 0x8 * i + 4 * w
abbrev R.MT_CTRL : Nat := 0x3000000
abbrev R.CAL_STATE : Nat := 0x3000004
abbrev R.CAL_ID : Nat := 0x3000008
abbrev R.CAL_PERIOD : Nat := 0x300000C
abbrev R.TIME_CTRL : Nat := 0x3000010
abbrev R.TIME_STATE : Nat := 0x3000014
abbrev R.TAI_LO : Nat := 0x3000018
abbrev R.TAI_HI : Nat := 0x300001C
abbrev R.TIME_ROOT (i : Nat) : Nat := 0x3000020 + 0x4 * i
abbrev R.TK_CFG : Nat := 0x3000040
abbrev R.TK_LIMITS : Nat := 0x3000044
abbrev R.TK_OPEN : Nat := 0x3000048
abbrev R.TK_STORE : Nat := 0x300004C
abbrev R.TK_SEQ_LO : Nat := 0x3000050
abbrev R.TK_SEQ_HI : Nat := 0x3000054
abbrev R.BATCH_LO : Nat := 0x3000058
abbrev R.BATCH_HI : Nat := 0x300005C
abbrev R.IDLE_NJ_LO : Nat := 0x3000060
abbrev R.IDLE_NJ_HI : Nat := 0x3000064
abbrev R.UNTICKETED_NJ_LO : Nat := 0x3000068
abbrev R.UNTICKETED_NJ_HI : Nat := 0x300006C
abbrev R.CNT_ATTRIB_LATE : Nat := 0x3000070
abbrev R.CNT_ATTRIB_BAD : Nat := 0x3000074
abbrev R.CNT_UNTICKETED_REQ : Nat := 0x3000078
abbrev R.CNT_CAL_SUSPECT : Nat := 0x300007C
abbrev R.CNT_NEG_OVERHEAD : Nat := 0x3000080
abbrev R.RAIL_MCFG (i : Nat) : Nat := 0x3004000 + 0x20 * i
abbrev R.RAIL_MSCALE (i : Nat) : Nat := 0x3004004 + 0x20 * i
abbrev R.RAIL_MERR (i : Nat) : Nat := 0x3004008 + 0x20 * i
abbrev R.ENERGY_LO (i : Nat) : Nat := 0x3004010 + 0x20 * i
abbrev R.ENERGY_HI (i : Nat) : Nat := 0x3004014 + 0x20 * i
abbrev R.VOLT_UV (i : Nat) : Nat := 0x3004018 + 0x20 * i
abbrev R.CURR_MA (i : Nat) : Nat := 0x300401C + 0x20 * i
abbrev R.CAL_COEF (i : Nat) (w : Nat) : Nat := 0x3008000 + 0x8 * i + 4 * w
abbrev R.BG_LINES : Nat := 0x1000
abbrev R.BG_THR_CAUSE : Nat := 0x1004
abbrev R.BG_CTRL : Nat := 0x1008
abbrev R.BG_TIMING : Nat := 0x100C
abbrev R.BG_CAP_CFG : Nat := 0x1010
abbrev R.BG_FLOOR_CFG : Nat := 0x1014
abbrev R.BG_RESERVE_MIN : Nat := 0x1018
abbrev R.BG_SUMMARY : Nat := 0x101C
abbrev R.BG_CAP_RACK : Nat := 0x1020
abbrev R.BG_CAP_HOST : Nat := 0x1024
abbrev R.BG_FLOOR_RACK : Nat := 0x1028
abbrev R.BG_FLOOR_HOST : Nat := 0x102C
abbrev R.BG_CAP_EFF : Nat := 0x1030
abbrev R.BG_FLOOR_EFF : Nat := 0x1034
abbrev R.BG_RESERVE : Nat := 0x1038
abbrev R.GRANT (i : Nat) : Nat := 0x1040 + 0x4 * i
abbrev R.GUARD (i : Nat) : Nat := 0x1080 + 0x4 * i
abbrev R.PART_CFG (i : Nat) : Nat := 0x10A0 + 0x4 * i
abbrev R.PART_WT (i : Nat) : Nat := 0x10D0 + 0x4 * i
abbrev R.TH_W (i : Nat) : Nat := 0x1100 + 0x4 * i
abbrev R.CNT_GUARD (i : Nat) : Nat := 0x1140 + 0x4 * i
abbrev R.TH_CTRL : Nat := 0x4000000
abbrev R.TH_STATE : Nat := 0x4000004
abbrev R.TH_TRIP : Nat := 0x4000008
abbrev R.TH_HEADROOM : Nat := 0x400000C
abbrev R.SENS_BROKEN (i : Nat) : Nat := 0x4000010 + 0x4 * i
abbrev R.ZONE_T (i : Nat) : Nat := 0x4000040 + 0x4 * i
abbrev R.RO_T (i : Nat) : Nat := 0x4000100 + 0x4 * i
abbrev R.RD_T (i : Nat) : Nat := 0x4000300 + 0x4 * i
abbrev R.RD_CFG (i : Nat) : Nat := 0x4000340 + 0x4 * i
abbrev R.TH_T (i : Nat) : Nat := 0x4000380 + 0x4 * i
abbrev R.TH_CFG (i : Nat) : Nat := 0x4000400 + 0x4 * i
abbrev R.ACC_TLIM (i : Nat) : Nat := 0x4000480 + 0x4 * i
abbrev R.CO_STATUS : Nat := 0x4001000
abbrev R.WDG_CTRL : Nat := 0x4001004
abbrev R.QCAP : Nat := 0x4001008
abbrev R.CO_CP : Nat := 0x400100C
abbrev R.CO_TRET : Nat := 0x4001010
abbrev R.CO_AIRCAP : Nat := 0x4001014
abbrev R.CH_CFG (i : Nat) : Nat := 0x4002000 + 0x20 * i
abbrev R.CH_CURVE_LO (i : Nat) : Nat := 0x4002004 + 0x20 * i
abbrev R.CH_CURVE_HI (i : Nat) : Nat := 0x4002008 + 0x20 * i
abbrev R.CH_DUTY (i : Nat) : Nat := 0x400200C + 0x20 * i
abbrev R.CH_OVR (i : Nat) : Nat := 0x4002010 + 0x20 * i
abbrev R.CH_SPEED (i : Nat) : Nat := 0x4002014 + 0x20 * i
abbrev R.CH_STAT (i : Nat) : Nat := 0x4002018 + 0x20 * i
abbrev R.FLOW_CFG (i : Nat) : Nat := 0x4003000 + 0x10 * i
abbrev R.FLOW_RATE (i : Nat) : Nat := 0x4003004 + 0x10 * i
abbrev R.FLOW_STAT (i : Nat) : Nat := 0x4003008 + 0x10 * i
abbrev R.LK_STATE : Nat := 0x5000000
abbrev R.LK_TH : Nat := 0x5000004
abbrev R.LK_LEAK_LO : Nat := 0x5000008
abbrev R.LK_LEAK_HI : Nat := 0x500000C
abbrev R.LK_LOST_LO : Nat := 0x5000010
abbrev R.LK_LOST_HI : Nat := 0x5000014
abbrev R.LK_CFG (i : Nat) : Nat := 0x5000100 + 0x4 * i
abbrev R.LK_MEAS (i : Nat) : Nat := 0x5000200 + 0x4 * i
abbrev R.LZ_CFG (i : Nat) : Nat := 0x5000300 + 0x4 * i
abbrev R.TW_CTRL (n : Nat) : Nat := 0x6000000 + 0x10000 * n
abbrev R.TW_TIMING (n : Nat) : Nat := 0x6000004 + 0x10000 * n
abbrev R.TW_TMO (n : Nat) : Nat := 0x6000008 + 0x10000 * n
abbrev R.TW_TGT (n : Nat) : Nat := 0x600000C + 0x10000 * n
abbrev R.TW_STATE (n : Nat) : Nat := 0x6000010 + 0x10000 * n
abbrev R.TW_ERR (n : Nat) : Nat := 0x6000014 + 0x10000 * n
abbrev R.TW_XFER (n : Nat) : Nat := 0x6000018 + 0x10000 * n
abbrev R.TW_XSTAT (n : Nat) : Nat := 0x600001C + 0x10000 * n
abbrev R.TW_STEST (n : Nat) : Nat := 0x6000020 + 0x10000 * n
abbrev R.TW_TSTAT (n : Nat) : Nat := 0x6000024 + 0x10000 * n
abbrev R.TW_CNT_NACK (n : Nat) : Nat := 0x6000040 + 0x10000 * n
abbrev R.TW_CNT_ARB (n : Nat) : Nat := 0x6000044 + 0x10000 * n
abbrev R.TW_CNT_TMO (n : Nat) : Nat := 0x6000048 + 0x10000 * n
abbrev R.TW_CNT_PROTO (n : Nat) : Nat := 0x600004C + 0x10000 * n
abbrev R.TW_CNT_RECOVER (n : Nat) : Nat := 0x6000050 + 0x10000 * n
abbrev R.TW_CNT_RESET (n : Nat) : Nat := 0x6000054 + 0x10000 * n
abbrev R.TW_CNT_WAKE_NACK (n : Nat) : Nat := 0x6000058 + 0x10000 * n
abbrev R.TW_CNT_PEC (n : Nat) : Nat := 0x600005C + 0x10000 * n
abbrev R.TW_WBUF (n : Nat) (w : Nat) : Nat := 0x6000100 + 0x10000 * n + 4 * w
abbrev R.TW_RBUF (n : Nat) (w : Nat) : Nat := 0x6000200 + 0x10000 * n + 4 * w
abbrev R.TW_TBUF (n : Nat) (w : Nat) : Nat := 0x6000300 + 0x10000 * n + 4 * w
abbrev R.TW_TSEND (n : Nat) (w : Nat) : Nat := 0x6000400 + 0x10000 * n + 4 * w
abbrev R.CORE_DOWN : Nat := 0x1000000
abbrev R.CORE_HELD : Nat := 0x1000004
abbrev R.CORE_WDG : Nat := 0x1000008
abbrev R.CORE_KICK : Nat := 0x100000C
abbrev R.EMERG : Nat := 0x1000010
abbrev R.PEND_ACT : Nat := 0x1000014
abbrev R.OPTIME_LO : Nat := 0x1000018
abbrev R.OPTIME_HI : Nat := 0x100001C
abbrev R.POWER_CYCLES : Nat := 0x1000020
abbrev R.STARCH_VCORE : Nat := 0x1000030
abbrev R.STARCH_ICLK : Nat := 0x1000034
abbrev R.STARCH_TJ : Nat := 0x1000038
abbrev R.VCORE_SET : Nat := 0x100003C
abbrev R.CORE_INFO (i : Nat) : Nat := 0x1000080 + 0x4 * i
abbrev R.CORE_SVN (i : Nat) : Nat := 0x10000C0 + 0x4 * i
abbrev R.SEC_STATE : Nat := 0x9000000
abbrev R.SEC_LOCK : Nat := 0x9000004
abbrev R.KEY_EPOCH : Nat := 0x9000008
abbrev R.AUTH_COUNT : Nat := 0x900000C
abbrev R.DBG_CHALLENGE (i : Nat) : Nat := 0x9000010 + 0x4 * i
abbrev R.SERIAL (i : Nat) : Nat := 0x9000030 + 0x4 * i
abbrev R.CNT_SIGN : Nat := 0x9000040
abbrev R.CNT_AUTH_FAIL : Nat := 0x9000044
abbrev R.SEC_ERR : Nat := 0x9000048
abbrev R.AUTH_REF_LO (i : Nat) : Nat := 0x9000100 + 0x10 * i
abbrev R.AUTH_REF_HI (i : Nat) : Nat := 0x9000104 + 0x10 * i
abbrev R.AUTH_ROLES (i : Nat) : Nat := 0x9000108 + 0x10 * i
abbrev R.AUTH_SEQ (i : Nat) : Nat := 0x900010C + 0x10 * i
abbrev R.FW_PINNED_LO : Nat := 0xA000000
abbrev R.FW_PINNED_HI : Nat := 0xA000004
abbrev R.FW_ERR : Nat := 0xA000008
abbrev R.FW_VIOL_INFO : Nat := 0xA00000C
abbrev R.FW_VIOL_ADDR_LO : Nat := 0xA000010
abbrev R.FW_VIOL_ADDR_HI : Nat := 0xA000014
abbrev R.CNT_VIOL : Nat := 0xA000018
abbrev R.WIN_BASE_LO (i : Nat) : Nat := 0xA001000 + 0x10 * i
abbrev R.WIN_BASE_HI (i : Nat) : Nat := 0xA001004 + 0x10 * i
abbrev R.WIN_PAGES (i : Nat) : Nat := 0xA001008 + 0x10 * i
abbrev R.WIN_CTL (i : Nat) : Nat := 0xA00100C + 0x10 * i
abbrev R.EV_CTRL : Nat := 0x7000000
abbrev R.EV_STATE : Nat := 0x7000004
abbrev R.EV_SEQ : Nat := 0x7000008
abbrev R.KEEP_COUNT : Nat := 0x700000C
abbrev R.TUMBLE_FIRST : Nat := 0x7000010
abbrev R.TUMBLE_PAGES : Nat := 0x7000014
abbrev R.CLEAR_COUNT : Nat := 0x7000018
abbrev R.CNT_LOST : Nat := 0x700001C
abbrev R.CNT_TORN : Nat := 0x7000020
abbrev R.CNT_COALESCED : Nat := 0x7000024
abbrev R.CFG_STATE : Nat := 0x7000040
abbrev R.CFG_GEN : Nat := 0x7000044
abbrev R.CFG_SLOT (i : Nat) : Nat := 0x7000048 + 0x4 * i
abbrev R.OWNER_REF_LO : Nat := 0x7000050
abbrev R.OWNER_REF_HI : Nat := 0x7000054
abbrev R.CLK_STATUS : Nat := 0x28
abbrev R.SUP_STATUS : Nat := 0x2C

/-- The registers of the CHIP map. -/
def regRowsChip : List RegRow :=
  [⟨0x0, 0x0, 1, 0x0, 1, 1, .ro, 0xC1A508B1, 0x0, 0x0⟩,
   ⟨0x4, 0x0, 1, 0x0, 1, 1, .ro, 0x1FFFFF, 0x0, 0xFFE00000⟩,
   ⟨0x8, 0x0, 1, 0x0, 1, 1, .rwl, 0x0, 0x800007FF, 0x7FFFF800⟩,
   ⟨0xC, 0x0, 1, 0x0, 1, 1, .rwl, 0x0, 0x80001F3F, 0x7FFFE0C0⟩,
   ⟨0x10, 0x0, 1, 0x0, 1, 1, .ro, 0x0, 0x0, 0xFFFFFC88⟩,
   ⟨0x14, 0x0, 1, 0x0, 1, 1, .ro, 0x0, 0x0, 0xFF000000⟩,
   ⟨0x18, 0x0, 1, 0x0, 1, 1, .w1c, 0x0, 0x7, 0xFFFFFFF8⟩,
   ⟨0x1C, 0x0, 1, 0x0, 1, 1, .ro, 0x0, 0x0, 0x0⟩,
   ⟨0x20, 0x0, 1, 0x0, 1, 1, .ro, 0x0, 0x0, 0x0⟩,
   ⟨0x24, 0x0, 1, 0x0, 1, 1, .ro, 0x0, 0x0, 0xFC000000⟩,
   ⟨0x40, 0x0, 1, 0x4, 480, 1, .rw, 0x0, 0x800007FF, 0x7FFFF800⟩,
   ⟨0x28, 0x0, 1, 0x0, 1, 1, .w1c, 0x0, 0xC, 0xFFFFFFF0⟩,
   ⟨0x2C, 0x0, 1, 0x0, 1, 1, .w1c, 0x0, 0xC, 0xFFFFFFF0⟩]

/-- The registers of the PRESS map. -/
def regRowsPress : List RegRow :=
  [⟨0x10000000, 0x1000000, 8, 0x0, 1, 1, .ro, 0x0, 0x0, 0xFFFCFFC8⟩,
   ⟨0x10000004, 0x1000000, 8, 0x0, 1, 1, .wo, 0x0, 0x0, 0xFFFFFFF0⟩,
   ⟨0x10000008, 0x1000000, 8, 0x0, 1, 1, .rw, 0x514, 0x7FF, 0xFFFFF800⟩,
   ⟨0x1000000C, 0x1000000, 8, 0x0, 1, 1, .ro, 0x0, 0x0, 0xFFFF8800⟩,
   ⟨0x10000010, 0x1000000, 8, 0x0, 1, 1, .ro, 0x0, 0x0, 0x0⟩,
   ⟨0x10000014, 0x1000000, 8, 0x0, 1, 1, .ro, 0x0, 0x0, 0x0⟩,
   ⟨0x10000018, 0x1000000, 8, 0x0, 1, 1, .ro, 0x0, 0x0, 0x0⟩,
   ⟨0x1000001C, 0x1000000, 8, 0x0, 1, 1, .ro, 0x0, 0x0, 0x0⟩,
   ⟨0x10000020, 0x1000000, 8, 0x0, 1, 1, .ro, 0x0, 0x0, 0xFFFFFC00⟩,
   ⟨0x10000024, 0x1000000, 8, 0x0, 1, 1, .w1c, 0x0, 0x1FF, 0xFFFFFE00⟩,
   ⟨0x10000028, 0x1000000, 8, 0x0, 1, 1, .ro, 0x0, 0x0, 0x7FFFF000⟩,
   ⟨0x1000002C, 0x1000000, 8, 0x0, 1, 1, .ro, 0x0, 0x0, 0x3C000000⟩,
   ⟨0x10000030, 0x1000000, 8, 0x0, 1, 1, .ro, 0x0, 0x0, 0x0⟩,
   ⟨0x10000034, 0x1000000, 8, 0x0, 1, 1, .ro, 0x0, 0x0, 0x0⟩,
   ⟨0x10000038, 0x1000000, 8, 0x0, 1, 1, .ro, 0x0, 0x0, 0x0⟩,
   ⟨0x1000003C, 0x1000000, 8, 0x0, 1, 1, .ro, 0x0, 0x0, 0x0⟩,
   ⟨0x10000040, 0x1000000, 8, 0x0, 1, 1, .ro, 0x0, 0x0, 0x0⟩,
   ⟨0x10000044, 0x1000000, 8, 0x0, 1, 1, .rw, 0x3, 0x3, 0xFFFFFFFC⟩,
   ⟨0x10000048, 0x1000000, 8, 0x0, 1, 1, .ro, 0x0, 0x0, 0xFFFFF00C⟩,
   ⟨0x1000004C, 0x1000000, 8, 0x0, 1, 1, .ro, 0x0, 0x0, 0xFFFFFFE0⟩]

/-- The registers of the IRON map. -/
def regRowsIron : List RegRow :=
  [⟨0x10010000, 0x1000000, 8, 0x100, 24, 1, .ro, 0x0, 0x0, 0xFFFFFEF8⟩,
   ⟨0x10010004, 0x1000000, 8, 0x100, 24, 1, .ro, 0x0, 0x0, 0x7F000000⟩,
   ⟨0x10010008, 0x1000000, 8, 0x100, 24, 1, .ro, 0x0, 0x0, 0xFFFFFFE0⟩,
   ⟨0x1001000C, 0x1000000, 8, 0x100, 24, 1, .ro, 0x0, 0x0, 0x0⟩,
   ⟨0x10010010, 0x1000000, 8, 0x100, 24, 1, .ro, 0x0, 0x0, 0x0⟩,
   ⟨0x10010014, 0x1000000, 8, 0x100, 24, 1, .ro, 0x0, 0x0, 0xFFFF0000⟩,
   ⟨0x10010018, 0x1000000, 8, 0x100, 24, 1, .w1c, 0x0, 0x1F, 0xFFFFFFE0⟩]

/-- The registers of the ASSURE map. -/
def regRowsAssure : List RegRow :=
  [⟨0xB000000, 0x0, 1, 0x0, 1, 1, .rw, 0x0, 0x1F, 0xFFFFFFE0⟩,
   ⟨0xB000004, 0x0, 1, 0x0, 1, 1, .ro, 0x0, 0x0, 0xFFFFFFC0⟩,
   ⟨0xB000008, 0x0, 1, 0x0, 1, 1, .ro, 0x0, 0x0, 0x0⟩,
   ⟨0xB00000C, 0x0, 1, 0x0, 1, 1, .ro, 0x0, 0x0, 0x0⟩,
   ⟨0xB000010, 0x0, 1, 0x0, 1, 1, .rw, 0x8, 0x7F, 0xFFFFFF80⟩,
   ⟨0xB000014, 0x0, 1, 0x0, 1, 1, .rw, 0x927C0, 0xFFFFFFFF, 0x0⟩,
   ⟨0xB000018, 0x0, 1, 0x0, 1, 1, .rw, 0x5265C00, 0xFFFFFFFF, 0x0⟩,
   ⟨0xB00001C, 0x0, 1, 0x0, 1, 1, .rw, 0x0, 0x800007FF, 0x7FFFF800⟩,
   ⟨0xB000020, 0x0, 1, 0x0, 1, 1, .ro, 0x0, 0x0, 0xFFFFFE00⟩,
   ⟨0xB000024, 0x0, 1, 0x0, 1, 1, .ro, 0x0, 0x0, 0xFFFFFF00⟩,
   ⟨0xB000028, 0x0, 1, 0x0, 1, 1, .ro, 0x0, 0x0, 0x0⟩,
   ⟨0xB00002C, 0x0, 1, 0x0, 1, 1, .ro, 0x0, 0x0, 0xF800F800⟩,
   ⟨0xB000030, 0x0, 1, 0x0, 1, 1, .rwl, 0x0, 0x1FF01FF, 0xFE00FE00⟩,
   ⟨0xB000034, 0x0, 1, 0x0, 1, 1, .rwl, 0x0, 0x1FF01FF, 0xFE00FE00⟩,
   ⟨0xB000038, 0x0, 1, 0x0, 1, 1, .ro, 0x0, 0x0, 0xFFFE0000⟩,
   ⟨0xB000040, 0x0, 1, 0x4, 8, 1, .rw, 0x0, 0xFFFFF, 0xFFF00000⟩,
   ⟨0xB000060, 0x0, 1, 0x4, 8, 1, .rw, 0x0, 0x800007FF, 0x7FFFF800⟩,
   ⟨0xB001000, 0x0, 1, 0x200, 64, 128, .ro, 0x0, 0x0, 0x0⟩,
   ⟨0xB000100, 0x0, 1, 0x0, 1, 1, .ro, 0x0, 0x0, 0x0⟩,
   ⟨0xB000104, 0x0, 1, 0x0, 1, 1, .ro, 0x0, 0x0, 0x0⟩] ++
  [⟨0xB000108, 0x0, 1, 0x0, 1, 1, .ro, 0x0, 0x0, 0x0⟩,
   ⟨0xB00010C, 0x0, 1, 0x0, 1, 1, .ro, 0x0, 0x0, 0x0⟩,
   ⟨0xB000110, 0x0, 1, 0x0, 1, 1, .ro, 0x0, 0x0, 0x0⟩,
   ⟨0xB000114, 0x0, 1, 0x0, 1, 1, .ro, 0x0, 0x0, 0x0⟩,
   ⟨0xB000118, 0x0, 1, 0x0, 1, 1, .ro, 0x0, 0x0, 0x0⟩,
   ⟨0xB00011C, 0x0, 1, 0x0, 1, 1, .ro, 0x0, 0x0, 0x0⟩]

/-- The registers of the MEM map. -/
def regRowsMem : List RegRow :=
  [⟨0x20000000, 0x0, 1, 0x0, 1, 1, .ro, 0x0, 0x0, 0xFFFFF008⟩,
   ⟨0x20000004, 0x0, 1, 0x0, 1, 1, .rwl, 0x0, 0x1, 0xFFFFFFFE⟩,
   ⟨0x20000008, 0x0, 1, 0x0, 1, 1, .rw, 0x0, 0x1, 0xFFFFFFFE⟩,
   ⟨0x2000000C, 0x0, 1, 0x0, 1, 1, .rw, 0x18, 0x800000FF, 0x7FFFFF00⟩,
   ⟨0x20000010, 0x0, 1, 0x0, 1, 1, .rwl, 0x0, 0x3FFFFF, 0xFFC00000⟩,
   ⟨0x20000014, 0x0, 1, 0x0, 1, 1, .rwl, 0x0, 0xFFF, 0xFFFFF000⟩,
   ⟨0x20000018, 0x0, 1, 0x0, 1, 1, .ro, 0x0, 0x0, 0x0⟩,
   ⟨0x20000020, 0x0, 1, 0x8, 8, 1, .rwl, 0x0, 0x1FF, 0xFFFFFE00⟩,
   ⟨0x20000024, 0x0, 1, 0x8, 8, 1, .rwl, 0x0, 0xFFF00FFF, 0xFF000⟩,
   ⟨0x20000100, 0x0, 1, 0x40, 4, 1, .ro, 0x0, 0x0, 0xFF8FC⟩,
   ⟨0x20000104, 0x0, 1, 0x40, 4, 1, .ro, 0x0, 0x0, 0x0⟩,
   ⟨0x20000108, 0x0, 1, 0x40, 4, 1, .ro, 0x0, 0x0, 0x0⟩,
   ⟨0x2000010C, 0x0, 1, 0x40, 4, 1, .ro, 0x0, 0x0, 0x0⟩,
   ⟨0x20000110, 0x0, 1, 0x40, 4, 1, .ro, 0x0, 0x0, 0x0⟩,
   ⟨0x20000114, 0x0, 1, 0x40, 4, 1, .ro, 0x0, 0x0, 0x0⟩,
   ⟨0x20000118, 0x0, 1, 0x40, 4, 1, .ro, 0x0, 0x0, 0xFFFFFFF0⟩,
   ⟨0x2000011C, 0x0, 1, 0x40, 4, 1, .ro, 0x0, 0x0, 0xFFFF0000⟩,
   ⟨0x20001000, 0x0, 1, 0x10, 16, 4, .ro, 0x0, 0x0, 0x0⟩]

/-- The registers of the GHEP map. -/
def regRowsGhep : List RegRow :=
  [⟨0x30000000, 0x100000, 12, 0x0, 1, 1, .rw, 0x1, 0xD, 0xFFFFFFF0⟩,
   ⟨0x30000004, 0x100000, 12, 0x0, 1, 1, .ro, 0x0, 0x0, 0xFFFEF0F0⟩,
   ⟨0x30000008, 0x100000, 12, 0x0, 1, 1, .ro, 0x0, 0x0, 0xF800⟩,
   ⟨0x3000000C, 0x100000, 12, 0x0, 1, 1, .w1c, 0x0, 0x1F, 0xFFFFFFE0⟩,
   ⟨0x30000010, 0x100000, 12, 0x4, 4, 1, .ro, 0x0, 0x0, 0xFFFE00FE⟩,
   ⟨0x30000020, 0x100000, 12, 0x0, 1, 1, .ro, 0x0, 0x0, 0x0⟩,
   ⟨0x30000024, 0x100000, 12, 0x0, 1, 1, .ro, 0x0, 0x0, 0x0⟩,
   ⟨0x30000028, 0x100000, 12, 0x0, 1, 1, .ro, 0x0, 0x0, 0x0⟩,
   ⟨0x3000002C, 0x100000, 12, 0x0, 1, 1, .ro, 0x0, 0x0, 0x0⟩,
   ⟨0x30000030, 0x100000, 12, 0x0, 1, 1, .ro, 0x0, 0x0, 0x0⟩,
   ⟨0x30000034, 0x100000, 12, 0x0, 1, 1, .ro, 0x0, 0x0, 0x0⟩,
   ⟨0x30000038, 0x100000, 12, 0x0, 1, 1, .ro, 0x0, 0x0, 0xFFFF0000⟩,
   ⟨0x3000003C, 0x100000, 12, 0x0, 1, 1, .rw, 0xF, 0xF, 0xFFFFFFF0⟩,
   ⟨0x30000040, 0x100000, 12, 0x0, 1, 1, .rw, 0x0, 0x8000FFFF, 0x7FFF0000⟩,
   ⟨0x30000044, 0x100000, 12, 0x0, 1, 1, .ro, 0x0, 0x0, 0x0⟩,
   ⟨0x30000060, 0x100000, 12, 0x4, 8, 1, .ro, 0x0, 0x0, 0xFFFFFE00⟩]

/-- The registers of the TORUS map. -/
def regRowsTorus : List RegRow :=
  [⟨0x30880000, 0x0, 1, 0x0, 1, 1, .rw, 0x1, 0x1, 0xFFFFFFFE⟩,
   ⟨0x30880004, 0x0, 1, 0x0, 1, 1, .ro, 0x0, 0x0, 0x0⟩,
   ⟨0x30880008, 0x0, 1, 0x0, 1, 1, .ro, 0x0, 0x0, 0x0⟩,
   ⟨0x3088000C, 0x0, 1, 0x0, 1, 1, .ro, 0x0, 0x0, 0x0⟩,
   ⟨0x30880010, 0x0, 1, 0x0, 1, 1, .ro, 0x0, 0x0, 0x0⟩,
   ⟨0x30881000, 0x0, 1, 0x4, 128, 1, .ro, 0xFFFFFFFF, 0x0, 0x0⟩]

/-- The registers of the SUORTA map. -/
def regRowsSuorta : List RegRow :=
  [⟨0x38000000, 0x0, 1, 0x0, 1, 1, .rw, 0x1, 0x5, 0xFFFFFFF8⟩,
   ⟨0x38000004, 0x0, 1, 0x0, 1, 1, .ro, 0x0, 0x0, 0xFFF0⟩,
   ⟨0x38000008, 0x0, 1, 0x0, 1, 1, .w1c, 0x0, 0x1F, 0xFFFFFFE0⟩,
   ⟨0x3800000C, 0x0, 1, 0x0, 1, 1, .rw, 0x0, 0x80000000, 0x3FFFFFFF⟩,
   ⟨0x38000010, 0x0, 1, 0x0, 1, 1, .rwl, 0x0, 0x7FF, 0xFFFFF800⟩,
   ⟨0x38000014, 0x0, 1, 0x0, 1, 1, .rwl, 0x0, 0xFFF, 0xFFFFF000⟩,
   ⟨0x38000018, 0x0, 1, 0x0, 1, 1, .rwl, 0x0, 0x7F01FF, 0xFF80FE00⟩,
   ⟨0x3800001C, 0x0, 1, 0x0, 1, 1, .rw, 0x1FE, 0x1FE, 0xFFFFFE01⟩,
   ⟨0x38000020, 0x0, 1, 0x0, 1, 1, .ro, 0x0, 0x0, 0xFFFFFE01⟩,
   ⟨0x38000040, 0x0, 1, 0x4, 16, 1, .ro, 0x0, 0x0, 0xFFFE00FE⟩,
   ⟨0x38000080, 0x0, 1, 0x0, 1, 1, .ro, 0x0, 0x0, 0x0⟩,
   ⟨0x38000084, 0x0, 1, 0x0, 1, 1, .ro, 0x0, 0x0, 0x0⟩,
   ⟨0x38000088, 0x0, 1, 0x0, 1, 1, .ro, 0x0, 0x0, 0x0⟩,
   ⟨0x3800008C, 0x0, 1, 0x0, 1, 1, .ro, 0x0, 0x0, 0x0⟩,
   ⟨0x38000090, 0x0, 1, 0x0, 1, 1, .ro, 0x0, 0x0, 0x0⟩,
   ⟨0x38000094, 0x0, 1, 0x0, 1, 1, .ro, 0x0, 0x0, 0x0⟩,
   ⟨0x38000098, 0x0, 1, 0x0, 1, 1, .ro, 0x0, 0x0, 0x0⟩,
   ⟨0x3800009C, 0x0, 1, 0x0, 1, 1, .ro, 0x0, 0x0, 0x0⟩,
   ⟨0x380000A0, 0x0, 1, 0x0, 1, 1, .ro, 0x0, 0x0, 0x0⟩,
   ⟨0x380000A4, 0x0, 1, 0x0, 1, 1, .ro, 0x0, 0x0, 0x0⟩] ++
  [⟨0x380000C0, 0x0, 1, 0x4, 6, 1, .ro, 0x0, 0x0, 0xFFFF0000⟩]

/-- The registers of the MBX map. -/
def regRowsMbx : List RegRow :=
  [⟨0x8000000, 0x0, 1, 0x40, 16, 1, .wo, 0x0, 0x0, 0xFFFFFFF8⟩,
   ⟨0x8000004, 0x0, 1, 0x40, 16, 1, .ro, 0x0, 0x0, 0xFFFFFEC8⟩,
   ⟨0x8000008, 0x0, 1, 0x40, 16, 1, .rw, 0x0, 0x1, 0xFFFFFFFE⟩,
   ⟨0x800000C, 0x0, 1, 0x40, 16, 1, .ro, 0x302, 0x0, 0xFFFF0000⟩,
   ⟨0x8000010, 0x0, 1, 0x40, 16, 1, .w1c, 0x0, 0x3, 0xFFFFFFFC⟩,
   ⟨0x8000014, 0x0, 1, 0x40, 16, 1, .ro, 0x0, 0x0, 0x0⟩,
   ⟨0x8000800, 0x0, 1, 0x0, 1, 1, .ro, 0x0, 0x0, 0xFFFF0000⟩,
   ⟨0x8000804, 0x0, 1, 0x0, 1, 1, .ro, 0x0, 0x0, 0xFFFF0000⟩,
   ⟨0x8000808, 0x0, 1, 0x0, 1, 1, .ro, 0x0, 0x0, 0x0⟩,
   ⟨0x800080C, 0x0, 1, 0x0, 1, 1, .ro, 0x0, 0x0, 0xFFFF0000⟩]

/-- The registers of the STITCH map. -/
def regRowsStitch : List RegRow :=
  [⟨0x2000000, 0x0, 1, 0x0, 1, 1, .ro, 0x0, 0x0, 0xFFF8⟩,
   ⟨0x2000004, 0x0, 1, 0x0, 1, 1, .rwl, 0x1F40000, 0xFFFF0001, 0xFFFE⟩,
   ⟨0x2000008, 0x0, 1, 0x0, 1, 1, .ro, 0x0, 0x0, 0x7FFFE000⟩,
   ⟨0x200000C, 0x0, 1, 0x0, 1, 1, .rw, 0x0, 0x1FE, 0xFFFFFE01⟩,
   ⟨0x2000010, 0x0, 1, 0x0, 1, 1, .ro, 0x0, 0x0, 0x0⟩,
   ⟨0x2000014, 0x0, 1, 0x0, 1, 1, .w1c, 0x0, 0x17, 0xFFFFFFE0⟩,
   ⟨0x2000018, 0x0, 1, 0x0, 1, 1, .ro, 0x0, 0x0, 0x0⟩,
   ⟨0x200001C, 0x0, 1, 0x0, 1, 1, .ro, 0x0, 0x0, 0xFE00FE00⟩,
   ⟨0x2000040, 0x0, 1, 0x4, 16, 1, .ro, 0x0, 0x0, 0x8000⟩,
   ⟨0x2000100, 0x0, 1, 0x4, 256, 1, .ro, 0x0, 0x0, 0xC0F8⟩,
   ⟨0x2000800, 0x0, 1, 0x4, 64, 1, .ro, 0x0, 0x0, 0x0⟩,
   ⟨0x2001000, 0x0, 1, 0x20, 256, 8, .ro, 0x0, 0x0, 0x0⟩,
   ⟨0x2004000, 0x0, 1, 0x8, 4096, 2, .ro, 0x0, 0x0, 0x0⟩]

/-- The registers of the METER map. -/
def regRowsMeter : List RegRow :=
  [⟨0x3000000, 0x0, 1, 0x0, 1, 1, .rw, 0x3, 0x3, 0xFFFFFFFC⟩,
   ⟨0x3000004, 0x0, 1, 0x0, 1, 1, .ro, 0x0, 0x0, 0xFFFE⟩,
   ⟨0x3000008, 0x0, 1, 0x0, 1, 1, .ro, 0x0, 0x0, 0x0⟩,
   ⟨0x300000C, 0x0, 1, 0x0, 1, 1, .rwl, 0x3C, 0xFFFF, 0xFFFF0000⟩,
   ⟨0x3000010, 0x0, 1, 0x0, 1, 1, .rwl, 0x0, 0x1, 0xFFFFFFFE⟩,
   ⟨0x3000014, 0x0, 1, 0x0, 1, 1, .ro, 0x0, 0x0, 0xFFF0⟩,
   ⟨0x3000018, 0x0, 1, 0x0, 1, 1, .ro, 0x0, 0x0, 0x0⟩,
   ⟨0x300001C, 0x0, 1, 0x0, 1, 1, .ro, 0x0, 0x0, 0x0⟩,
   ⟨0x3000020, 0x0, 1, 0x4, 8, 1, .rwl, 0x0, 0x800007FF, 0x7FFFF800⟩,
   ⟨0x3000040, 0x0, 1, 0x0, 1, 1, .rwl, 0x64000A, 0xFFFFFFFF, 0x0⟩,
   ⟨0x3000044, 0x0, 1, 0x0, 1, 1, .rwl, 0x3C0064, 0xFFFFFFFF, 0x0⟩,
   ⟨0x3000048, 0x0, 1, 0x0, 1, 1, .ro, 0x0, 0x0, 0xFFFE0000⟩,
   ⟨0x300004C, 0x0, 1, 0x0, 1, 1, .ro, 0x0, 0x0, 0x3FF80000⟩,
   ⟨0x3000050, 0x0, 1, 0x0, 1, 1, .ro, 0x0, 0x0, 0x0⟩,
   ⟨0x3000054, 0x0, 1, 0x0, 1, 1, .ro, 0x0, 0x0, 0x0⟩,
   ⟨0x3000058, 0x0, 1, 0x0, 1, 1, .ro, 0x0, 0x0, 0x0⟩,
   ⟨0x300005C, 0x0, 1, 0x0, 1, 1, .ro, 0x0, 0x0, 0x0⟩,
   ⟨0x3000060, 0x0, 1, 0x0, 1, 1, .ro, 0x0, 0x0, 0x0⟩,
   ⟨0x3000064, 0x0, 1, 0x0, 1, 1, .ro, 0x0, 0x0, 0x0⟩,
   ⟨0x3000068, 0x0, 1, 0x0, 1, 1, .ro, 0x0, 0x0, 0x0⟩] ++
  [⟨0x300006C, 0x0, 1, 0x0, 1, 1, .ro, 0x0, 0x0, 0x0⟩,
   ⟨0x3000070, 0x0, 1, 0x0, 1, 1, .ro, 0x0, 0x0, 0x0⟩,
   ⟨0x3000074, 0x0, 1, 0x0, 1, 1, .ro, 0x0, 0x0, 0x0⟩,
   ⟨0x3000078, 0x0, 1, 0x0, 1, 1, .ro, 0x0, 0x0, 0x0⟩,
   ⟨0x300007C, 0x0, 1, 0x0, 1, 1, .ro, 0x0, 0x0, 0x0⟩,
   ⟨0x3000080, 0x0, 1, 0x0, 1, 1, .ro, 0x0, 0x0, 0x0⟩,
   ⟨0x3004000, 0x0, 1, 0x20, 256, 1, .rwl, 0x0, 0x7F, 0xFFFFFF80⟩,
   ⟨0x3004004, 0x0, 1, 0x20, 256, 1, .rwl, 0x0, 0xFFFFFFFF, 0x0⟩,
   ⟨0x3004008, 0x0, 1, 0x20, 256, 1, .rwl, 0x0, 0xFFFF, 0xFFFF0000⟩,
   ⟨0x3004010, 0x0, 1, 0x20, 256, 1, .ro, 0x0, 0x0, 0x0⟩,
   ⟨0x3004014, 0x0, 1, 0x20, 256, 1, .ro, 0x0, 0x0, 0x0⟩,
   ⟨0x3004018, 0x0, 1, 0x20, 256, 1, .ro, 0x0, 0x0, 0x0⟩,
   ⟨0x300401C, 0x0, 1, 0x20, 256, 1, .ro, 0x0, 0x0, 0x0⟩,
   ⟨0x3008000, 0x0, 1, 0x8, 512, 2, .ro, 0x0, 0x0, 0x0⟩]

/-- The registers of the BUDGET map. -/
def regRowsBudget : List RegRow :=
  [⟨0x1000, 0x0, 1, 0x0, 1, 1, .ro, 0x0, 0x0, 0xFF0000E0⟩,
   ⟨0x1004, 0x0, 1, 0x0, 1, 1, .ro, 0x0, 0x0, 0x0⟩,
   ⟨0x1008, 0x0, 1, 0x0, 1, 1, .rw, 0x80000005, 0x800000FF, 0x7FFFFF00⟩,
   ⟨0x100C, 0x0, 1, 0x0, 1, 1, .rwl, 0x3E80064, 0xFFFFFFFF, 0x0⟩,
   ⟨0x1010, 0x0, 1, 0x0, 1, 1, .rwl, 0x0, 0xFFFFFFFF, 0x0⟩,
   ⟨0x1014, 0x0, 1, 0x0, 1, 1, .rwl, 0x0, 0xFFFFFFFF, 0x0⟩,
   ⟨0x1018, 0x0, 1, 0x0, 1, 1, .rwl, 0x0, 0xFFFF, 0xFFFF0000⟩,
   ⟨0x101C, 0x0, 1, 0x0, 1, 1, .rwl, 0x0, 0x800007FF, 0x7FFFF800⟩,
   ⟨0x1020, 0x0, 1, 0x0, 1, 1, .ro, 0x0, 0x0, 0x0⟩,
   ⟨0x1024, 0x0, 1, 0x0, 1, 1, .ro, 0x0, 0x0, 0x0⟩,
   ⟨0x1028, 0x0, 1, 0x0, 1, 1, .ro, 0x0, 0x0, 0x0⟩,
   ⟨0x102C, 0x0, 1, 0x0, 1, 1, .ro, 0x0, 0x0, 0x0⟩,
   ⟨0x1030, 0x0, 1, 0x0, 1, 1, .ro, 0x0, 0x0, 0x0⟩,
   ⟨0x1034, 0x0, 1, 0x0, 1, 1, .ro, 0x0, 0x0, 0x0⟩,
   ⟨0x1038, 0x0, 1, 0x0, 1, 1, .ro, 0x0, 0x0, 0x0⟩,
   ⟨0x1040, 0x0, 1, 0x4, 9, 1, .rw, 0x0, 0xFFFFFFFF, 0x0⟩,
   ⟨0x1080, 0x0, 1, 0x4, 8, 1, .ro, 0x0, 0x0, 0xFFFF0000⟩,
   ⟨0x10A0, 0x0, 1, 0x4, 9, 1, .rwl, 0x0, 0xFFFFFFFF, 0x0⟩,
   ⟨0x10D0, 0x0, 1, 0x4, 9, 1, .rwl, 0x1, 0xFF, 0xFFFFFF00⟩,
   ⟨0x1100, 0x0, 1, 0x4, 9, 1, .ro, 0x0, 0x0, 0xFFFF0000⟩] ++
  [⟨0x1140, 0x0, 1, 0x4, 8, 1, .ro, 0x0, 0x0, 0x0⟩]

/-- The registers of the COOL map. -/
def regRowsCool : List RegRow :=
  [⟨0x4000000, 0x0, 1, 0x0, 1, 1, .rwl, 0x69, 0xFF, 0xFFFFFF00⟩,
   ⟨0x4000004, 0x0, 1, 0x0, 1, 1, .ro, 0x0, 0x0, 0x0⟩,
   ⟨0x4000008, 0x0, 1, 0x0, 1, 1, .ro, 0x8278, 0x0, 0xFE0000⟩,
   ⟨0x400000C, 0x0, 1, 0x0, 1, 1, .ro, 0x0, 0x0, 0xFFFF0000⟩,
   ⟨0x4000010, 0x0, 1, 0x4, 3, 1, .ro, 0x0, 0x0, 0x0⟩,
   ⟨0x4000040, 0x0, 1, 0x4, 16, 1, .ro, 0x0, 0x0, 0xFF000000⟩,
   ⟨0x4000100, 0x0, 1, 0x4, 96, 1, .ro, 0x0, 0x0, 0xFFF00000⟩,
   ⟨0x4000300, 0x0, 1, 0x4, 16, 1, .ro, 0x0, 0x0, 0xFFFE0000⟩,
   ⟨0x4000340, 0x0, 1, 0x4, 16, 1, .rwl, 0x0, 0x8FFFFFFF, 0x70000000⟩,
   ⟨0x4000380, 0x0, 1, 0x4, 32, 1, .ro, 0x0, 0x0, 0xFFFE0000⟩,
   ⟨0x4000400, 0x0, 1, 0x4, 32, 1, .rwl, 0x0, 0xB7FFFFFF, 0x48000000⟩,
   ⟨0x4000480, 0x0, 1, 0x4, 8, 1, .rwl, 0x5F, 0xFF, 0xFFFFFF00⟩,
   ⟨0x4001000, 0x0, 1, 0x0, 1, 1, .ro, 0x1, 0x0, 0xFFFFFFF0⟩,
   ⟨0x4001004, 0x0, 1, 0x0, 1, 1, .rw, 0x64, 0xFF, 0x3FFFFF00⟩,
   ⟨0x4001008, 0x0, 1, 0x0, 1, 1, .ro, 0x0, 0x0, 0x0⟩,
   ⟨0x400100C, 0x0, 1, 0x0, 1, 1, .rwl, 0x2B9, 0xFFFF, 0xFFFF0000⟩,
   ⟨0x4001010, 0x0, 1, 0x0, 1, 1, .rwl, 0x32, 0xFF, 0xFFFFFF00⟩,
   ⟨0x4001014, 0x0, 1, 0x0, 1, 1, .rwl, 0x0, 0xFFFFFFFF, 0x0⟩,
   ⟨0x4002000, 0x0, 1, 0x20, 32, 1, .rwl, 0xFF0004, 0xFFFFFFFC, 0x0⟩,
   ⟨0x4002400, 0x0, 1, 0x20, 8, 1, .rwl, 0xFF0005, 0xFFFFFFFC, 0x0⟩] ++
  [⟨0x4002500, 0x0, 1, 0x20, 16, 1, .rwl, 0xFF0006, 0xFFFFFFFC, 0x0⟩,
   ⟨0x4002004, 0x0, 1, 0x20, 56, 1, .rwl, 0x0, 0xFFFFFFFF, 0x0⟩,
   ⟨0x4002008, 0x0, 1, 0x20, 56, 1, .rwl, 0x0, 0xFFFFFFFF, 0x0⟩,
   ⟨0x400200C, 0x0, 1, 0x20, 56, 1, .rw, 0x6400, 0xFF, 0xFFF80000⟩,
   ⟨0x4002010, 0x0, 1, 0x20, 56, 1, .ro, 0x0, 0x0, 0x0⟩,
   ⟨0x4002014, 0x0, 1, 0x20, 56, 1, .ro, 0x0, 0x0, 0xFFFF0000⟩,
   ⟨0x4002018, 0x0, 1, 0x20, 56, 1, .w1c, 0x0, 0x1, 0xFFFFFFFC⟩,
   ⟨0x4003000, 0x0, 1, 0x10, 16, 1, .rwl, 0x0, 0x87FFFFFF, 0x78000000⟩,
   ⟨0x4003004, 0x0, 1, 0x10, 16, 1, .ro, 0x0, 0x0, 0xFFFF0000⟩,
   ⟨0x4003008, 0x0, 1, 0x10, 16, 1, .w1c, 0x0, 0x1, 0xFFFFFFFC⟩]

/-- The registers of the LEAK map. -/
def regRowsLeak : List RegRow :=
  [⟨0x5000000, 0x0, 1, 0x0, 1, 1, .ro, 0x0, 0x0, 0x0⟩,
   ⟨0x5000004, 0x0, 1, 0x0, 1, 1, .rwl, 0x7D000C8, 0xFFFFFFFF, 0x0⟩,
   ⟨0x5000008, 0x0, 1, 0x0, 1, 1, .ro, 0x0, 0x0, 0x0⟩,
   ⟨0x500000C, 0x0, 1, 0x0, 1, 1, .ro, 0x0, 0x0, 0xFFFF0000⟩,
   ⟨0x5000010, 0x0, 1, 0x0, 1, 1, .ro, 0x0, 0x0, 0x0⟩,
   ⟨0x5000014, 0x0, 1, 0x0, 1, 1, .ro, 0x0, 0x0, 0xFFFF0000⟩,
   ⟨0x5000100, 0x0, 1, 0x4, 48, 1, .rwl, 0x0, 0x8000001F, 0x7FFFFFE0⟩,
   ⟨0x5000200, 0x0, 1, 0x4, 48, 1, .ro, 0x0, 0x0, 0x0⟩,
   ⟨0x5000300, 0x0, 1, 0x4, 16, 1, .rwl, 0x10000, 0x101FF, 0xFFFEFE00⟩]

/-- The registers of the TW map. -/
def regRowsTw : List RegRow :=
  [⟨0x6000000, 0x10000, 30, 0x0, 1, 1, .rw, 0x0, 0xEF, 0xFFFFFF10⟩,
   ⟨0x61E0000, 0x10000, 2, 0x0, 1, 1, .rw, 0x43, 0xEF, 0xFFFFFF10⟩,
   ⟨0x6000004, 0x10000, 32, 0x0, 1, 1, .rw, 0x51E19, 0xFFFFFF, 0xFF000000⟩,
   ⟨0x6000008, 0x10000, 32, 0x0, 1, 1, .rw, 0xA19, 0xFFFFFFFF, 0x0⟩,
   ⟨0x600000C, 0x10000, 30, 0x0, 1, 1, .rwl, 0x5F00, 0x80007F7F, 0x7FFF8080⟩,
   ⟨0x61E000C, 0x10000, 2, 0x0, 1, 1, .rwl, 0x80005F1C, 0x80007F7F, 0x7FFF8080⟩,
   ⟨0x6000010, 0x10000, 32, 0x0, 1, 1, .ro, 0x0, 0x0, 0xFFFCF8F8⟩,
   ⟨0x6000014, 0x10000, 32, 0x0, 1, 1, .w1c, 0x0, 0x7F, 0xFFFFFF80⟩,
   ⟨0x6000018, 0x10000, 32, 0x0, 1, 1, .rw, 0x0, 0xE0FFFF7F, 0x1F000080⟩,
   ⟨0x600001C, 0x10000, 32, 0x0, 1, 1, .ro, 0x0, 0x0, 0x7FFF00F0⟩,
   ⟨0x6000020, 0x10000, 32, 0x0, 1, 1, .wo, 0x0, 0x0, 0xFFFFFFFE⟩,
   ⟨0x6000024, 0x10000, 32, 0x0, 1, 1, .w1c, 0x0, 0x10000, 0xFFFEFE00⟩,
   ⟨0x6000040, 0x10000, 32, 0x0, 1, 1, .ro, 0x0, 0x0, 0x0⟩,
   ⟨0x6000044, 0x10000, 32, 0x0, 1, 1, .ro, 0x0, 0x0, 0x0⟩,
   ⟨0x6000048, 0x10000, 32, 0x0, 1, 1, .ro, 0x0, 0x0, 0x0⟩,
   ⟨0x600004C, 0x10000, 32, 0x0, 1, 1, .ro, 0x0, 0x0, 0x0⟩,
   ⟨0x6000050, 0x10000, 32, 0x0, 1, 1, .ro, 0x0, 0x0, 0x0⟩,
   ⟨0x6000054, 0x10000, 32, 0x0, 1, 1, .ro, 0x0, 0x0, 0x0⟩,
   ⟨0x6000058, 0x10000, 32, 0x0, 1, 1, .ro, 0x0, 0x0, 0x0⟩,
   ⟨0x600005C, 0x10000, 32, 0x0, 1, 1, .ro, 0x0, 0x0, 0x0⟩] ++
  [⟨0x6000100, 0x10000, 32, 0x0, 1, 64, .rw, 0x0, 0xFFFFFFFF, 0x0⟩,
   ⟨0x6000200, 0x10000, 32, 0x0, 1, 64, .ro, 0x0, 0x0, 0x0⟩,
   ⟨0x6000300, 0x10000, 32, 0x0, 1, 64, .ro, 0x0, 0x0, 0x0⟩,
   ⟨0x6000400, 0x10000, 32, 0x0, 1, 64, .rw, 0x0, 0xFFFFFFFF, 0x0⟩]

/-- The registers of the AON map. -/
def regRowsAon : List RegRow :=
  [⟨0x1000000, 0x0, 1, 0x0, 1, 1, .ro, 0x7FF, 0x0, 0xFFFFF800⟩,
   ⟨0x1000004, 0x0, 1, 0x0, 1, 1, .ro, 0x0, 0x0, 0xFFFFF800⟩,
   ⟨0x1000008, 0x0, 1, 0x0, 1, 1, .rw, 0xA, 0xFF, 0xFFFFFF00⟩,
   ⟨0x100000C, 0x0, 1, 0x0, 1, 1, .wo, 0x0, 0x0, 0xFFFFF800⟩,
   ⟨0x1000010, 0x0, 1, 0x0, 1, 1, .ro, 0x0, 0x0, 0xFFFFFFF0⟩,
   ⟨0x1000014, 0x0, 1, 0x0, 1, 1, .ro, 0x0, 0x0, 0x7FFEF800⟩,
   ⟨0x1000018, 0x0, 1, 0x0, 1, 1, .ro, 0x0, 0x0, 0x0⟩,
   ⟨0x100001C, 0x0, 1, 0x0, 1, 1, .ro, 0x0, 0x0, 0x0⟩,
   ⟨0x1000020, 0x0, 1, 0x0, 1, 1, .ro, 0x0, 0x0, 0x0⟩,
   ⟨0x1000030, 0x0, 1, 0x0, 1, 1, .ro, 0x3840384, 0x0, 0x0⟩,
   ⟨0x1000034, 0x0, 1, 0x0, 1, 1, .ro, 0x6400640, 0x0, 0x0⟩,
   ⟨0x1000038, 0x0, 1, 0x0, 1, 1, .ro, 0x780078, 0x0, 0x0⟩,
   ⟨0x100003C, 0x0, 1, 0x0, 1, 1, .ro, 0x0, 0x0, 0xFC00⟩,
   ⟨0x1000080, 0x0, 1, 0x4, 11, 1, .ro, 0x0, 0x0, 0xFCFEFC⟩,
   ⟨0x10000C0, 0x0, 1, 0x4, 11, 1, .ro, 0x0, 0x0, 0x0⟩]

/-- The registers of the SEC map. -/
def regRowsSec : List RegRow :=
  [⟨0x9000000, 0x0, 1, 0x0, 1, 1, .ro, 0x0, 0x0, 0xFFFFFCF8⟩,
   ⟨0x9000004, 0x0, 1, 0x0, 1, 1, .ro, 0x0, 0x0, 0xFFFFF800⟩,
   ⟨0x9000008, 0x0, 1, 0x0, 1, 1, .ro, 0x0, 0x0, 0x0⟩,
   ⟨0x900000C, 0x0, 1, 0x0, 1, 1, .ro, 0x0, 0x0, 0xFFFFFFE0⟩,
   ⟨0x9000010, 0x0, 1, 0x4, 8, 1, .ro, 0x0, 0x0, 0x0⟩,
   ⟨0x9000030, 0x0, 1, 0x4, 4, 1, .ro, 0x0, 0x0, 0x0⟩,
   ⟨0x9000040, 0x0, 1, 0x0, 1, 1, .ro, 0x0, 0x0, 0x0⟩,
   ⟨0x9000044, 0x0, 1, 0x0, 1, 1, .ro, 0x0, 0x0, 0x0⟩,
   ⟨0x9000048, 0x0, 1, 0x0, 1, 1, .ro, 0x0, 0x0, 0xFFFFFFF0⟩,
   ⟨0x9000100, 0x0, 1, 0x10, 16, 1, .ro, 0x0, 0x0, 0x0⟩,
   ⟨0x9000104, 0x0, 1, 0x10, 16, 1, .ro, 0x0, 0x0, 0x0⟩,
   ⟨0x9000108, 0x0, 1, 0x10, 16, 1, .ro, 0x0, 0x0, 0x7FFFFFF8⟩,
   ⟨0x900010C, 0x0, 1, 0x10, 16, 1, .ro, 0x0, 0x0, 0x0⟩]

/-- The registers of the FWALL map. -/
def regRowsFwall : List RegRow :=
  [⟨0xA000000, 0x0, 1, 0x0, 1, 1, .ro, 0x0, 0x0, 0x0⟩,
   ⟨0xA000004, 0x0, 1, 0x0, 1, 1, .ro, 0x0, 0x0, 0xFFFFFFE0⟩,
   ⟨0xA000008, 0x0, 1, 0x0, 1, 1, .w1c, 0x0, 0x1, 0xFFFFFFFE⟩,
   ⟨0xA00000C, 0x0, 1, 0x0, 1, 1, .ro, 0x0, 0x0, 0x6000FFC0⟩,
   ⟨0xA000010, 0x0, 1, 0x0, 1, 1, .ro, 0x0, 0x0, 0x0⟩,
   ⟨0xA000014, 0x0, 1, 0x0, 1, 1, .ro, 0x0, 0x0, 0x0⟩,
   ⟨0xA000018, 0x0, 1, 0x0, 1, 1, .ro, 0x0, 0x0, 0x0⟩,
   ⟨0xA001000, 0x0, 1, 0x10, 592, 1, .rwl, 0x0, 0xFFFFF000, 0xFFF⟩,
   ⟨0xA001004, 0x0, 1, 0x10, 592, 1, .rwl, 0x0, 0xFFFF, 0xFFFF0000⟩,
   ⟨0xA001008, 0x0, 1, 0x10, 592, 1, .rwl, 0x0, 0xFFFFFFFF, 0x0⟩,
   ⟨0xA00100C, 0x0, 1, 0x10, 592, 1, .rwl, 0x0, 0x80000003, 0x7FFFFFFC⟩]

/-- The registers of the EVREC map. -/
def regRowsEvrec : List RegRow :=
  [⟨0x7000000, 0x0, 1, 0x0, 1, 1, .rwl, 0x1, 0x1, 0xFFFFFFFE⟩,
   ⟨0x7000004, 0x0, 1, 0x0, 1, 1, .ro, 0x0, 0x0, 0x1FFFFF80⟩,
   ⟨0x7000008, 0x0, 1, 0x0, 1, 1, .ro, 0x0, 0x0, 0x0⟩,
   ⟨0x700000C, 0x0, 1, 0x0, 1, 1, .ro, 0x0, 0x0, 0xFFFFE000⟩,
   ⟨0x7000010, 0x0, 1, 0x0, 1, 1, .ro, 0x0, 0x0, 0x0⟩,
   ⟨0x7000014, 0x0, 1, 0x0, 1, 1, .ro, 0x0, 0x0, 0xFFFFF000⟩,
   ⟨0x7000018, 0x0, 1, 0x0, 1, 1, .ro, 0x0, 0x0, 0x0⟩,
   ⟨0x700001C, 0x0, 1, 0x0, 1, 1, .ro, 0x0, 0x0, 0x0⟩,
   ⟨0x7000020, 0x0, 1, 0x0, 1, 1, .ro, 0x0, 0x0, 0x0⟩,
   ⟨0x7000024, 0x0, 1, 0x0, 1, 1, .ro, 0x0, 0x0, 0x0⟩,
   ⟨0x7000040, 0x0, 1, 0x0, 1, 1, .ro, 0x0, 0x0, 0xCFCF0F0⟩,
   ⟨0x7000044, 0x0, 1, 0x0, 1, 1, .ro, 0x0, 0x0, 0x0⟩,
   ⟨0x7000048, 0x0, 1, 0x4, 2, 1, .ro, 0x0, 0x0, 0x0⟩,
   ⟨0x7000050, 0x0, 1, 0x0, 1, 1, .ro, 0x0, 0x0, 0x0⟩,
   ⟨0x7000054, 0x0, 1, 0x0, 1, 1, .ro, 0x0, 0x0, 0x0⟩]

/-- Whether a row names the word at `off`. -/
def RegRow.holds (r : RegRow) (off : Nat) : Bool :=
  r.base ≤ off && (
    let d := off - r.base
    let i := if r.n1 = 1 then 0 else d / r.s1
    let d1 := d - r.s1 * i
    let j := if r.n2 = 1 then 0 else d1 / r.s2
    let d2 := d1 - r.s2 * j
    i < r.n1 && j < r.n2 && d2 % 4 == 0 && d2 / 4 < r.words)

/-- The rows of the block that holds `off` (R30). -/
def regRowsAt (off : Nat) : List RegRow :=
  match off / 0x1000000 with
  | 0x00 => regRowsChip ++ regRowsBudget
  | 0x01 => regRowsAon
  | 0x02 => regRowsStitch
  | 0x03 => regRowsMeter
  | 0x04 => regRowsCool
  | 0x05 => regRowsLeak
  | 0x06 => regRowsTw
  | 0x07 => regRowsEvrec
  | 0x08 => regRowsMbx
  | 0x09 => regRowsSec
  | 0x0A => regRowsFwall
  | 0x0B => regRowsAssure
  | 0x10 | 0x11 | 0x12 | 0x13 | 0x14 | 0x15 | 0x16 | 0x17 => regRowsPress ++ regRowsIron
  | 0x20 => regRowsMem
  | 0x30 => regRowsGhep ++ regRowsTorus
  | 0x38 => regRowsSuorta
  | _ => []

/-- The row that names the word at `off`, where one does. -/
def regRow (off : Nat) : Option RegRow := (regRowsAt off).find? (fun r => r.holds off)

/-- The reset value of the register word at `off`; an offset that names no register reads as zero (R30). -/
def regReset (off : Nat) : W32 :=
  match regRow off with
  | some r => BitVec.ofNat 32 r.reset
  | none => 0

/-- Whether `off` lies in a register block (R30). -/
def inRegBlock (off : Nat) : Bool :=
  off < 0x0C000000 || (0x10000000 ≤ off && off < 0x18000000)
    || (0x20000000 ≤ off && off < 0x30C00000) || (0x38000000 ≤ off && off < 0x39000000)

end Sys2Proof.Machine
end

