-- ==== Sys2Proof/Machine/StateBase.lean ====
section
/-! DEFINITION. State of the tray conductor itself: tray states, islands and lines (01, 16), cores, starch
limits and the security module (14), the event recorder and the configuration store (15), mailboxes (08).
Log entries coded here: 23 (DESIGN CHOICE). -/

namespace Sys2Proof.Machine

/-- Tray states (R19). -/
inductive Tray where
  | off | standby | sequencingUp | ready | degraded | sequencingDown | tripped
  deriving DecidableEq, Repr

/-- The code of a tray state (R19). -/
def Tray.code (t : Tray) : Nat :=
  match t with
  | .off => 0
  | .standby => 1
  | .sequencingUp => 2
  | .ready => 3
  | .degraded => 4
  | .sequencingDown => 5
  | .tripped => 6

/-- How far the start-up of R25 and R436 has come. -/
inductive Boot where
  | held        -- SYSRST_N low, or VAON outside its window
  | rom         -- boot ROM has verified the security core's image
  | firmware    -- security core firmware running, configuration and stitch program loaded
  | complete    -- STANDBY has been entered
  | failed      -- no security core image verifies, or no configuration image (R437, R486)
  deriving DecidableEq, Repr

/-- Tray states, islands, hard lines and clocks. -/
structure Chip where
  /-- STATE of TRAY_STATE (R19). -/
  tray : Tray := .off
  /-- PREV of TRAY_STATE. -/
  prev : Tray := .off
  /-- TRIP_KIND: 0 none since cold reset, 1 hardware trip, 2 AON trip. -/
  tripKind : Nat := 0
  /-- The state in which the last hardware trip was taken (R21). -/
  tripFrom : Tray := .off
  /-- A trip is in force, until the restart transition of R21 (R504). -/
  tripForce : Bool := false
  /-- An off request arrived while TRIPPED (R24). -/
  offWhileTripped : Bool := false
  /-- The off request accepted in this power-down came from a failed rail (R487). -/
  offFromRail : Bool := false
  /-- An on order is held until power-up can start (R21). -/
  onHeld : Bool := false
  /-- Operating time at the end of the last power-down (R21). -/
  offEnd : Option Nat := none
  /-- Operating time at which HSW_EN last rose (R309). -/
  hswRise : Option Nat := none
  /-- Start-up progress. -/
  boot : Boot := .held
  /-- Islands powered, in the bit order of ISLAND_PWR. -/
  islands : BitVec 26 := 0
  /-- Islands that are powering down: they accept nothing new (R18). -/
  draining : BitVec 26 := 0
  /-- Islands whose re-enable waits for their shut-down (R21). -/
  reenable : BitVec 26 := 0
  /-- The error counter of each sender: writes discarded with ABSENT, by master; 37 counts those whose sender a command does not
  name (R17). -/
  absentWrites : SMap Nat := []
  /-- Milliseconds for which each pair of adjacent islands has exceeded 30 K (R16). -/
  gradMs : SMap Nat := []
  /-- Pairs whose hotter island stands lowered to its minimum frequency, with that island (R16). -/
  gradLow : SMap Nat := []
  /-- SYSRST_N is low. -/
  sysrstLow : Bool := true
  /-- VAON lies within its window. -/
  vaonOk : Bool := true
  /-- RACK_PERMIT is high (R347). -/
  permit : Bool := false
  /-- RACK_OFF_N is low. -/
  rackOff : Bool := false
  /-- RACK_THROTTLE_N is low. -/
  rackThrottle : Bool := false
  /-- PFAIL_N is low at the land (R503). -/
  pfailPin : Bool := false
  /-- Milliseconds of VSTBY_OK low: VSTBY lies below its threshold (R500). -/
  vstbyBad : Bool := false
  /-- The lanes run from the crystal-locked synthesiser (R507). -/
  onBackupClock : Bool := false
  /-- The AON island runs from its RC oscillator (R507). -/
  onRc : Bool := false
  deriving DecidableEq, Repr

/-- What the AON island keeps of one core (R424 to R431, R441). -/
structure CoreSt where
  /-- CAUSE of CORE_INFO: the cause of the last stop. -/
  cause : Nat := 0
  /-- Operating times of the counted stops of the last 60 s (R430). -/
  stops : List Nat := []
  /-- Active slot, 0 A or 1 B (non-volatile). -/
  slot : Nat := 0
  /-- The slot that was active before the last activation (R441). -/
  prevSlot : Nat := 0
  /-- Runs from its non-active slot (R436). -/
  fallback : Bool := false
  /-- Operating time of the activation whose probation runs (R441). -/
  activatedAt : Option Nat := none
  /-- Stops since that activation. -/
  probStops : Nat := 0
  /-- The image bytes that the measurement of R435 was taken of. -/
  image : Bytes := []
  /-- Operating time of the last kick (R425). -/
  kick : Nat := 0
  deriving DecidableEq, Repr

/-- A firmware activation that runs or is pending (R439, R440). -/
structure Activation where
  slot : Nat
  /-- Cores not yet restarted. -/
  mask : Nat
  /-- Mailbox and tag of the order, for its COMPLETION notice. -/
  mb : Nat
  tag : Nat
  deriving DecidableEq, Repr

/-- The AON island's registers (R460). -/
structure Aon where
  optime : Nat := 0
  powerCycles : Nat := 0
  coreDown : BitVec 11 := 0x7FF
  coreHeld : BitVec 11 := 0
  cores : SMap CoreSt := []
  /-- PEND_ACT (R440). -/
  pendAct : Option Activation := none
  /-- The activation that is restarting cores one at a time (R439). -/
  acting : Option Activation := none
  /-- SVN floors by class, where raised above the factory floor (R441). -/
  svnFloor : SMap Nat := []
  /-- Effective starch limits (R442). -/
  vcoreEff : Nat := 900
  iclkEff : Nat := 1600
  tjEff : Nat := 120
  /-- CLAMPS and SET_MV of VCORE_SET (R443). -/
  clamps : Nat := 0
  setMv : Nat := 0
  /-- Every cluster is capped at 400 MHz by the backstop or by a tightening (R443, R444). -/
  vcoreCap : Bool := false
  deriving DecidableEq, Repr

/-- An authorising key (R450). -/
structure AuthKey where
  pub : Bytes
  roles : Nat
  deriving DecidableEq, Repr

/-- The security module (R445 to R457, R461, R462). -/
structure Sec where
  /-- STATE of SEC_STATE: 0 ROM, 1 SELFTEST, 2 OPERATIONAL, 3 ERROR. -/
  state : Nat := 0
  /-- TEST of SEC_ERR. -/
  err : Nat := 0
  /-- SEC_LOCK (R461). -/
  lock : BitVec 11 := 0
  debugUnlocked : Bool := false
  /-- KEY_EPOCH (non-volatile). -/
  epoch : Nat := 0
  /-- Enrolled authorising keys, at most 16. -/
  keys : List AuthKey := []
  /-- Last SEQUENCE accepted per AUTH_REF, oldest record first, at most 256 (non-volatile). -/
  seqs : List (Nat × Nat) := []
  /-- Cached attestation keys by node, with the pair of certificates (R449). -/
  keyCache : List (Nat × Bytes) := []
  /-- Identity certificates received on seam ports and not yet paired (R449). -/
  certPart : SMap Bytes := []
  /-- DBG_CHALLENGE, drawn once per power cycle (R456). -/
  challenge : Bytes := []
  /-- Pinned masters (R454). -/
  pinned : BitVec 37 := 0
  deriving DecidableEq, Repr

/-- An event on its way into a record (R465). -/
structure Ev where
  cls : Nat
  code : Nat
  inst : Nat
  keep : Bool
  data : Bytes
  /-- Repeats flushed while the record still waits to be committed (R471). -/
  rep : Option Nat := none
  deriving DecidableEq, Repr

/-- A committed record of Keep or Tumble (R465 to R467). -/
structure EvRec where
  ev : Ev
  optime : Nat
  cycles : Nat
  seq : Nat
  /-- REPEAT once flushed; `none` while the erased value stands. -/
  rep : Option Nat := none
  /-- Running number of the page that holds it. -/
  page : Nat := 0
  deriving DecidableEq, Repr

/-- A coalescer entry (R470, R471). -/
structure Coal where
  cls : Nat
  code : Nat
  inst : Nat
  keep : Bool
  seq : Nat
  count : Nat
  /-- Operating time of the last occurrence and of the last flush. -/
  last : Nat
  flushed : Nat
  deriving DecidableEq, Repr

/-- The event recorder (R463 to R474, R493). -/
structure Recorder where
  /-- Events waiting, the oldest first; the first is being written. -/
  queue : List Ev := []
  /-- Events lost since the last LOST record (R468). -/
  lost : Nat := 0
  keep : List EvRec := []
  tumble : List EvRec := []
  /-- Page being written and bytes used in it. -/
  page : Nat := 0
  used : Nat := 0
  /-- First page of Tumble in use. -/
  firstPage : Nat := 0
  /-- EV_SEQ, the next SEQ. -/
  seq : Nat := 1
  clearCount : Nat := 0
  coal : List Coal := []
  /-- The record that was being written when a cold reset came (R467). -/
  halfway : Option EvRec := none
  deriving DecidableEq, Repr

/-- An activation or staging of a configuration generation (R482 to R489). -/
inductive CfgJob where
  | none
  /-- The write of an image into a slot (R482). -/
  | staging (slot : Nat) (image : Bytes) (mb tag : Nat)
  /-- An activation of a slot waits for STANDBY and clear latches (R484); `rollback` as R489. -/
  | pending (slot : Nat) (rollback : Bool) (mb tag : Nat)
  deriving DecidableEq, Repr

/-- The FRU entry of one accelerator position (R480). -/
structure Fru where
  port : Nat := 0
  addr : Nat := 0
  abytes : Nat := 0
  serialLen : Nat := 0
  serialOff : Nat := 0
  svcOff : Nat := 0
  deriving DecidableEq, Repr

/-- One REGS entry of the generation in force (R478). -/
structure RegEntry where
  off : Nat
  val : W32
  mask : W32
  deriving DecidableEq, Repr

/-- The configuration store and the generation in force (R475 to R491). -/
structure Cfg where
  /-- Slot contents, as the two devices hold them. -/
  image0 : Bytes := []
  image1 : Bytes := []
  /-- The two factory copies. -/
  factory0 : Bytes := []
  factory1 : Bytes := []
  /-- Slot states: 0 EMPTY, 1 STAGED, 2 ACTIVE, 3 PREVIOUS, 4 FAILED. -/
  state0 : Nat := 0
  state1 : Nat := 0
  passed0 : Bool := false
  passed1 : Bool := false
  /-- ACTIVE: 0 slot 0, 1 slot 1, 2 factory. -/
  active : Nat := 2
  fails : Nat := 0
  probation : Bool := false
  rollbackDue : Bool := false
  fallback : Bool := false
  /-- The image that boot loaded (R486), or the last activation applied. -/
  loaded : Bytes := []
  ownerRef : Nat := 0
  job : CfgJob := .none
  /-- REGS entries of the generation in force, in order (R478). -/
  regs : List RegEntry := []
  /-- PRESS section (R479). -/
  poolBase : Nat := 0
  poolSize : Nat := 0
  hostOff : Nat := 0
  hostSize : Nat := 0
  peerSlots : Bytes := []
  /-- FRU section (R480). -/
  fru : SMap Fru := []
  /-- A SEQUENCING-UP under probation is being judged (R487). -/
  attempt : Bool := false
  deriving DecidableEq, Repr

/-- The xSPI images of the firmware classes: key 2 × class + slot (R434). -/
abbrev Flash := SMap Bytes

/-- Mailbox states (R266). -/
inductive MbState where
  | idle | submitted | executing | replied
  deriving DecidableEq, Repr

/-- One mailbox (R265 to R268, R276, R284). -/
structure Mailbox where
  st : MbState := .idle
  /-- SOURCE of MB_STATE: the class of the current order. -/
  source : Nat := 0
  req : Bytes := []
  rep : Bytes := []
  /-- The order has reached its commit point (R268). -/
  committed : Bool := false
  major : Nat := 3
  minor : Nat := 2
  /-- Where a reply that leaves as a message goes back: the MCTP message tag, or the peer's node and 2,048 times its TAG. -/
  backTo : Nat := 0
  deriving DecidableEq, Repr

/-- An order that runs long (R273): what ends it, and whom it answers. -/
inductive LongKind where
  | trayOn | trayOff
  | accPower (acc : Nat) (on : Bool)
  | planSubmit (plan : Nat)
  | hlcCtrl
  | calibrate
  | configStage
  | configActivate
  | fwStage (cls slot : Nat) (image : Bytes)
  | fwActivate
  | clusterCtrl (cluster : Nat)
  deriving DecidableEq, Repr

/-- A long order in progress: `hold` is COMPLETION one, the mailbox staying EXECUTING. -/
structure Long where
  kind : LongKind
  mb : Nat
  tag : Nat
  hold : Bool
  deriving DecidableEq, Repr

end Sys2Proof.Machine
end

