-- ==== Sys2Proof/Machine/StateMeter.lean ====
section
/-! DEFINITION. State of metering and tickets (10): accumulators, intervals, open requests, the ticket store and
calibration. Energies are in attojoules. -/

namespace Sys2Proof.Machine

/-- An exact fraction. -/
structure Frac where
  n : Int := 0
  d : Nat := 1
  deriving DecidableEq, Repr

/-- What happened in a span of intervals that a ticket's flags report (R336). -/
structure Span where
  /-- Accelerators without a usable INTERVAL in some interval. -/
  miss : BitVec 8 := 0
  hold : Bool := false
  /-- Largest TIME_UNC_NS. -/
  unc : Nat := 0
  deriving DecidableEq, Repr

/-- An open request (R335). -/
structure OpenReq where
  id : Nat
  /-- Accelerators that carried it, and those whose part has ended. -/
  mask : BitVec 8 := 0
  ended : BitVec 8 := 0
  start : Nat
  /-- End of the last interval in which it appeared, and the operating time then. -/
  last : Nat := 0
  seenAt : Nat := 0
  direct : Int := 0
  alloc : Int := 0
  unc : Frac := {}
  /-- The end term of R334 of the last interval, where that is not the first one too. -/
  lastTerm : Frac := {}
  /-- Of the span up to its last appearance, and of the intervals since. -/
  span : Span := {}
  tail : Span := {}
  step : Bool := false
  cal : Bool := false
  /-- A part of it ended with SHUTDOWN. -/
  shut : Bool := false
  part : Nat := 0
  /-- A CONTINUED ticket has been issued, and it reopens when it next appears. -/
  reopens : Bool := false
  deriving DecidableEq, Repr

/-- Why an entry closes (R335). -/
inductive CloseWhy where
  | ended | idle | shutdown | max
  deriving DecidableEq, Repr

/-- A closed interval that waits for its attribution (R333). -/
structure Interval where
  start : Nat
  /-- Energy of each rail. -/
  energy : SMap Int := []
  hold : Bool := false
  unc : Nat := 0
  deriving DecidableEq, Repr

/-- A usable INTERVAL of an accelerator: request, share, END of each entry. -/
structure Report where
  acc : Nat
  start : Nat
  entries : List (Nat × Nat × Bool)
  deriving DecidableEq, Repr

/-- A batch of tickets (R338, R339); `record` is the signed batch record, empty until signed. -/
structure Batch where
  idx : Nat
  firstSeq : Nat
  tickets : List Bytes := []
  openTai : Nat := 0
  /-- Operating time of its first ticket. -/
  openAt : Nat := 0
  closeTai : Nat := 0
  calId : Nat := 0
  closed : Bool := false
  byTime : Bool := false
  delayed : Bool := false
  record : Bytes := []
  deriving DecidableEq, Repr

/-- A calibration sweep: channels still to do, and whether a coefficient has changed. -/
structure Sweep where
  todo : List Nat
  changed : Bool := false
  deriving DecidableEq, Repr

/-- The metering back end (R319 to R345). -/
structure Meter where
  /-- Accumulators of R326. -/
  acc : SMap Int := []
  /-- The interval in progress: its start, energies, sums of µV and µA, samples. -/
  start : Nat := 0
  energy : SMap Int := []
  sumV : SMap Int := []
  sumI : SMap Int := []
  samples : Nat := 0
  /-- Samples since cold reset. -/
  total : Nat := 0
  waiting : List Interval := []
  reports : List Report := []
  opens : List OpenReq := []
  /-- Requests that found the table full and have been counted. -/
  noEntry : List Nat := []
  idle : Int := 0
  unticketed : Int := 0
  batches : List Batch := []
  /-- Next TICKET_SEQ and BATCH (R340), and cold resets counted (non-volatile). -/
  seq : Nat := 0
  batch : Nat := 0
  resets : Nat := 0
  /-- No batch has been signed since the cold reset, and PREV of the next one. -/
  firstBatch : Bool := true
  prevHash : Bytes := []
  lastSigned : Nat := 0
  lastDelivered : Nat := 0
  /-- Batches that the last TICKET_FETCH delivered. -/
  delivered : List Nat := []
  /-- Closes that wait for a slot (R341). -/
  closeWait : List (Nat × CloseWhy) := []
  /-- Field coefficients in force: GAIN and OFFSET by channel. -/
  coef : SMap (Option (W32 × W32)) := []
  calGen : Nat := 0
  sweep : Option Sweep := none
  /-- Channels that CALIBRATE orders still wait for. -/
  calNamed : List Nat := []
  dacBad : BitVec 16 := 0
  /-- What was seen last: SEQUENCING-DOWN, and accelerators powered and not drained. -/
  downSeen : Bool := false
  accUp : BitVec 8 := 0
  /-- _HI words latched by a read of their _LO partner (R345). -/
  latch : SMap (Option W32) := []
  deriving DecidableEq, Repr

end Sys2Proof.Machine
end

