-- ==== Sys2Proof/Machine/StateBudget.lean ====
section
/-! DEFINITION. State of power budget and dispatch (11) beyond the BUDGET registers. -/

namespace Sys2Proof.Machine

/-- What the budget keeps of one accelerator. -/
structure AccB where
  /-- RUNNING and HOTTEST_C of its latest ACC_STATUS, and when it came (R234). -/
  running : Nat := 0
  hotC : Int := 0
  statusAt : Option Nat := none
  /-- DEMAND_W of its latest DEMAND, and when it came (R351). -/
  demand : Nat := 0
  demandAt : Option Nat := none
  /-- Number of GRANTs sent to it: SEQ of the next (R355). -/
  grantSeq : Nat := 0
  /-- A GRANT has been sent to it since it became active. -/
  granted : Bool := false
  /-- FLAGS THERMAL and UNDER_FLOOR of the last computed grant (R361). -/
  flags : Nat := 0
  /-- A GRANT without RACK_THROTTLE has been sent since the line rose (R358). -/
  freed : Bool := false
  /-- RACK and GUARD causes (R358). -/
  rack : Bool := false
  guard : Bool := false
  /-- The millisecond of the RACK cause's clearance has passed. -/
  rackMs : Bool := false
  /-- In this episode the 100 µs mean has fallen to THR_W. -/
  guardFell : Bool := false
  /-- Decreases of the grant that GUARD has not yet taken, oldest first (R359). -/
  guardNext : List Nat := []
  /-- It was active at the last period (R354). -/
  wasActive : Bool := false
  /-- It is being drained (R174). -/
  drained : Bool := false
  deriving DecidableEq, Repr

/-- A work item (R363). -/
structure WorkItem where
  id : Nat
  mask : Nat
  energyJ : Nat
  heatJ : Nat
  desc : Nat
  since : Nat
  deriving DecidableEq, Repr

/-- Budget and ledger. -/
structure Budget where
  accs : SMap AccB := []
  /-- TRAY_HOLD and RACK_HOLD (R348). -/
  trayHold : Bool := false
  rackHold : BitVec 8 := 0
  underFloor : Bool := false
  /-- The ledger holds host jobs and screening preparation (R366). -/
  pressHeld : Bool := false
  /-- The last hundred 1 ms means of the overhead without the group 9 rails, W, newest first (R350), and RESERVE. -/
  overheads : List Frac := []
  reserve : Frac := {}
  /-- CAP_EFF and FLOOR_EFF of the last period, as their registers show them. -/
  capShown : Nat := 0
  floorShown : Nat := 0
  /-- The TAL8 was active at the last period. -/
  selfActive : Bool := false
  /-- TH_W in hundredths of a watt (R354). -/
  thW : SMap Nat := []
  /-- Last 1 ms mean power of the nine participants and of the tray input, W. -/
  meas : SMap Frac := []
  inputW : Frac := {}
  /-- Accumulators and sample count at the last period. -/
  snapE : SMap Int := []
  snapN : Nat := 0
  /-- Tray-time start of the current 1 ms period. -/
  interval : Nat := 0
  /-- Balances, mJ. -/
  bal : SMap Int := []
  heat : Int := 0
  /-- Operating time of the last ledger period (R368). -/
  ledgerAt : Nat := 0
  items : List WorkItem := []
  /-- Numbers of released items. -/
  released : List Nat := []
  deriving DecidableEq, Repr

end Sys2Proof.Machine
end

