-- ==== Sys2Proof/Machine/StateHeat.lean ====
section
/-! DEFINITION. State of temperature, cooling and leaks (12) beyond the COOL and LEAK registers. -/

namespace Sys2Proof.Machine

/-- One ring-oscillator sensor (R371, R376). Temperatures are in 0.1 °C. -/
structure Ro where
  /-- Its last reading and count; none before the first conversion. -/
  temp : Option Int := none
  count : Nat := 0
  /-- Consecutive conversions with the same count, and out of the band. -/
  same : Nat := 0
  outside : Nat := 0
  /-- Conversion numbers of its steps above 3 K. -/
  jumps : List Nat := []
  /-- Consecutive conversions away from the median of the zone. -/
  away : Nat := 0
  /-- Cause code of a broken sensor; 0 while healthy. -/
  cause : Nat := 0
  deriving DecidableEq, Repr

/-- A remote diode or a thermistor input (R372, R373, R378). -/
structure Sens where
  temp : Int := 0
  fault : Bool := false
  /-- Its last conversion lay within range. -/
  ok : Bool := false
  deriving DecidableEq, Repr

/-- Classes of a leak loop (R396). -/
inductive LeakClass where
  | dry | leak | lost
  deriving DecidableEq, Repr

/-- One leak loop (R396 to R399). -/
structure LeakLoop where
  cls : LeakClass := .dry
  /-- The class of the last measurement, and how many in a row agree. -/
  cand : LeakClass := .dry
  agree : Nat := 0
  ins : Nat := 0
  cont : Nat := 0
  /-- The leak zone whose full response this loop raised, and whether LEAK_RESET has named it. -/
  raised : Option Nat := none
  named : Bool := false
  /-- The leak zone that this loop holds in warn-and-throttle. -/
  relaxed : Option Nat := none
  deriving DecidableEq, Repr

/-- Temperature, cooling and leaks. -/
structure Heat where
  ro : SMap Ro := []
  /-- Conversions made since cold reset. -/
  convs : Nat := 0
  /-- Zones that vote a trip, and the zone of the last trip vote. -/
  voting : BitVec 16 := 0
  zoneLast : Nat := 0
  /-- Operating time since which every zone has been below 90 °C, while a trip is in force (R385). -/
  coolSince : Option Nat := none
  diodes : SMap Sens := []
  therms : SMap Sens := []
  /-- Accelerators with a diode at its limit (R386). -/
  diodeHot : BitVec 8 := 0
  /-- The configuration image has loaded the COOL block (R388, R392). -/
  cfgLoaded : Bool := false
  /-- Operating time of that load, from which the watchdog counts. -/
  cfgAt : Nat := 0
  wdgFired : Bool := false
  /-- Operating time of the last kick. -/
  lastKick : Option Nat := none
  loops : SMap LeakLoop := []
  /-- Thermal-limit steps until a cluster's limit may be raised again (R381). -/
  raiseIn : SMap Nat := []
  /-- Oscillator and bandgap trims, two-hundredfold, by local sensor (R379). -/
  oscTrim : SMap (Option Int) := []
  gapTrim : SMap (Option Int) := []
  deriving DecidableEq, Repr

end Sys2Proof.Machine
end

