-- ==== Sys2Proof/Machine/StateLinks.lean ====
section
/-! DEFINITION. State of the links: Gheplane ports, the seam torus and its link table (07), the Suorta link,
its coherence state and its notices (08), and the remote accesses under way.
Log entries coded here: 252 (DEDUCED). -/

namespace Sys2Proof.Machine

/-- Port states (R218). -/
inductive PortSt where
  | off | hold | training | locked | ident | up | retrain | down | test
  deriving DecidableEq, Repr

/-- The code of a port state (R218). -/
def PortSt.code (p : PortSt) : Nat :=
  match p with
  | .off => 0
  | .hold => 1
  | .training => 2
  | .locked => 3
  | .ident => 4
  | .up => 5
  | .retrain => 6
  | .down => 7
  | .test => 8

/-- A flit's own fields (R221); `data` is the payload of words 1 to 7. -/
structure Flit where
  /-- FTYPE: 0 IDLE, 1 DATA, 2 CTRL. -/
  ftype : Nat := 1
  vc : Nat := 0
  turned : Bool := false
  cls : Nat := 0
  typ : Nat := 0
  first : Bool := true
  last : Bool := true
  poison : Nat := 0
  dst : Nat := 0
  loc : Bool := false
  src : Nat := 0
  tag : Nat := 0
  len : Nat := 0
  hops : Nat := 0
  endpoint : Nat := 0
  hdr : Bytes := []
  data : Bytes := []
  /-- No field of the flit: the seam port on which it came in, while this node forwards it (R229). -/
  via : Option Nat := none
  deriving DecidableEq, Repr

/-- A whole message (R231): the fields every flit repeats, its payload, and which payload bytes carry POISON
(by 32-byte word of the payload). -/
structure Msg where
  cls : Nat := 0
  typ : Nat := 0
  dst : Nat := 0
  loc : Bool := false
  src : Nat := 0
  tag : Nat := 0
  /-- LENGTH: payload bytes, or bytes requested by an RD_REQ. -/
  len : Nat := 0
  endpoint : Nat := 0
  hdr : Bytes := []
  payload : Bytes := []
  poison : List Nat := []
  hops : Nat := 0
  deriving DecidableEq, Repr

/-- The link fields with which a flit or a frame leaves: ACK, none while ACK_VALID is zero, and the buffers returned on one
channel, none with a count of zero (R221, R227, R252, R254). -/
structure Carried where
  ack : Option Nat := none
  ch : Nat := 0
  count : Nat := 0
  deriving DecidableEq, Repr

/-- A sent flit or frame in the retry buffer: its SEQ, how often it has been replayed, and its link fields (R224, R225). -/
structure Sent (α : Type) where
  seq : Nat
  replays : Nat
  item : α
  link : Carried := {}
  deriving DecidableEq, Repr

/-- A memory window that an accelerator declared (R220). -/
structure AccWin where
  win : Nat
  rd : Bool
  wr : Bool
  size : Nat
  deriving DecidableEq, Repr

/-- One Gheplane port (R214 to R227, R243 to R247). -/
structure Port where
  st : PortSt := .off
  /-- MODE as it stood at the last enable, which is the one in force (07, collisions). -/
  mode : Nat := 0
  /-- LOCKED of PORT_STATE: lanes trained. -/
  lanes : Nat := 0
  farLoop : Bool := false
  txSeq : Nat := 0
  rxSeq : Nat := 0
  /-- At least one flit has been received in order: ACK_VALID. -/
  rxAny : Bool := false
  retry : List (Sent Flit) := []
  /-- Flits that wait for credit, for the retry buffer, or for the port to be UP. -/
  queue : List Flit := []
  /-- Credits held by virtual channel. -/
  credit : SMap Nat := []
  /-- Buffers freed and not yet returned, by virtual channel. -/
  owed : SMap Nat := []
  /-- A NAK has been sent, and flits are discarded until the expected SEQ arrives (R224). -/
  nakSent : Bool := false
  /-- The message whose flits a virtual channel is carrying out: port it came in on, source, tag; its next flit goes before any
  other message's (R229). -/
  out : SMap (Option (Option Nat × Nat × Nat)) := []
  /-- Forwarded flits sent since the last flit injected here, by class (R229). -/
  run : SMap Nat := []
  /-- The IDLE flits of the slots since the last CTRL flit that was due: what they carried (R223). -/
  idles : List Carried := []
  /-- Flits of messages that are arriving, by virtual channel. -/
  asm : SMap (List Flit) := []
  /-- Messages that have arrived whole and wait to be taken, oldest first. -/
  inbox : List Msg := []
  /-- WINDOW_DECL of an accelerator (R220). -/
  windows : Option (List AccWin) := none
  /-- The partner's LINK_ID, which a port held in IDENT checks again (R219). -/
  linkId : Bytes := []
  /-- Part of the identity check is over: the partner's LINK_ID matches (R219). -/
  identOk : Bool := false
  /-- The partner's certificates have verified (R449). -/
  certOk : Bool := false
  /-- Operating time since which the port has been UP without a replay storm (R237). -/
  upSince : Option Nat := none
  /-- Operating times of NAKs received in the last millisecond (R237). -/
  naks : List Nat := []
  /-- Stamps of the last exchange: our receive time of the partner's TIME flit, our last transmit time (R243). -/
  stampRx : Nat := 0
  stampSent : Nat := 0
  /-- Our transmit times of the exchanges before the last, newest first: a TIME flit may answer one of them (R243). -/
  stampsPast : List Nat := []
  /-- Flits for another node that have passed their checks and wait to be forwarded (R242). -/
  transit : List Flit := []
  /-- Test flits sent and received (R244). -/
  testSent : Nat := 0
  testCount : Nat := 0
  /-- The flit that the far end of a loopback returned last, as it was received (R244). -/
  looped : Bytes := []
  deriving DecidableEq, Repr

/-- One entry of the link table (R237). -/
structure LinkEntry where
  up : Bool := false
  epoch : Nat := 0
  deriving DecidableEq, Repr

/-- Where the data of a remote read goes, or what a remote write was for. -/
inductive Owner where
  /-- A Press stage of a cluster, or with 8 the engines of the scheduler core: data enters the external data at this device
  address. -/
  | press (cluster : Nat) (addr : Nat)
  /-- An access that a message on a port asked for and that is not answered at once: port, source, tag, and the address
  and length asked for (R207, R261). -/
  | served (port : Nat) (src : Nat) (tag : Nat) (addr : Nat) (len : Nat)
  /-- The host's own request, likewise: its tag, address and length (R256). -/
  | host (tag : Nat) (addr : Nat) (len : Nat)
  /-- An access of tray DRAM by a master, a word that a controller checks, which waits for the host's GRANT: the data hold the error
  patterns of a read's two reads, or a write's bytes and then its pattern (R201, R202, R261). -/
  | mem (master : Nat)
  /-- A master of the block whose access needs no follow-up. -/
  | plain
  deriving DecidableEq, Repr

/-- A remote access outstanding on an A port or across the seams (R233). -/
structure Remote where
  port : Nat
  tag : Nat
  write : Bool
  dst : Nat
  win : Nat
  addr : Nat
  len : Nat
  owner : Owner
  /-- Data of a write, kept for the next attempt (R107). -/
  data : Bytes := []
  deriving DecidableEq, Repr

/-- The torus as this node sees it (R236 to R242). -/
structure Torus where
  links : SMap LinkEntry := []
  /-- Remote accesses outstanding. -/
  remotes : List Remote := []
  /-- Reads that wait for an outstanding one to end (R233). -/
  waiting : List Remote := []
  /-- Accesses answered ABSENT or UNREACHABLE, which their requester asks again (R107, R233). -/
  absent : List Remote := []
  /-- Next transaction tag. -/
  nextTag : Nat := 0
  /-- Source and tag (with 4,096 for RSP) of messages that this node has turned or dropped, and the seam, or 4: their later flits go
  the same way (R239). -/
  turnedMsgs : List (Nat × Nat × Nat) := []
  /-- Tags of messages of this node that were answered ABSENT or UNREACHABLE and are no remote access: a peer that was asked is
  passed over (R165, R233). -/
  lost : List Nat := []
  /-- Who injected the FWD message of a tag: an accelerator's port, or 12 for the host (R235, R281). -/
  fwds : SMap (Option Nat) := []
  deriving DecidableEq, Repr

/-- A Suorta frame (R252). -/
structure Frame where
  ch : Nat := 0
  op : Nat := 0
  tag : Nat := 0
  len : Nat := 0
  addr : Nat := 0
  attr : Nat := 0
  poison : Nat := 0
  aux : Nat := 0
  data : Bytes := []
  deriving DecidableEq, Repr

/-- A request of the TAL8 outstanding towards the host (R253, R256); a claim carries its access (R261). -/
structure HostReq where
  tag : Nat
  op : Nat
  addr : Nat
  len : Nat
  data : Bytes := []
  owner : Owner := .plain
  deriving DecidableEq, Repr

/-- A host-line cache line (R257): filled (S) or its fill outstanding (P); `noInstall` once snooped in P. -/
structure Line where
  filled : Bool
  noInstall : Bool := false
  /-- Use order for the least recently used way. -/
  used : Nat := 0
  data : Bytes := []
  deriving DecidableEq, Repr

/-- A notice (R269). -/
structure Notice where
  arg : Nat
  status : Nat
  value : Nat
  deriving DecidableEq, Repr

/-- The Suorta link (R249 to R264, R283). -/
structure Suorta where
  st : PortSt := .off
  /-- MODE as it stood at the last enable, which is the one in force (R251, 08). -/
  mode : Nat := 0
  lanes : Nat := 0
  txSeq : Nat := 0
  rxSeq : Nat := 0
  rxAny : Bool := false
  nakSent : Bool := false
  retry : List (Sent Frame) := []
  queue : List Frame := []
  credit : SMap Nat := []
  owed : SMap Nat := []
  /-- Requests outstanding towards the host, and the next tag. -/
  reqs : List HostReq := []
  nextTag : Nat := 0
  /-- Requests that wait: for one of 1,024 outstanding to end, or a write for the fill of a line it covers (R256). -/
  waits : List HostReq := []
  /-- Requests of the host in progress: tag of each that a peer window carries. -/
  hostTags : List Nat := []
  /-- HLC lines by line number of the host window (R257), ACTIVE, and the use counter. -/
  hlc : SMap (Option Line) := []
  hlcActive : Bool := false
  hlcUse : Nat := 0
  /-- HLC_CTRL enable waits for these plans, which hold the upper SRAM (R259). -/
  hlcEnableWaits : Bool := false
  hlcHolders : List Nat := []
  /-- HCR_LOST has been sent and the memory is not back (R262). -/
  hcrLost : Bool := false
  /-- Notices waiting for credit, by kind (R269). -/
  pend : SMap (Option Notice) := []
  /-- HOST mailboxes that return to version 3.2 when next IDLE (R264). -/
  verReset : BitVec 16 := 0
  testCount : Nat := 0
  deriving DecidableEq, Repr

end Sys2Proof.Machine
end

