-- ==== Sys2Proof/Machine/StateMem.lean ====
section
/-! DEFINITION. State of tray memory (06): contents, die sensors, refresh bands, scrubbers and training.
Log entries coded here: 112 (DEDUCED), 113 (DESIGN CHOICE). -/

namespace Sys2Proof.Machine

/-- One DRAM die sensor (R195). -/
structure DieSens where
  /-- Its last reading, 0.1 °C; none before the first. -/
  last : Option Int := none
  /-- Readings identical to the last, and whether another reading of the stack changed meanwhile. -/
  same : Nat := 0
  moved : Bool := false
  /-- Consecutive readings below −20 °C or above 150 °C. -/
  outside : Nat := 0
  /-- Operating times of the jumps above 5 K in the last 100 ms. -/
  jumps : List Nat := []
  /-- Consecutive readings away from the zone beneath. -/
  away : Nat := 0
  broken : Bool := false
  deriving DecidableEq, Repr

/-- One stack and its quadrant controller. -/
structure Stack where
  band : Nat := 0
  /-- Consecutive 1 ms readings at least 2 K below the band's lower boundary (R194). -/
  below : Nat := 0
  tries : Nat := 0
  trained : Bool := false
  /-- DRAM die temperature in 0.1 °C and the die that gives it (R193). -/
  tmax : Int := 0
  hotDie : Nat := 0
  /-- Corrections of this pass by symbol position (R203). -/
  lanes : SMap Nat := []
  /-- Next word of the immediate pass while one runs (R205). -/
  immediate : Option Nat := none
  deriving DecidableEq, Repr

/-- Tray memory (R190 to R213). -/
structure Mem where
  /-- Tray DRAM contents by tray DRAM address; an unlisted byte is zero, as the zero fill leaves it (R209). -/
  data : SMap Byte := []
  /-- Error patterns, 36 bytes, of stored words that differ from the encoding of their data, by aligned address: a word that was read
  as uncorrectable stays so until it is written whole (R201, R202). -/
  errs : SMap Bytes := []
  /-- Errors that writers received for a write that was refused in part, by master; 37 where the command names none (R202). -/
  writeErrors : SMap Nat := []
  /-- INTERLEAVE as training read it (R192). -/
  interleave : Nat := 0
  stks : SMap Stack := []
  /-- Die sensors, key 16 q + die. -/
  dies : SMap DieSens := []
  /-- An immediate pass is requested and starts at READY. -/
  nowWaits : Bool := false
  deriving DecidableEq, Repr

end Sys2Proof.Machine
end

