-- ==== Sys2Proof/Machine/StateStitch.lean ====
section
/-! DEFINITION. State of the stitch engine (09): rails, strands, signals, the enable journal, shut-downs in
progress, the program image and the first-failure log.
Log entries coded here: 273 (DEDUCED). -/

namespace Sys2Proof.Machine

/-- Rail states (R290). -/
inductive RailSt where
  | off | rising | on | falling | failed
  deriving DecidableEq, Repr

/-- The code of a rail state, as RAIL_QUERY and RAIL_STATE report it (R290). -/
def RailSt.code (r : RailSt) : Nat :=
  match r with
  | .off => 0
  | .rising => 1
  | .on => 2
  | .falling => 3
  | .failed => 4

/-- An enable or disable action that is not yet complete (R287). -/
inductive RailAct where
  | none | enabling | disabling
  deriving DecidableEq, Repr

/-- One rail channel (R286 to R291, R318). -/
structure Rail where
  st : RailSt := .off
  /-- CAUSE while FAILED (R291). -/
  cause : Nat := 0
  /-- The power-good source reports good. -/
  pg : Bool := false
  /-- Margin step in force, 0.1 % units (R297). -/
  margin : Int := 0
  act : RailAct := .none
  /-- PMBus attempts made of the action (R287). -/
  tries : Nat := 0
  /-- Consecutive STATUS_WORD polls without a valid reading (R288). -/
  misses : Nat := 0
  /-- Consecutive valid readings that differ from the present power-good state (R288). -/
  votes : Nat := 0
  /-- The enable path drives the rail on: active level, pulled line or OPERATION 0x80 (R286). -/
  driven : Bool := false
  /-- Its voltage may stand at or above OFF_MV: it has been enabled and has not yet fallen (R290, R306). -/
  high : Bool := false
  deriving DecidableEq, Repr

/-- What a waiting strand waits for (R296). -/
inductive StrandWait where
  | none
  /-- ENABLE: parents not ON, or the rail still falls or is shutting down (R301, R306). -/
  | parents (rail : Nat)
  /-- ENABLE: its action is not complete. -/
  | action (rail : Nat)
  /-- DISABLE: the shut-down started by this strand. -/
  | disable
  /-- WAIT. -/
  | time
  /-- WAITPG. -/
  | powerGood (rail : Nat)
  /-- AWAIT. -/
  | signal (sig : Nat)
  /-- MARGIN: the write is not acknowledged. -/
  | margin (rail : Nat)
  deriving DecidableEq, Repr

/-- One strand (R292 to R296, R318). `run` is ST: 0 stopped, 1 running, 2 waiting. -/
structure Strand where
  run : Nat := 0
  c : Bool := false
  pc : Nat := 0
  exec : Nat := 0
  wait : StrandWait := .none
  /-- Strand 0 runs its standby part. -/
  standby : Bool := false
  /-- Rails whose VOUT_MODE has been read in this run (R419). -/
  modes : List Nat := []
  deriving DecidableEq, Repr

/-- Who started a shut-down of rails. -/
inductive DownWhy where
  /-- Isolation of a failed rail; `first` when step 1 of R304 has disabled it already. -/
  | isolation (rail : Nat) (first : Bool)
  | strand (s : Nat)
  | accOff (acc : Nat)
  /-- The reverse sequence of R307 over the entries above STBY_MARK. -/
  | reverse
  /-- The whole-journal sequence after an AON trip (R310). -/
  | aonReverse
  deriving DecidableEq, Repr

/-- A shut-down in progress: rails still to disable, in order; the rail being shut down; whether its gap runs. -/
structure DownJob where
  why : DownWhy
  rails : List Nat
  cur : Option Nat := none
  gap : Bool := false
  /-- Rails that it has disabled. -/
  gone : List Nat := []
  deriving DecidableEq, Repr

/-- A first-failure record (R314). -/
structure FailRec where
  seq : Nat
  cycles : Nat
  optime : Nat
  stitch : Nat
  tUs : Nat
  rail : Nat
  cause : Nat
  phase : Nat
  strand : Nat
  mv : Nat
  da : Nat
  deriving DecidableEq, Repr

/-- The stitch engine (R285 to R318). -/
structure Stitch where
  /-- Program image in force (R299); empty where none is loaded. -/
  image : Bytes := []
  rails : SMap Rail := []
  strands : SMap Strand := []
  signals : BitVec 32 := 0
  /-- Enable journal, oldest first (R303). -/
  journal : List Nat := []
  stbyMark : Nat := 0
  /-- Shut-downs in progress. -/
  downs : List DownJob := []
  /-- Isolations that wait for the earlier one: rail and whether step 1 has disabled it (R304). -/
  isoWait : List (Nat × Bool) := []
  /-- A rail failed to fall or to be disabled in this tray reverse sequence (R309). -/
  noFallSeen : Bool := false
  /-- The reverse sequence runs in PFAIL mode (R308). -/
  pfailMode : Bool := false
  /-- The falls of a PFAIL mode sequence have been checked together (R308). -/
  fallsChecked : Bool := false
  /-- HSW_EN is high, and HSW_LATCH (R309). -/
  hswEn : Bool := false
  hswLatch : Bool := false
  /-- PHASE of ST_STATE without isolations: 0 idle, 1 standby part, 2 up, 3 reverse, 4 AON trip reverse. -/
  phase : Nat := 0
  /-- The first failure of this sequence has been latched (R314). -/
  seqFailed : Bool := false
  /-- The latched first failure, not yet in the ring. -/
  latch : Option FailRec := none
  /-- The ring of 1,024 records by slot (non-volatile), and slots whose record is torn. -/
  ring : SMap (Option FailRec) := []
  torn : List Nat := []
  /-- Slot rails enabled or disabled by slot timing still to come, in MODE 1 (R313). -/
  slotUp : List Nat := []
  slotDown : List Nat := []
  /-- ENABLEs that wait for their parents without a strand (MODE 1 slots). -/
  slotWait : List Nat := []
  /-- ACC_POWER ON orders that wait for a shut-down of their group (09, collisions). -/
  accWait : List Nat := []
  /-- MODE 1: the common start has been reached (R313). -/
  slotStarted : Bool := false
  deriving DecidableEq, Repr

end Sys2Proof.Machine
end

