-- ==== Sys2Proof/Machine/StateTime.lean ====
section
/-! DEFINITION. State of tray time (R328 to R331). -/

namespace Sys2Proof.Machine

/-- Tray time. -/
structure TrayTime where
  /-- TAI in fifths of a nanosecond, so that a slew of 200 ppm moves one unit in each microsecond. -/
  fifths : Nat := 0
  /-- Correction still to be slewed, in fifths of a nanosecond. -/
  slew : Int := 0
  /-- A decided step, in ns, that the next 10 µs boundary applies (R330). -/
  stepBy : Option Int := none
  /-- VALID of TIME_STATE. -/
  valid : Bool := false
  /-- No usable reference. -/
  holdover : Bool := true
  /-- Operating time at which holdover began. -/
  holdSince : Nat := 0
  /-- What the uncertainty had grown by in this holdover when its rate last changed, ns (R331, R507). -/
  holdBase : Nat := 0
  /-- Operating time of the last step. -/
  stepped : Option Nat := none
  /-- T2 and T3 of the last TIME reply to the host, with the T1 it answered (R329). -/
  hostT1 : Nat := 0
  hostT2 : Nat := 0
  hostT3 : Nat := 0
  hostAny : Bool := false
  deriving DecidableEq, Repr

end Sys2Proof.Machine
end

