-- ==== Sys2Proof/Machine/StateTw.lean ====
section
/-! DEFINITION. State of the two-wire ports (13) beyond their registers: the transaction in progress and the
requests that wait for the bus. -/

namespace Sys2Proof.Machine

/-- What a two-wire transaction is for. -/
inductive TwWhat where
  /-- A core's transaction through TW_XFER. -/
  | core
  /-- An enable or disable action of a rail: PAGE and OPERATION (R286). -/
  | action (rail : Nat)
  /-- A margin write of a rail: VOUT_TRIM (R297). -/
  | margin (rail : Nat)
  /-- The read of VOUT_MODE that precedes a run's first margin write to a rail (R419). -/
  | mode (rail : Nat)
  /-- The AON island's own write of the VCORE limit (R443, R444). -/
  | gate
  /-- The power-management core reads an accelerator's FRU serial number for a tag, or to compare it with one; or writes
  its service record (R174, R175). -/
  | fruTag (acc : Nat)
  | fruCheck (acc : Nat)
  | fruService (acc : Nat)
  deriving DecidableEq, Repr

/-- A two-wire transaction: bytes to write, then bytes to read. -/
structure TwReq where
  what : TwWhat
  addr : Nat
  w : Bytes
  rlen : Nat := 0
  /-- Which attempt of the write this is (R287, R417). -/
  tries : Nat := 1
  deriving DecidableEq, Repr

/-- One port's requests (R405). -/
structure TwPort where
  cur : Option TwReq := none
  queue : List TwReq := []
  /-- Margin writes that were not acknowledged, to be sent again 50 µs later (R417). -/
  again : List TwReq := []
  /-- MODE has been written as 0, and the lines are released after the transaction in progress. -/
  releasing : Bool := false
  /-- An enable waits for a disable that has not completed. -/
  enableWaits : Bool := false
  /-- Bytes returned to the last read of the target function. -/
  sent : Bytes := []
  deriving DecidableEq, Repr

end Sys2Proof.Machine
end

