-- ==== Sys2Proof/Machine/State.lean ====
section
/-! DEFINITION. The state of the TAL8: everything the spec gives the part, and the queue of commands.
Log entries coded here: 1 (DESIGN CHOICE), 5 (DESIGN CHOICE). -/

namespace Sys2Proof.Machine

/-- Why the machine stops. The spec gives every command an effect, so no meaning raises a fault. -/
inductive Fault where
  /-- Raised by no meaning: kept so that the type is inhabited. Safe: it forbids nothing. -/
  | unreachable
  deriving DecidableEq, Repr

/-- Why a command has no meaning. -/
inductive Refusal where
  /-- Raised by an arm of `exec` whose command is not modelled yet. Safe: the machine stops by name. -/
  | notModelled (mnemonic : String)
  deriving DecidableEq, Repr

/-- The state of the part. Sparse maps hold what differs from the reset value of their entry. -/
structure State where
  /-- Commands waiting, first in first out. -/
  pending : List Instr := []
  /-- The model's own counter of free values used. -/
  fresh : Nat := 0
  /-- Register words that the map of a chapter gives and no structured field below holds, by register-space
  offset; an unlisted word holds its reset value. -/
  regs : SMap W32 := []
  chip : Chip := {}
  aon : Aon := {}
  sec : Sec := {}
  rcd : Recorder := {}
  cfg : Cfg := {}
  flash : Flash := []
  st : Stitch := {}
  /-- Two-wire ports by number (R404). -/
  tw : SMap TwPort := []
  mem : Mem := {}
  time : TrayTime := {}
  press : Press := {}
  meter : Meter := {}
  heat : Heat := {}
  budget : Budget := {}
  assure : Assure := {}
  /-- Gheplane ports by index (R214). -/
  ports : SMap Port := []
  torus : Torus := {}
  su : Suorta := {}
  mbx : SMap Mailbox := []
  /-- MCTP messages sent: port (0 TW30, 1 TW31), message tag, bytes of the message. -/
  mctpOut : List (Nat × Nat × Bytes) := []
  longs : List Long := []
  deriving DecidableEq, Repr

/-- The machine right after reset: SYSRST_N held low, the tray in OFF, every register at its reset value. -/
def State.reset : State := {}

end Sys2Proof.Machine
end

