-- ==== Sys2Proof/Machine/Ops.lean ====
section
/-! DEFINITION. The named operations every family shares: register words, counters, events and records,
notices, frames towards the host and flits towards a port's partner.
Log entries coded here: 4 (DESIGN CHOICE), 9 (DEDUCED), 24 (DESIGN CHOICE), 49 (DEDUCED), 127 (DEDUCED), 140
(DEDUCED), 200 (DEDUCED), 203 (DEDUCED), 216 (DESIGN CHOICE), 245 (DEDUCED), 246 (DESIGN CHOICE). -/

namespace Sys2Proof.Machine

/-! Register words -/

/-- The word of a stored register; an unwritten one holds its reset value. -/
def rd (s : State) (off : Nat) : W32 :=
  match s.regs.find off with
  | some v => v
  | none => regReset off

/-- Store a register word. -/
def wr (off : Nat) (v : W32) (s : State) : State :=
  { s with regs := if v = regReset off then s.regs.erase off else s.regs.insert off v }

/-- The word as a number. -/
def rdN (s : State) (off : Nat) : Nat := (rd s off).toNat

/-- Set bits of a stored register. -/
def setBits (off : Nat) (m : Nat) (s : State) : State := wr off (rd s off ||| BitVec.ofNat 32 m) s

/-- Clear bits of a stored register. -/
def clrBits (off : Nat) (m : Nat) (s : State) : State := wr off (rd s off &&& ~~~(BitVec.ofNat 32 m)) s

/-- Store a field of a register. -/
def wrFld (off hi lo v : Nat) (s : State) : State := wr off (putFld (rd s off) hi lo v) s

/-- A field of a stored register. -/
def rdFld (s : State) (off hi lo : Nat) : Nat := fld (rd s off) hi lo

/-- A bit of a stored register. -/
def rdBit (s : State) (off n : Nat) : Bool := bitAt (rd s off) n

/-- Add to a counter register, saturating (R222, R247, R493 and the other counters). -/
def bumpBy (off n : Nat) (s : State) : State :=
  wr off (BitVec.ofNat 32 (min (rdN s off + n) 0xFFFFFFFF)) s

/-- Count one occurrence in a counter register, saturating. -/
def bump (off : Nat) (s : State) : State := bumpBy off 1 s

/-- Drop stored words for which `p` holds: they read as their reset values again. -/
def dropRegs (p : Nat → Bool) (s : State) : State := { s with regs := s.regs.keep (fun o => !p o) }

/-- Apply one REGS entry of a configuration: VALUE under MASK (R478). -/
def applyReg (e : RegEntry) (s : State) : State :=
  wr e.off ((rd s e.off &&& ~~~e.mask) ||| (e.val &&& e.mask)) s

/-- Apply the entries of the generation in force whose register `p` names, in order: a block whose island powers up
receives its values (R478). -/
def loadRegs (p : Nat → Bool) (s : State) : State :=
  (s.cfg.regs.filter (fun e => p e.off)).foldl (fun a e => applyReg e a) s

/-- A fresh index into a free value (the model's own counter). -/
def takeFresh (s : State) : State := { s with fresh := s.fresh + 1 }

/-! Time and cores -/

/-- Operating time, 1 ms units (R464). -/
def now (s : State) : Nat := s.aon.optime

/-- Whether a core runs: its CORE_DOWN bit is clear (R428). -/
def coreUp (k : Nat) (s : State) : Bool := !s.aon.coreDown.getLsbD k

/-- An island is powered (ISLAND_PWR). -/
def islandOn (i : Nat) (s : State) : Bool := s.chip.islands.getLsbD i

/-- An island answers: powered, and not in the course of powering down (R17). -/
def islandAnswers (i : Nat) (s : State) : Bool := islandOn i s && !s.chip.draining.getLsbD i

/-! Events (R465 to R474) -/

/-- Whether every event of a class and code carries KEEP (R469). -/
def keepEvent (cls code : Nat) : Bool :=
  match cls, code with
  | 1, _ => true
  | 2, _ => true
  | 9, _ => true
  | 11, _ => true
  | 12, _ => true
  | 3, 5 => true
  | 6, 4 => true
  | 8, 2 => true
  | 10, 4 => true
  | 13, 1 => true
  | _, _ => false

/-- Room in the queue of 64, 16 places of which are kept for KEEP events (R468). -/
def eventRoom (e : Ev) (s : State) : Bool := s.rcd.queue.length < (if e.keep then 64 else 48)

/-- Queue an event, or lose it. -/
def enqueueEvent (e : Ev) (s : State) : State :=
  if eventRoom e s then
    { s with rcd.queue := s.rcd.queue ++ [e] }
  else bump R.CNT_LOST { s with rcd.lost := s.rcd.lost + 1 }

/-- Whether a coalescer entry has an event's key and may take it (R470, R471). -/
def Coal.takes (c : Coal) (e : Ev) (t : Nat) : Bool :=
  c.cls == e.cls && c.code == e.code && c.inst == e.inst && t ≤ c.last + 1000
    && (c.keep || !e.keep) && c.count < 0xFFFFFFFE

/-- Whether a coalescer entry has an event's key. -/
def Coal.keyOf (c : Coal) (e : Ev) : Bool := c.cls == e.cls && c.code == e.code && c.inst == e.inst

/-- A flush writes REPEAT as the total count into the record, in Tumble and in Keep (R471). -/
def flushInto (q n : Nat) (rs : List EvRec) : List EvRec :=
  rs.map (fun r => if r.seq = q then { r with rep := some n } else r)

/-- The last queued event of an entry's key takes the repeats: its record is committed first (R471). -/
def flushQueued (c : Coal) (n : Nat) (es : List Ev) : List Ev :=
  match es with
  | [] => []
  | e :: t =>
    if c.keyOf e && !t.any (fun f => c.keyOf f) then { e with rep := some n } :: t
    else e :: flushQueued c n t

/-- Flush one coalescer entry into its record (R471); SEQ 0 stands for a record still in the queue. -/
def flushEntry (c : Coal) (r : Recorder) : Recorder :=
  if c.seq = 0 then { r with queue := flushQueued c c.count r.queue } else
  { r with tumble := flushInto c.seq c.count r.tumble, keep := flushInto c.seq c.count r.keep }

/-- Flush every entry and free them all (R471, R473). -/
def flushAll (r : Recorder) : Recorder :=
  let r' := r.coal.foldl (fun a c => flushEntry c a) r
  { r' with coal := [] }

/-- The entry used longest ago. -/
def oldestCoal (cs : List Coal) : Option Coal :=
  cs.foldl (fun o c => match o with
    | none => some c
    | some b => if c.last < b.last then some c else some b) none

/-- Give an event that writes a record its coalescer entry, evicting where none is free (R470). -/
def takeEntry (e : Ev) (t : Nat) (r : Recorder) : Recorder :=
  let same := r.coal.filter (fun c => c.keyOf e)
  let r1 := same.foldl (fun a c => flushEntry c a) r
  let r2 := { r1 with coal := r1.coal.filter (fun c => !c.keyOf e) }
  let r3 := if r2.coal.length < 8 then r2 else
    match oldestCoal r2.coal with
    | none => r2
    | some c => { flushEntry c r2 with coal := r2.coal.erase c }
  { r3 with coal := r3.coal ++ [⟨e.cls, e.code, e.inst, e.keep, 0, 0, t, t⟩] }

/-- An event is coalesced, queued or lost (R468, R470). -/
def raiseEvent (e : Ev) (s : State) : State :=
  if rdBit s R.EV_CTRL 0 && s.rcd.coal.any (fun c => c.takes e (now s)) then
    bump R.CNT_COALESCED
      { s with rcd.coal := s.rcd.coal.map (fun c =>
          if c.takes e (now s) then { c with count := c.count + 1, last := now s } else c) }
  else if eventRoom e s then
    enqueueEvent e (if rdBit s R.EV_CTRL 0 then { s with rcd := takeEntry e (now s) s.rcd } else s)
  else enqueueEvent e s

/-- Raise the event of a class and code, about a unit, with its data (R469). -/
def raise (cls code inst : Nat) (data : Bytes) (s : State) : State :=
  raiseEvent ⟨cls, code, inst, keepEvent cls code, data, none⟩ s

/-- INSTANCE of an event that concerns no unit (R465). -/
abbrev noInst : Nat := 0xFFFF

/-- A register word as event data (R469). -/
def regData (w : W32) : Bytes := leBytes 4 w.toNat

/-- A transaction tag that is not in use, counting up from `next`. -/
def freeTag (fuel next : Nat) (used : List Nat) : Nat :=
  match fuel with
  | 0 => next % 4096
  | k + 1 => if used.contains (next % 4096) then freeTag k (next + 1) used else next % 4096

/-! Frames towards the host (R252 to R255) -/

/-- Chunks of a frame (R252). -/
def Frame.chunks (f : Frame) : Nat := 1 + (f.data.length + 31) / 32

/-- Bytes that unacknowledged frames hold of the retry buffer (R255). -/
def suRetryBytes (u : Suorta) : Nat := u.retry.foldl (fun a x => a + 32 * x.item.chunks) 0

/-- Whether a frame may go now: the link UP (or in IDENT for CTRL), credit for each of its chunks, room in the retry buffer. -/
def frameReady (u : Suorta) (f : Frame) : Bool :=
  (u.st == .up || (u.st == .ident && f.ch == 5)) && (f.ch == 5 || f.chunks ≤ u.credit.get 0 f.ch)
    && suRetryBytes u + 32 * f.chunks ≤ 262144

/-- The link fields of the next flit or frame: ACK of the last SEQ received in order, and the buffers freed on the first channel
that owes any, at most 255 (R221, R252). -/
def carriedNow (rxAny : Bool) (rxSeq : Nat) (owed : SMap Nat) : Carried :=
  let ack := if rxAny then some ((rxSeq + 4095) % 4096) else none
  match owed with
  | [] => { ack := ack }
  | e :: _ => { ack := ack, ch := e.1, count := min 255 e.2 }

/-- What is still owed once link fields have gone. -/
def Carried.settle (c : Carried) (owed : SMap Nat) : SMap Nat :=
  if c.count = 0 then owed else SMap.upd 0 owed c.ch (fun n => n - c.count)

/-- Send one frame: it takes the next SEQ, its credits and a place in the retry buffer, and carries ACK and a credit return (R252,
R254, R255). -/
def sendNow (u : Suorta) (f : Frame) : Suorta :=
  let c := carriedNow u.rxAny u.rxSeq u.owed
  { u with
    owed := c.settle u.owed
    retry := u.retry ++ [⟨u.txSeq, 0, f, c⟩]
    txSeq := (u.txSeq + 1) % 4096
    credit := if f.ch = 5 then u.credit else SMap.upd 0 u.credit f.ch (fun c => c - f.chunks) }

/-- Send what may go, in order within each channel; what may not waits. -/
def suPumpGo (fs : List Frame) (u : Suorta) (held : List Frame) : Suorta :=
  match fs with
  | [] => { u with queue := held }
  | f :: t =>
    if held.any (fun g => g.ch == f.ch) || !frameReady u f then suPumpGo t u (held ++ [f])
    else suPumpGo t (sendNow u f) held

/-- Send every waiting frame that may go. -/
def suPump (u : Suorta) : Suorta := suPumpGo u.queue u []

/-- Hand a frame to the link. -/
def sendFrame (f : Frame) (s : State) : State :=
  { s with su := suPump { s.su with queue := s.su.queue ++ [f] } }

/-! Notices (R269) -/

/-- The 32 bytes of a notice. -/
def noticeBytes (kind : Nat) (n : Notice) (optime : Nat) : Bytes :=
  leBytes 2 kind ++ leBytes 2 n.arg ++ leBytes 2 n.status ++ zeros 2 ++ leBytes 8 n.value
    ++ leBytes 8 optime ++ zeros 8

/-- Whether a notice can go: the link UP and one chunk of NOTIFY credit for its header and one for its data. -/
def noticeReady (s : State) : Bool := s.su.st == .up && 2 ≤ s.su.credit.get 0 3

/-- Send a notice now, or hold the latest of its kind in NOTICE_PEND (R269). -/
def emitNotice (kind : Nat) (n : Notice) (s : State) : State :=
  if noticeReady s && (s.su.pend.get none kind).isNone then
    sendFrame { ch := 3, op := 0x41, len := 32, data := noticeBytes kind n (now s) } s
  else { s with su.pend := SMap.set none s.su.pend kind (some n) }

/-- A notice of a kind, where NOTICE_CTRL enables it (R269). -/
def notice (kind arg status value : Nat) (s : State) : State :=
  if rdBit s R.NOTICE_CTRL kind then emitNotice kind ⟨arg, status, value⟩ s else s

/-- One notice per pending kind, once credit is back (R269). -/
def sendPending (ks : List Nat) (s : State) : State :=
  match ks with
  | [] => s
  | k :: t =>
    match s.su.pend.get none k with
    | some n =>
      if noticeReady s then
        sendPending t (sendFrame { ch := 3, op := 0x41, len := 32, data := noticeBytes k n (now s) }
          { s with su.pend := SMap.set none s.su.pend k none })
      else sendPending t s
    | none => sendPending t s

/-! Flits towards a partner (R221 to R229) -/

/-- The message's flits, 224 payload bytes each (R221). -/
def flitsOf (m : Msg) (vc : Nat) (n i : Nat) (rest : Bytes) : List Flit :=
  match n with
  | 0 => []
  | k + 1 =>
    { ftype := 1, vc := vc, cls := m.cls, typ := m.typ, first := i == 0, last := k == 0,
      poison := bitsOf 7 (fun w => m.poison.contains (7 * i + w)), dst := m.dst, loc := m.loc, src := m.src,
      tag := m.tag, len := m.len, hops := m.hops, endpoint := m.endpoint, hdr := m.hdr,
      data := fix 224 (rest.take 224) } :: flitsOf m vc k (i + 1) (rest.drop 224)

/-- All flits of a message on a virtual channel: max(1, ceil(L / 224)) of them (R221). -/
def msgFlits (m : Msg) (vc : Nat) : List Flit :=
  flitsOf m vc (max 1 ((m.payload.length + 223) / 224)) 0 m.payload

/-- Class of a flit: REQ or RSP (R227). -/
def Flit.rsp (f : Flit) : Bool := f.vc / 2 % 2 == 1

/-- The message that a flit is of, on its way out: where it came in, source, tag. -/
def Flit.key (f : Flit) : Option Nat × Nat × Nat := (f.via, f.src, f.tag)

/-- Kinds of traffic that share a virtual channel: forwarded, injected here, FWD injected here (R229, R235). -/
def Flit.group (f : Flit) : Nat := if f.via.isSome then 0 else if f.cls = 7 then 2 else 1

/-- Whether a flit may go now: the port UP (or in IDENT for CTRL), room in the retry buffer, and a credit for
its virtual channel (R224, R227). In TEST no service traffic goes, from the far end of a loopback nothing of its own, and the
generator's flits, of class 0, which no receiver keeps, take no credit (R244). -/
def flitReady (p : Port) (f : Flit) : Bool :=
  (p.st == .up || (p.st == .test && !p.farLoop && (f.ftype == 2 || f.cls == 0)) || (p.st == .ident && f.ftype == 2))
    && p.retry.length < 512 && (f.ftype == 2 || p.st == .test || 0 < p.credit.get 0 f.vc)

/-- A flit is the next of its own sequence: CTRL flits in order; on a virtual channel the message under way goes on, and else the
oldest flit of each kind of traffic (R229). -/
def flitNext (p : Port) (before : List Flit) (f : Flit) : Bool :=
  if f.ftype = 2 then before.all (fun g => g.ftype != 2)
  else match p.out.get none f.vc with
    | some k => f.key = k && before.all (fun g => g.ftype == 2 || g.vc != f.vc || g.key != k)
    | none => before.all (fun g => g.ftype == 2 || g.vc != f.vc || g.group != f.group)

/-- Order in which a slot is given (R229): CTRL, RSP, REQ; in a class forwarded flits first, but after seven of them in a row one
injected here where one waits; FWD last of those injected (R235). -/
def flitRank (p : Port) (f : Flit) : Nat :=
  if f.ftype = 2 then 0
  else (if f.rsp then 1 else 5) +
    (match f.group with
     | 0 => if 7 ≤ p.run.get 0 (b2n f.rsp) then 3 else 0
     | g => g)

/-- The waiting flits that may go now. -/
def flitsThatMay (p : Port) (before : List Flit) (fs : List Flit) : List Flit :=
  match fs with
  | [] => []
  | f :: t => (if flitReady p f && flitNext p before f then [f] else []) ++ flitsThatMay p (before ++ [f]) t

/-- The flit that takes the next slot. -/
def flitChoice (p : Port) : Option Flit :=
  (flitsThatMay p [] p.queue).foldl (fun o f => match o with
    | none => some f
    | some g => if flitRank p f < flitRank p g then some f else some g) none

/-- Send one flit: it takes the next SEQ and its credit, and carries ACK and a credit return (R221, R224, R227). -/
def flitNow (p : Port) (f : Flit) : Port :=
  let c := carriedNow p.rxAny p.rxSeq p.owed
  let p1 := { p with
    owed := c.settle p.owed
    retry := p.retry ++ [⟨p.txSeq, 0, f, c⟩]
    txSeq := (p.txSeq + 1) % 4096 }
  if f.ftype = 2 then p1
  else { p1 with
    credit := if p.st = .test then p.credit else SMap.upd 0 p.credit f.vc (fun c => c - 1)
    out := SMap.set none p.out f.vc (if f.last then none else some f.key)
    run := SMap.upd 0 p.run (b2n f.rsp) (fun n => if f.via.isSome then n + 1 else 0) }

/-- Fill slots while a waiting flit may go. -/
def portPumpGo (fuel : Nat) (p : Port) : Port :=
  match fuel with
  | 0 => p
  | n + 1 =>
    match flitChoice p with
    | some f => portPumpGo n (flitNow { p with queue := p.queue.erase f } f)
    | none => p

/-- Send every waiting flit that may go. -/
def portPump (p : Port) : Port := portPumpGo p.queue.length p

/-- Port k. -/
def port (s : State) (k : Nat) : Port := s.ports.get {} k

/-- Change port k. -/
def setPort (k : Nat) (f : Port → Port) (s : State) : State := { s with ports := SMap.upd {} s.ports k f }

/-- Hand flits to port k. -/
def sendFlits (k : Nat) (fs : List Flit) (s : State) : State :=
  setPort k (fun p => portPump { p with queue := p.queue ++ fs }) s

/-- Remove from a port's inbox the first message of a class and type with this payload. -/
def takeInbox (k cls typ : Nat) (payload : Bytes) (s : State) : State :=
  setPort k (fun p =>
    match p.inbox.find? (fun m => m.cls == cls && m.typ == typ && m.payload == payload) with
    | some m => { p with inbox := p.inbox.erase m }
    | none => p) s

/-- A CTRL flit of a kind leaves the inbox. -/
def takeCtrl (k kind : Nat) (payload : Bytes) (s : State) : State := takeInbox k (0x80 + kind) 0 payload s

/-- A CTRL flit of a kind (R223). -/
def ctrlFlit (kind : Nat) (payload : Bytes) : Flit :=
  { ftype := 2, cls := kind, len := payload.length, data := fix 224 payload }

/-- Send a CTRL flit on port k. -/
def sendCtrl (k kind : Nat) (payload : Bytes) (s : State) : State := sendFlits k [ctrlFlit kind payload] s

/-- Hand a message to the accelerator of port a, which is not routed (R221): VC0 for REQ, VC2 for RSP (R227). -/
def passAcc (a : Nat) (rsp : Bool) (m : Msg) (s : State) : State :=
  sendFlits a (msgFlits { m with loc := true, endpoint := a + 1 } (if rsp then 2 else 0)) s

/-- Send a message of this node to the accelerator of port a. -/
def sendAcc (a : Nat) (rsp : Bool) (m : Msg) (s : State) : State :=
  passAcc a rsp { m with src := rdFld s R.NODE_ID 10 0 } s

end Sys2Proof.Machine
end

