-- ==== Sys2Proof/Machine/Route.lean ====
section
/-! DEFINITION. Routing on the seam torus (R236 to R239): the link table, the XY and YX paths, and the
injection of messages. -/

namespace Sys2Proof.Machine

/-- This node's identity: NODE of NODE_ID (R32). -/
def nodeId (s : State) : Nat := rdFld s R.NODE_ID 10 0

/-- X and Y of a node: X in [10:5], Y in [4:0]. -/
def nodeX (n : Nat) : Nat := n / 32
def nodeY (n : Nat) : Nat := n % 32

/-- The node at (x, y). -/
def nodeAt (x y : Nat) : Nat := 32 * x + y

/-- Torus sizes from TORUS_DIM. -/
def sizeX (s : State) : Nat := rdFld s R.TORUS_DIM 5 0 + 1
def sizeY (s : State) : Nat := rdFld s R.TORUS_DIM 12 8 + 1

/-- Both VALID bits are set and NODE lies within the torus (R32). -/
def identityOk (s : State) : Bool :=
  rdBit s R.NODE_ID 31 && rdBit s R.TORUS_DIM 31
    && nodeX (nodeId s) < sizeX s && nodeY (nodeId s) < sizeY s

/-- A node that TORUS_DIM has room for (R28). -/
def nodeInTorus (s : State) (n : Nat) : Bool :=
  rdBit s R.TORUS_DIM 31 && nodeX n < sizeX s && nodeY n < sizeY s

/-- A link table entry (R237). -/
def linkOf (s : State) (l : Nat) : LinkEntry := s.torus.links.get {} l

/-- A link is UP. -/
def linkUp (s : State) (l : Nat) : Bool := (linkOf s l).up

/-- Seam port 8 + k: its neighbour (R214). -/
def seamNeighbour (s : State) (k : Nat) : Nat :=
  let x := nodeX (nodeId s)
  let y := nodeY (nodeId s)
  match k with
  | 0 => nodeAt ((x + 1) % sizeX s) y
  | 1 => nodeAt ((x + sizeX s - 1) % sizeX s) y
  | 2 => nodeAt x ((y + 1) % sizeY s)
  | _ => nodeAt x ((y + sizeY s - 1) % sizeY s)

/-- The port of the neighbour that seam port 8 + k leads to (R214). -/
def seamPartner (k : Nat) : Nat :=
  match k with
  | 0 => 9
  | 1 => 8
  | 2 => 11
  | _ => 10

/-- The link of seam port 8 + k: link 2n is the +X link of node n, link 2n + 1 its +Y link (R237). -/
def seamLink (s : State) (k : Nat) : Nat :=
  match k with
  | 0 => 2 * nodeId s
  | 1 => 2 * seamNeighbour s 1
  | 2 => 2 * nodeId s + 1
  | _ => 2 * seamNeighbour s 3 + 1

/-- Whether this node owns the link of seam port 8 + k: it names the link (R237). -/
def ownsLink (k : Nat) : Bool := k == 0 || k == 2

/-- The links of one dimension's part of a route, from coordinate `c` to `t` in a ring of `n` nodes: `plus`
is the direction, `f` the link between a coordinate and the next one. -/
def ringLinks (fuel n : Nat) (f : Nat → Nat) (plus : Bool) (c t : Nat) : List Nat :=
  match fuel with
  | 0 => []
  | k + 1 =>
    if c = t then []
    else if plus then f c :: ringLinks k n f plus ((c + 1) % n) t
    else f ((c + n - 1) % n) :: ringLinks k n f plus ((c + n - 1) % n) t

/-- The shorter way round a ring, a tie going + (R236). -/
def goesPlus (c t n : Nat) : Bool := 2 * ((t + n - c) % n) ≤ n

/-- The links along X at row y, and along Y at column x. -/
def linksX (s : State) (plus : Bool) (y x0 x1 : Nat) : List Nat :=
  ringLinks (sizeX s) (sizeX s) (fun x => 2 * nodeAt x y) plus x0 x1
def linksY (s : State) (plus : Bool) (x y0 y1 : Nat) : List Nat :=
  ringLinks (sizeY s) (sizeY s) (fun y => 2 * nodeAt x y + 1) plus y0 y1

/-- Every link of a part is UP. -/
def allUp (s : State) (ls : List Nat) : Bool := ls.all (linkUp s)

/-- The XY path's links from a node to a node (R236). -/
def pathXY (s : State) (a b : Nat) : List Nat :=
  linksX s (goesPlus (nodeX a) (nodeX b) (sizeX s)) (nodeY a) (nodeX a) (nodeX b)
    ++ linksY s (goesPlus (nodeY a) (nodeY b) (sizeY s)) (nodeX b) (nodeY a) (nodeY b)

/-- The YX path's links. -/
def pathYX (s : State) (a b : Nat) : List Nat :=
  linksY s (goesPlus (nodeY a) (nodeY b) (sizeY s)) (nodeX a) (nodeY a) (nodeY b)
    ++ linksX s (goesPlus (nodeX a) (nodeX b) (sizeX s)) (nodeY b) (nodeX a) (nodeX b)

/-- The seam (0 to 3) on which a route leaves a node: X first for XY, Y first for YX. -/
def firstSeam (s : State) (yx : Bool) (a b : Nat) : Nat :=
  let sx := if goesPlus (nodeX a) (nodeX b) (sizeX s) then 0 else 1
  let sy := if goesPlus (nodeY a) (nodeY b) (sizeY s) then 2 else 3
  if yx then (if nodeY a = nodeY b then sx else sy) else (if nodeX a = nodeX b then sy else sx)

/-- The hop over seam k of this node crosses its ring's dateline, the wrap link (R236). -/
def crossesDateline (s : State) (k : Nat) : Bool :=
  let x := nodeX (nodeId s)
  let y := nodeY (nodeId s)
  match k with
  | 0 => x + 1 == sizeX s
  | 1 => x == 0
  | 2 => y + 1 == sizeY s
  | _ => y == 0

/-- The virtual channel: ORDER, CLASS and D (R227). -/
def vcOf (yx rsp d : Bool) : Nat := 4 * b2n yx + 2 * b2n rsp + b2n d

/-- The order a node takes for a message that it injects: XY, YX, or none where it is UNREACHABLE (R238). -/
def injectOrder (s : State) (dst : Nat) : Option Bool :=
  if allUp s (pathXY s (nodeId s) dst) then some false
  else if allUp s (pathYX s (nodeId s) dst) then some true
  else none

/-- A message whose destination is another node, sent over the seams; `none` where it is UNREACHABLE. -/
def sendNode (rsp : Bool) (m : Msg) (s : State) : Option State :=
  if m.dst = nodeId s || !identityOk s || !nodeInTorus s m.dst then none
  else
    match injectOrder s m.dst with
    | none => none
    | some yx =>
      let k := firstSeam s yx (nodeId s) m.dst
      let vc := vcOf yx rsp (crossesDateline s k)
      some (sendFlits (8 + k) (msgFlits { m with src := nodeId s, hops := 1 } vc) s)

/-- Send a message over the seams; one that is UNREACHABLE is counted and dropped. -/
def sendNodeOrCount (rsp : Bool) (m : Msg) (s : State) : State :=
  match sendNode rsp m s with
  | some t => t
  | none => bump R.CNT_UNREACH s

end Sys2Proof.Machine
end

