-- ==== Sys2Proof/Machine/Mailbox.lean ====
section
/-! DEFINITION. Mailboxes and orders (R265 to R274): the order header, replies, long orders and their ends.
Log entries coded here: 148 (DEDUCED), 150 (DEDUCED). -/

namespace Sys2Proof.Machine

/-- Mailbox n. -/
def mbox (s : State) (n : Nat) : Mailbox := s.mbx.get {} n

/-- Change mailbox n. -/
def setMb (n : Nat) (f : Mailbox → Mailbox) (s : State) : State := { s with mbx := SMap.upd {} s.mbx n f }

/-! Status codes (R274) -/

abbrev St.DONE : Nat := 0x0000
abbrev St.ACCEPTED : Nat := 0x0001
abbrev St.HELD_RESTARTING : Nat := 0x0002
abbrev St.DEFERRED : Nat := 0x0003
abbrev St.BAD_VERSION : Nat := 0x0100
abbrev St.BAD_OPCODE : Nat := 0x0101
abbrev St.BAD_LENGTH : Nat := 0x0102
abbrev St.BAD_PARAM : Nat := 0x0103
abbrev St.DENIED_AUTH : Nat := 0x0200
abbrev St.DENIED_PRECEDENCE : Nat := 0x0201
abbrev St.DENIED_STARCH : Nat := 0x0202
abbrev St.BUSY : Nat := 0x0300
abbrev St.FAULT : Nat := 0x0400

/-- The TAL2 status of a version 3 status (R277). -/
def tal2Status (st : Nat) : Nat :=
  if st = St.DONE then 0x00
  else if st = St.BUSY || st = St.HELD_RESTARTING || st = St.DEFERRED then 0x01
  else if st = St.BAD_OPCODE || st = St.BAD_VERSION then 0x02
  else if st = St.BAD_LENGTH || st = St.BAD_PARAM then 0x03
  else if st = St.FAULT then 0x06
  else 0x05

/-- The request in the buffer is in the TAL2 format: MAJOR is 2 (R276, R277). -/
def isTal2 (req : Bytes) : Bool := leAt req 2 1 == 2

/-- TAG of a request, in either format. -/
def orderTag (req : Bytes) : Nat := if isTal2 req then leAt req 6 2 else leAt req 8 4

/-- A version 3 reply: the request header with REPLY, STATUS and LENGTH filled in, then the payload (R274). -/
def replyV3 (req : Bytes) (st : Nat) (payload : Bytes) : Bytes :=
  fix 6 (req.take 6) ++ leBytes 2 (leAt req 6 2 ||| 2) ++ leBytes 4 (leAt req 8 4) ++ leBytes 4 payload.length
    ++ leBytes 2 st ++ fix 14 (slice req 18 14) ++ payload

/-- A TAL2 reply (R277). -/
def replyV2 (req : Bytes) (st : Nat) (payload : Bytes) : Bytes :=
  fix 5 (req.take 5) ++ leBytes 1 (leAt req 5 1 ||| 1) ++ leBytes 2 (leAt req 6 2) ++ leBytes 2 payload.length
    ++ leBytes 2 st ++ zeros 4 ++ payload

/-- The reply in the request's own format. -/
def replyBytes (req : Bytes) (st : Nat) (payload : Bytes) : Bytes :=
  if isTal2 req then replyV2 req (tal2Status st) payload else replyV3 req st payload

/-- Payload of a reply whose status is not DONE: DETAIL and REASON (R274). -/
def detail (off reason : Nat) : Bytes := leBytes 4 off ++ leBytes 4 reason

/-- DETAIL that names no field. -/
abbrev noDetail : Nat := 0xFFFFFFFF

/-- Bring a mailbox back to IDLE; a version reset of R264 that waited happens now. -/
def mbIdle (n : Nat) (s : State) : State :=
  let s1 := setMb n (fun m => { m with st := .idle, committed := false }) s
  if s1.su.verReset.getLsbD n then
    setMb n (fun m => { m with major := 3, minor := 2 })
      { s1 with su.verReset := s1.su.verReset &&& ~~~(1#16 <<< n) }
  else s1

/-- The vendor identifier of MCTP_IANA in a message, most significant byte first as DSP0236 has it, which R278 cites. -/
def ianaBytes : Bytes := (leBytes 4 Config.mctpIana.toNat).reverse

/-- An order or its reply as an MCTP message of type 0x7F, after the vendor identifier (R278). -/
def mctpBody (bytes : Bytes) : Bytes := [0x7F#8] ++ ianaBytes ++ bytes

/-- The reply is written in full, and only then is the mailbox REPLIED (R266); MB_DONE counts it, and a
notice follows where NOTIFY_EN is one (R269). A reply that leaves as an MCTP message or as ORDER_REPLY is sent,
and the mailbox hardware releases the mailbox. -/
def writeReply (n : Nat) (bytes : Bytes) (s : State) : State :=
  let back := (mbox s n).backTo
  let s1 := bump (R.MB_DONE n) (setMb n (fun m => { m with rep := bytes, st := .replied }) s)
  let s2 := if rdBit s1 (R.MB_CFG n) 0 then notice 1 n 0 0 s1 else s1
  if n = 12 || n = 13 then
    mbIdle n { s2 with mctpOut := s2.mctpOut ++ [(n - 12, back, mctpBody bytes)] }
  else if n = 14 then
    mbIdle n (sendNodeOrCount true
      { cls := 5, typ := 0x11, dst := back % 2048, tag := back / 2048, len := bytes.length, payload := bytes } s2)
  else s2

/-- Answer the order in mailbox n. -/
def reply (n st : Nat) (payload : Bytes) (s : State) : State :=
  writeReply n (replyBytes (mbox s n).req st payload) s

/-- Answer with a status other than DONE; CNT_AUTH_FAIL counts the orders refused DENIED_AUTH (R461). -/
def replyFail (n st off reason : Nat) (s : State) : State :=
  reply n st (if st = St.HELD_RESTARTING then [] else detail off reason)
    (if st = St.DENIED_AUTH then bump R.CNT_AUTH_FAIL s else s)

/-! Long orders (R273) -/

/-- COMPLETION of a request: bit 2 of FLAGS; one for the TAL2 commands that R277 carries out so. -/
def completionBit (req : Bytes) : Bool := isTal2 req || (leAt req 6 2).testBit 2

/-- An L order has passed its checks: ACCEPTED and the mailbox free, or EXECUTING until it ends (R273). -/
def acceptLong (kind : LongKind) (n : Nat) (s : State) : State :=
  let req := (mbox s n).req
  let l : Long := ⟨kind, n, orderTag req, completionBit req⟩
  let s1 := { s with longs := s.longs ++ [l] }
  if completionBit req then setMb n (fun m => { m with st := .executing, committed := true }) s1
  else reply n St.ACCEPTED (detail noDetail 0) s1

/-- Answer one long order that has ended: the reply where the mailbox was held, otherwise a COMPLETION notice. -/
def endLong (l : Long) (st : Nat) (payload : Bytes) (s : State) : State :=
  if l.hold then
    (if (mbox s l.mb).st = .executing then reply l.mb st payload s else s)
  else notice 2 l.mb st l.tag s

/-- End every long order of a kind. -/
def finishLongs (p : LongKind → Bool) (st : Nat) (payload : Bytes) (s : State) : State :=
  let done := s.longs.filter (fun l => p l.kind)
  let s1 := { s with longs := s.longs.filter (fun l => !p l.kind) }
  done.foldl (fun a l => endLong l st payload a) s1

/-- End the long orders of one kind. -/
def finishLong (k : LongKind) (st : Nat) (payload : Bytes) (s : State) : State :=
  finishLongs (fun x => x == k) st payload s

end Sys2Proof.Machine
end

