-- ==== Sys2Proof/Machine/TwOps.lean ====
section
/-! DEFINITION. Operations on the two-wire ports (13): states, the order in which requests are served, and
the gate in front of the VCORE regulator (R443).
Log entries coded here: 194 (DEDUCED), 271 (DEDUCED), 272 (DEDUCED). -/

namespace Sys2Proof.Machine

/-- STATE of TW_STATE (R423): 0 OFF, 1 IDLE, 2 BUSY_OWN, 3 BUSY_OTHER, 4 RECOVERING, 5 STUCK, 6 STANDBY,
7 SELFTEST. -/
def twState (n : Nat) (s : State) : Nat := rdFld s (R.TW_STATE n) 2 0

/-- Move a port to a state. -/
def twGo (n st : Nat) (s : State) : State := wrFld (R.TW_STATE n) 2 0 st s

/-- The lines' levels in TW_STATE: SCL bit 8, SDA bit 9, RST asserted bit 10. -/
def twLines (n : Nat) (scl sda rst : Bool) (s : State) : State :=
  wrFld (R.TW_STATE n) 10 8 (b2n scl + 2 * b2n sda + 4 * b2n rst) s

/-- MODE of TW_CTRL: 0 off, 1 controller, 2 target, 3 both (R404). -/
def twMode (n : Nat) (s : State) : Nat := rdFld s (R.TW_CTRL n) 1 0

/-- The port may start transactions: a controller mode. -/
def twController (n : Nat) (s : State) : Bool := twMode n s % 2 == 1

/-- The port answers as target: a target mode and EN in TW_TGT. -/
def twTarget (n : Nat) (s : State) : Bool := 2 ≤ twMode n s && rdBit s (R.TW_TGT n) 31

/-- The requests of port n. -/
def twPort (s : State) (n : Nat) : TwPort := s.tw.get {} n

/-- Change the requests of port n. -/
def setTw (n : Nat) (f : TwPort → TwPort) (s : State) : State := { s with tw := SMap.upd {} s.tw n f }

/-- Whether a request is a core's. -/
def TwReq.isCore (r : TwReq) : Bool := r.what == .core

/-- Whether a request is the stitch engine's, or the AON island's own, and no core's: the power-management core's reads and writes of
an FRU come with the cores. -/
def TwReq.isEngine (r : TwReq) : Bool :=
  match r.what with
  | .action _ | .margin _ | .mode _ | .gate => true
  | _ => false

/-- The next request: the stitch engine first, the cores second (R405). -/
def nextTw (q : List TwReq) : Option TwReq :=
  match q.find? TwReq.isEngine with
  | some r => some r
  | none => q.head?

/-- Start the next request where the bus is idle (R405, R408). STANDBY is the target function's alone, and the controller function
goes on in it. DEDUCED. -/
def twServe (n : Nat) (s : State) : State :=
  let p := twPort s n
  if (twState n s = 1 || twState n s = 6) && p.cur.isNone && twController n s then
    match nextTw p.queue with
    | none => s
    | some r => twGo n 2 (setTw n (fun p => { p with cur := some r, queue := p.queue.erase r }) s)
  else s

/-- Hand a transaction of the stitch engine to a port. -/
def twEngine (n : Nat) (r : TwReq) (s : State) : State :=
  twServe n (setTw n (fun p => { p with queue := p.queue ++ [r] }) s)

/-- The result of a core's transaction: TW_XSTAT, and GO cleared (R423). -/
def twCoreEnd (n result count : Nat) (s : State) : State :=
  clrBits (R.TW_XFER n) 0x80000000
    (wr (R.TW_XSTAT n) (BitVec.ofNat 32 (result + 256 * (count % 256))) s)

/-- Queued requests of a port that goes OFF end: a core's with RESULT OFF. -/
def offRequests (n : Nat) (s : State) : State :=
  let q := (twPort s n).queue
  let s1 := setTw n (fun p => { p with queue := p.queue.filter (fun r => !r.isCore) }) s
  if q.any TwReq.isCore then twCoreEnd n 7 0 s1 else s1

/-- The bus is idle again: serve the next requester, or carry out a MODE 0 or an enable that waited. -/
def twFree (n : Nat) (s : State) : State :=
  let p := twPort s n
  if p.releasing then
    let s1 := setTw n (fun p => { p with releasing := false, cur := none }) (twLines n true true false (twGo n 0 s))
    if p.enableWaits then
      twGo n 4 (bump (R.TW_CNT_RECOVER n) (setTw n (fun p => { p with enableWaits := false }) s1))
    else offRequests n s1
  else twServe n (twGo n 1 s)

/-- Start stuck-bus recovery (R413): CNT_RECOVER counts it. -/
def twRecover (n : Nat) (s : State) : State := bump (R.TW_CNT_RECOVER n) (twGo n 4 s)

/-- The PMC island loses its supply: every line is released, and a core's transaction ends with RESULT OFF (R405). -/
def twPowerDown (s : State) : State :=
  let s1 := (List.range 32).foldl (fun a n =>
    twLines n false false false (twGo n 0 (if rdBit a (R.TW_XSTAT n) 31 then twCoreEnd n 7 0 a else a))) s
  { s1 with tw := [] }

/-- The bytes of a buffer of the port that starts at word register `off`. -/
def regBytes (s : State) (off : Nat) (n : Nat) : Bytes :=
  match n with
  | 0 => []
  | k + 1 => regBytes s off k ++ [BitVec.ofNat 8 (rdN s (off + 4 * (k / 4)) >>> (8 * (k % 4)))]

/-- Write bytes into the words from `off` on, at byte `i`. -/
def wrBytes (off i : Nat) (bs : Bytes) (s : State) : State :=
  match bs with
  | [] => s
  | b :: t =>
    wrBytes off (i + 1) t (wrFld (off + 4 * (i / 4)) (8 * (i % 4) + 7) (8 * (i % 4)) b.toNat s)

end Sys2Proof.Machine
end

