-- ==== Sys2Proof/Machine/Rails.lean ====
section
/-! DEFINITION. Operations of the stitch engine (09): rail descriptors, enable and disable actions, failures,
shut-downs and their order, and the off requests they lead to.
Log entries coded here: 35 (DEDUCED), 40 (DEDUCED), 42 (DEDUCED), 157 (DEDUCED), 158 (DEDUCED), 159 (DEDUCED), 161
(DEDUCED), 162 (DEDUCED), 166 (PRESUMED), 167 (DEDUCED), 214 (DEDUCED), 244 (DEDUCED), 259 (DEDUCED), 260 (DEDUCED),
261 (DEDUCED), 262 (DEDUCED), 274 (DEDUCED). -/

namespace Sys2Proof.Machine

/-! Tray states -/

/-- TRAY_STATE as it reads (R19, R21). -/
def trayStateWord (s : State) : W32 :=
  BitVec.ofNat 32 (s.chip.tripKind * 256 + s.chip.prev.code * 16 + s.chip.tray.code)

/-- Move the tray to a state: PREV keeps the one before, the change is recorded, and the host is told (R19, R21,
R269, R469). -/
def setTray (t : Tray) (s : State) : State :=
  let s1 := { s with chip.prev := s.chip.tray, chip.tray := t }
  notice 4 t.code 0 0 (raise 0 1 noInst (regData (trayStateWord s1)) s1)

/-! Descriptors (R289) -/

/-- Rail r's descriptor byte i. -/
def descByte (img : Bytes) (r i : Nat) : Nat := leAt img (64 + 32 * r + i) 1

/-- A two-byte field of rail r's descriptor. -/
def descHalf (img : Bytes) (r i : Nat) : Nat := leAt img (64 + 32 * r + i) 2

def railPresent (img : Bytes) (r : Nat) : Bool := (descByte img r 0).testBit 0
def railCrit (img : Bytes) (r : Nat) : Bool := (descByte img r 0).testBit 1
def railEnLow (img : Bytes) (r : Nat) : Bool := (descByte img r 0).testBit 2
def railSoftOff (img : Bytes) (r : Nat) : Bool := (descByte img r 0).testBit 3
def railIsVcore (img : Bytes) (r : Nat) : Bool := (descByte img r 0).testBit 4
def railGroup (img : Bytes) (r : Nat) : Nat := descByte img r 1
def railEnKind (img : Bytes) (r : Nat) : Nat := descByte img r 2
def railEnIndex (img : Bytes) (r : Nat) : Nat := descByte img r 3
def railPmAddr (img : Bytes) (r : Nat) : Nat := descByte img r 4
def railPmPage (img : Bytes) (r : Nat) : Nat := descByte img r 5
def railPgKind (img : Bytes) (r : Nat) : Nat := descByte img r 6
def railPgIndex (img : Bytes) (r : Nat) : Nat := descByte img r 7
def railVnom (img : Bytes) (r : Nat) : Nat := descHalf img r 8
def railDeb (img : Bytes) (r : Nat) : Nat := descByte img r 22
def railMarginLim (img : Bytes) (r : Nat) : Nat := descByte img r 28
def railOffMv (img : Bytes) (r : Nat) : Nat := descHalf img r 14

/-- A rail has a PMBus path when EN_KIND is 1 or PG_KIND is 2; its port (R289). -/
def railHasPmbus (img : Bytes) (r : Nat) : Bool := railEnKind img r == 1 || railPgKind img r == 2
def railPmPort (img : Bytes) (r : Nat) : Nat :=
  if railEnKind img r = 1 then railEnIndex img r else railPgIndex img r

/-- Parents of a rail; 0xFF is none. -/
def railParents (img : Bytes) (r : Nat) : List Nat :=
  ((List.range 4).map (fun k => descByte img r (24 + k))).filter (fun p => p != 0xFF)

/-- Rail numbers with PRESENT set. -/
def presentRails (img : Bytes) : List Nat := (List.range 256).filter (railPresent img)

/-- Rail r. -/
def rail (s : State) (r : Nat) : Rail := s.st.rails.get {} r

/-- Change rail r. -/
def setRail (r : Nat) (f : Rail → Rail) (s : State) : State := { s with st.rails := SMap.upd {} s.st.rails r f }

/-- Group g is blocked in ST_GROUP_BLOCK (R302). -/
def groupBlocked (s : State) (g : Nat) : Bool := 1 ≤ g && g ≤ 8 && rdBit s R.ST_GROUP_BLOCK g

/-- A rail's group is blocked. -/
def railBlocked (s : State) (r : Nat) : Bool := groupBlocked s (railGroup s.st.image r)

/-- One round of dependants: present rails with a parent in the set (R301). -/
def growDeps (img : Bytes) (ds : List Nat) : List Nat :=
  ds ++ (presentRails img).filter (fun r => !ds.contains r && (railParents img r).any ds.contains)

/-- Rails reached from `ds` in `n` rounds. -/
def depsGo (img : Bytes) (n : Nat) (ds : List Nat) : List Nat :=
  match n with
  | 0 => ds
  | k + 1 =>
    let ds' := growDeps img ds
    if ds'.length = ds.length then ds else depsGo img k ds'

/-- The dependants of rail f: f is their parent, or the parent of one of their ancestors (R301). -/
def dependants (img : Bytes) (f : Nat) : List Nat := (depsGo img 256 [f]).filter (fun r => r != f)

/-! The stitch program (R296, R299) -/

/-- Stitches loaded. -/
def nStitch (img : Bytes) : Nat := leAt img 6 2

/-- A program is loaded. -/
def progValid (s : State) : Bool := !s.st.image.isEmpty

/-- MODE of the image: slot-table mode. -/
def slotMode (s : State) : Bool := leAt s.st.image 5 1 == 1

/-- Stitch i; an index at or above NSTITCH reads as all zeros (R293). -/
def stitchAt (img : Bytes) (i : Nat) : Nat := if i < nStitch img then leAt img (8256 + 8 * i) 8 else 0

/-- Fields of a stitch (R296). -/
def stOp (w : Nat) : Nat := w / 2 ^ 60 % 16
def stMod (w : Nat) : Nat := w / 2 ^ 56 % 16
def stRail (w : Nat) : Nat := w / 2 ^ 48 % 256
def stA (w : Nat) : Nat := w / 2 ^ 32 % 65536
def stB (w : Nat) : Nat := w % 2 ^ 32

/-- The slot table of a MODE 1 image (R312). -/
def slotTable (img : Bytes) : Bytes := img.drop (8256 + 8 * nStitch img)

/-- Rails of the valid slots, in ON_DLY order, ties in table order (R313). -/
def slotRails (img : Bytes) : List Nat :=
  let t := slotTable img
  let es := (List.range (leAt t 3 1)).filterMap (fun i =>
    if (leAt t (17 + 8 * i) 1).testBit 0 then some (leAt t (18 + 8 * i) 2, leAt t (16 + 8 * i) 1) else none)
  (sortBy (fun a b => a.1 ≤ b.1) es).map (fun e => e.2)

/-! Strands -/

/-- Strand s. -/
def strand (s : State) (n : Nat) : Strand := s.st.strands.get {} n

/-- Change strand n. -/
def setStrand (n : Nat) (f : Strand → Strand) (s : State) : State :=
  { s with st.strands := SMap.upd {} s.st.strands n f }

/-- Start a strand at an entry: a new run (R294). -/
def startStrand (n entry : Nat) (s : State) : State :=
  setStrand n (fun t => { t with run := 1, pc := entry, exec := 0, wait := .none, c := false, modes := [] }) s

/-- Strands may go on: the engine runs its standby part or its up part, or a group is being raised in READY. While a trip is in
force none does (R21, R310). -/
def strandsGo (s : State) : Bool :=
  !s.chip.tripForce && (s.st.phase == 0 || s.st.phase == 1 || s.st.phase == 2)

/-- A stitch of a strand completes: the next one starts, or the strand stops where SEQUENCING-DOWN has begun or a trip is in
force (R293, R307, R310). -/
def stitchDone (n : Nat) (s : State) : State :=
  if strandsGo s then setStrand n (fun t => { t with run := 1, pc := t.pc + 1, wait := .none }) s
  else setStrand n (fun t => { t with run := 0, wait := .none }) s

/-- The strand waits for something. -/
def stitchWait (n : Nat) (w : StrandWait) (s : State) : State :=
  setStrand n (fun t => { t with run := 2, wait := w }) s

/-! Enable and disable actions (R286, R287, R303) -/

/-- The PMBus transaction of an action: PAGE first where the rail has a page, then OPERATION (R286). -/
def operationReq (img : Bytes) (r : Nat) (v : Nat) : TwReq :=
  { what := .action r, addr := railPmAddr img r,
    w := (if railPmPage img r = 0xFF then [] else leBytes 2 (railPmPage img r * 256))
      ++ leBytes 2 (v * 256 + 1) }

/-- OPERATION value of an enable or a disable (R286). -/
def operationValue (img : Bytes) (r : Nat) (on : Bool) : Nat :=
  if on then 0x80 else if railSoftOff img r then 0x40 else 0x00

/-- Start the action on the rail's enable path: the pin or line moves, or the PMBus write is requested. -/
def driveRail (r : Nat) (on : Bool) (s : State) : State :=
  let img := s.st.image
  let s1 := setRail r (fun x =>
    { x with act := if on then .enabling else .disabling, tries := 1, driven := on }) s
  if railEnKind img r = 1 then twEngine (railEnIndex img r) (operationReq img r (operationValue img r on)) s1 else s1

/-- RAIL_EN[n] stands at the active level of the rail that it enables; while SYSRST_N is low every pin is at its inactive level
(R286, R310). -/
def railEnActive (s : State) (n : Nat) : Bool :=
  !s.chip.sysrstLow && (presentRails s.st.image).any (fun r => railEnKind s.st.image r == 0 && railEnIndex s.st.image r == n && (rail s r).driven)

/-- RAIL_EN[n] is high: the active level is high, or low if EN_LOW (R286). -/
def railEnHigh (s : State) (n : Nat) : Bool :=
  railEnActive s n != (presentRails s.st.image).any (fun r => railEnKind s.st.image r == 0 && railEnIndex s.st.image r == n && railEnLow s.st.image r)

/-- SD_EN[n] is pulled low; while SYSRST_N is low every line is released (R286, R310). -/
def sdEnPulled (s : State) (n : Nat) : Bool :=
  !s.chip.sysrstLow && (presentRails s.st.image).any (fun r => railEnKind s.st.image r == 2 && railEnIndex s.st.image r == n && (rail s r).driven)

/-- Issue a rail's enable: it is RISING and journalled, unless it is journalled already (R290, R303). -/
def enableRail (r : Nat) (s : State) : State :=
  let s1 := driveRail r true (setRail r (fun x =>
    { x with st := .rising, cause := 0, pg := false, misses := 0, votes := 0, high := true }) s)
  if s1.st.journal.contains r then s1 else { s1 with st.journal := s1.st.journal ++ [r] }

/-- Issue a rail's disable: FALLING (a FAILED rail keeps its mark), out of the journal, its margin ended (R290,
R297, R303). -/
def disableRail (r : Nat) (s : State) : State :=
  let s1 := driveRail r false (setRail r (fun x =>
    { x with st := if x.st = .failed then .failed else .falling, margin := 0, pg := false }) s)
  { s1 with st.journal := s1.st.journal.filter (fun x => x != r) }

/-! Failures (R291, R304, R305, R314) -/

/-- Causes (R291). -/
abbrev Cause.NO_PG : Nat := 1
abbrev Cause.UV : Nat := 2
abbrev Cause.OV : Nat := 3
abbrev Cause.OC : Nat := 4
abbrev Cause.PG_LOST : Nat := 5
abbrev Cause.CHECK : Nat := 6
abbrev Cause.NO_FALL : Nat := 7
abbrev Cause.EN_FAIL : Nat := 8
abbrev Cause.PARENT : Nat := 9

/-- What is measured at a failure: voltage, current, time from the start of the sequence, and the strand whose
stitch met it (0xFF for supervision or slot timing). -/
structure FailAt where
  mv : Nat := 0
  da : Nat := 0
  tUs : Nat := 0
  strand : Nat := 0xFF
  deriving DecidableEq, Repr

/-- PHASE of a first-failure record: 0 standby part, 1 SEQUENCING-UP, 2 READY or DEGRADED, 3 SEQUENCING-DOWN,
4 AON trip sequence (R314). -/
def failPhase (s : State) : Nat :=
  if s.st.phase = 4 then 4
  else if s.st.phase = 3 then 3
  else if s.st.phase = 1 then 0
  else if s.chip.tray = .sequencingUp then 1
  else 2

/-- Number of the next first-failure record: one above the highest valid SEQ (R315). -/
def failHead (s : State) : Nat :=
  s.st.ring.foldl (fun m e => match e.2 with
    | some f => if s.st.torn.contains e.1 then m else max m f.seq
    | none => m) 0

/-- The 32 bytes of a first-failure record (R314). -/
def failBytes (f : FailRec) : Bytes :=
  let b := leBytes 4 f.seq ++ leBytes 4 f.cycles ++ leBytes 6 f.optime ++ leBytes 2 f.stitch ++ leBytes 4 f.tUs
    ++ leBytes 1 f.rail ++ leBytes 1 f.cause ++ leBytes 1 f.phase ++ leBytes 1 f.strand ++ leBytes 2 f.mv
    ++ leBytes 2 f.da
  b ++ leBytes 4 (crc32c b).toNat

/-- The latched first failure goes to its place in the ring, slot (SEQ − 1) mod 1,024; a torn record is skipped at
read-out (R314, R315). -/
def fxFirstFailure (torn : Bool) (f : FailRec) (s : State) : State :=
  let slot := (f.seq - 1) % 1024
  { s with
    st.latch := none
    st.ring := SMap.set none s.st.ring slot (some f)
    st.torn := (s.st.torn.filter (fun x => x != slot)) ++ (if torn then [slot] else []) }

/-- A latched failure of an earlier sequence that is not yet in the ring goes there before the latch is taken again. -/
def freeLatch (s : State) : State :=
  match s.st.latch with
  | some f => fxFirstFailure false f s
  | none => s

/-- Latch the first failure of a sequence, and record every failure as an event (R304, R314). -/
def logFailure (r cause : Nat) (a : FailAt) (s0 : State) : State :=
  let first := !s0.st.seqFailed
  let s := if first then freeLatch s0 else s0
  let f : FailRec := { seq := if first then failHead s + 1 else 0, cycles := s.aon.powerCycles, optime := now s,
                       stitch := if a.strand < 16 then (strand s a.strand).pc else 0xFFFF, tUs := a.tUs, rail := r,
                       cause := cause, phase := failPhase s, strand := a.strand, mv := a.mv, da := a.da }
  let s1 := raise 2 1 r (failBytes f) s
  if first then { s1 with st.seqFailed := true, st.latch := some f } else s1

/-- Mark a rail FAILED with a cause, out of the journal, logged and recorded. -/
def markFailed (r cause : Nat) (a : FailAt) (s : State) : State :=
  let s1 := logFailure r cause a s
  let s2 := setRail r (fun x => { x with st := .failed, cause := cause, margin := 0 }) s1
  { s2 with st.journal := s2.st.journal.filter (fun x => x != r) }

/-- Whether an isolation is in progress. -/
def isolating (s : State) : Bool := s.st.downs.any (fun d => match d.why with
  | .isolation _ _ => true
  | _ => false)

/-- PHASE of ST_STATE (R318): an isolation shows as 5. -/
def stPhase (s : State) : Nat := if isolating s then 5 else s.st.phase

/-- A tray reverse sequence or an AON trip sequence runs. -/
def reversing (s : State) : Bool := s.st.phase == 3 || s.st.phase == 4

/-- Begin the isolation of rail f: step 1 at once for OV and OC; the rest when no earlier one runs (R304). -/
def beginIsolation (f cause : Nat) (s : State) : State :=
  let first := cause == Cause.OV || cause == Cause.OC
  let s1 := if first then disableRail f s else s
  { setBits R.ST_FAULT 2 s1 with st.isoWait := s1.st.isoWait ++ [(f, first)] }

/-- A rail fails (R291, R304). NO_FALL, an EN_FAIL of its own disable action, and a PARENT mark start no
isolation; in a reverse sequence the failure is logged and the rail switched off, and the sequence continues. -/
def failRail (r cause : Nat) (a : FailAt) (s : State) : State :=
  let disabling := (rail s r).act == .disabling
  let s1 := markFailed r cause a s
  if cause = Cause.NO_FALL || (cause = Cause.EN_FAIL && disabling) then
    let s2 := if cause = Cause.NO_FALL then setBits R.ST_FAULT 4 s1 else s1
    if reversing s2 then { s2 with st.noFallSeen := true } else s2
  else if cause = Cause.PARENT then s1
  else if reversing s1 then (if (rail s1 r).driven then disableRail r s1 else s1)
  else beginIsolation r cause s1

/-! Off requests and the reverse sequence (R21, R24, R307) -/

/-- Whether a strand's present stitch is an action that still completes (R307). -/
def Strand.inAction (t : Strand) : Bool :=
  match t.wait with
  | .action _ => true
  | .margin _ => true
  | .disable => true
  | _ => false

/-- Stop the strands: waits end at once, actions complete (R307). -/
def stopStrands (s : State) : State :=
  (List.range 16).foldl (fun a n =>
    if (strand a n).run = 2 && (strand a n).inAction then a
    else setStrand n (fun t => { t with run := 0, wait := .none }) a) s

/-- A shut-down is a tray reverse sequence: that of R307, or the whole-journal one of an AON trip (R310). -/
def DownJob.isTray (d : DownJob) : Bool := d.why == .reverse || d.why == .aonReverse

/-- PFAIL mode begins (R308): isolations, DISABLEs and ACC_POWER OFFs end at their current rail, and so do the stitches that wait
for them; of a reverse sequence that runs the present rail is followed by its gap only. -/
def cutShort (s : State) : State :=
  let s1 := (List.range 16).foldl (fun a n =>
    if (strand a n).run = 2 && (strand a n).wait == .disable then setStrand n (fun t => { t with run := 0, wait := .none }) a else a) s
  { s1 with
    st.downs := (s1.st.downs.filter DownJob.isTray).map (fun d => { d with gap := d.cur.isSome })
    st.isoWait := [] }

/-- Start the reverse sequence over the journal above STBY_MARK; in PFAIL mode work in progress ends at its
current rail (R307, R308). -/
def startReverse (s : State) : State :=
  let s1 := stopStrands s
  let s2 := if s1.st.pfailMode then cutShort (setBits R.ST_FAULT 0x10 s1) else s1
  { s2 with
    st.phase := 3
    st.downs := s2.st.downs ++ [{ why := .reverse, rails := [] }]
    st.noFallSeen := false
    st.fallsChecked := false
    st.slotDown := if slotMode s2 then slotRails s2.st.image else []
    st.slotUp := []
    st.slotWait := []
    st.accWait := []
    st.seqFailed := false }

/-- The on orders in progress end with FAULT, REASON 4 (R519). -/
def onOrderEnds (s : State) : State := finishLong .trayOn St.FAULT (detail noDetail 4) s

/-- Enter SEQUENCING-DOWN and start the reverse sequence (R21, R519). -/
def beginDown (s : State) : State := startReverse (onOrderEnds (setTray .sequencingDown s))

/-- A reverse sequence is already in progress. -/
def reverseRuns (s : State) : Bool := s.st.downs.any DownJob.isTray

/-- An off request from any source (R21, R24): carried out in SEQUENCING-UP, READY and DEGRADED; while TRIPPED
after a hardware trip the reverse sequence runs at once and the request is recorded; in STANDBY and in
SEQUENCING-DOWN it ends an on order that is held. -/
def offRequest (fromRail : Bool) (s : State) : State :=
  match s.chip.tray with
  | .sequencingUp | .ready | .degraded => beginDown { s with chip.offFromRail := fromRail, chip.onHeld := false }
  | .tripped =>
    if s.chip.tripKind = 1 then
      let s1 := { s with chip.offWhileTripped := true, chip.onHeld := false }
      if reverseRuns s1 then s1 else startReverse s1
    else s
  | .standby | .sequencingDown => if s.chip.onHeld then onOrderEnds { s with chip.onHeld := false } else s
  | .off => s

/-- A FAILED mark is cleared: OFF when the voltage lies below OFF_MV, otherwise FALLING (R306). -/
def clearMark (x : Rail) : Rail :=
  if x.st = .failed then { x with st := if x.high then .falling else .off, cause := 0 } else x

/-- Clear the FAILED marks of the rails that `p` names (R306). -/
def clearMarks (p : Nat → Bool) (s : State) : State :=
  (presentRails s.st.image).foldl (fun a r => if p r then setRail r clearMark a else a) s

/-! Progress of shut-downs -/

/-- The next rail a shut-down disables: the last journal entry above STBY_MARK for the reverse sequence, over the
whole journal after an AON trip, otherwise the first of its list that is still driven. -/
def nextDown (s : State) (d : DownJob) : Option Nat :=
  match d.why with
  | .reverse => (s.st.journal.drop s.st.stbyMark).getLast?
  | .aonReverse => s.st.journal.getLast?
  | _ => d.rails.find? (fun r => (rail s r).driven)

/-- Some VCORE island is powered: a cluster, MEM or the data plane. -/
def coreUpIslands (s : State) : Bool := s.chip.islands &&& 0x2000FF8#26 != 0

/-- Whether the shut-down may disable its next rail now: the reverse sequence waits for work in progress, for
actions that complete, for a slot rail's off-delay, and before VCORE for the islands it supplies to drain and power
down (R18, R307, R313). -/
def downMayGo (s : State) (d : DownJob) (r : Nat) : Bool :=
  match d.why with
  | .reverse =>
    s.st.downs.all (fun e => e.why == .reverse) && s.st.isoWait.isEmpty
      && (List.range 16).all (fun n => (strand s n).run != 2) && !s.st.slotDown.contains r
      && !(railIsVcore s.st.image r && coreUpIslands s)
  | _ => true

/-- Replace a shut-down in the list. -/
def setDown (d d' : DownJob) (s : State) : State :=
  { s with st.downs := s.st.downs.map (fun e => if e = d then d' else e) }

/-- Drop a shut-down from the list. -/
def dropDown (d : DownJob) (s : State) : State := { s with st.downs := s.st.downs.erase d }

/-- Whether a rail, or a dependant, takes the tray down when it fails: group 9, or CRIT (R305). -/
def takesDown (img : Bytes) (f : Nat) : Bool :=
  (f :: dependants img f).any (fun r => railGroup img r == 9 || railCrit img r)

/-- Step 4 of R304, then R305. A dependant that the isolation itself has disabled, one of `gone`, had been enabled: it stays OFF.
DEDUCED. -/
def endIsolation (f : Nat) (gone : List Nat) (s : State) : State :=
  let img := s.st.image
  let s1 := (dependants img f).foldl (fun a r =>
    if (rail a r).st = .off && !gone.contains r then markFailed r Cause.PARENT {} a else a) s
  if takesDown img f then offRequest true s1 else s1

/-- A shut-down that has no rail left ends. -/
def endDown (d : DownJob) (s : State) : State :=
  match d.why with
  | .isolation f _ => endIsolation f d.gone (dropDown d s)
  | .strand n => if (strand s n).wait = .disable then stitchDone n (dropDown d s) else dropDown d s
  | .accOff a => finishLong (.accPower a false) St.DONE [] (dropDown d s)
  | .reverse => s
  | .aonReverse => s

/-- One move of a shut-down, where it has one: disable the next rail, or end. In PFAIL mode each rail is followed
by its gap only (R308). -/
def moveDown (d : DownJob) (s : State) : Option State :=
  if d.cur.isSome then none
  else
    match nextDown s d with
    | some r =>
      if downMayGo s d r then
        some (disableRail r (setDown d { d with rails := d.rails.filter (fun x => x != r), cur := some r,
                                                gap := s.st.pfailMode && d.isTray, gone := d.gone ++ [r] } s))
      else none
    | none =>
      match d.why with
      | .reverse => none
      | .aonReverse => none
      | _ => some (endDown d s)

/-- The rails of an isolation: dependants that are RISING or ON, in reverse journal order, then the rail itself
unless step 1 has disabled it (R304). -/
def isolationRails (s : State) (f : Nat) (first : Bool) : List Nat :=
  let ds := dependants s.st.image f
  (s.st.journal.reverse.filter ds.contains) ++ (if first then [] else [f])

/-- The next isolation starts when the earlier one has ended. -/
def moveIso (s : State) : Option State :=
  if isolating s then none
  else
    match s.st.isoWait with
    | [] => none
    | (f, first) :: t =>
      some { s with st.isoWait := t,
                    st.downs := s.st.downs ++ [{ why := .isolation f first, rails := isolationRails s f first }] }

/-- The first move that some shut-down has. -/
def firstMove (ds : List DownJob) (s : State) : Option State :=
  match ds with
  | [] => none
  | d :: t =>
    match moveDown d s with
    | some s' => some s'
    | none => firstMove t s

/-- Carry out moves until none is left. -/
def runDowns (fuel : Nat) (s : State) : State :=
  match fuel with
  | 0 => s
  | k + 1 =>
    match moveIso s with
    | some s' => runDowns k s'
    | none =>
      match firstMove s.st.downs s with
      | some s' => runDowns k s'
      | none => s

/-! Strands that wait -/

/-- Every parent of a rail is ON (R301). -/
def parentsOn (s : State) (r : Nat) : Bool := (railParents s.st.image r).all (fun p => (rail s p).st == .on)

/-- A parent of a rail is FAILED (R301). -/
def parentFailed (s : State) (r : Nat) : Bool := (railParents s.st.image r).any (fun p => (rail s p).st == .failed)

/-- A rail is being shut down: FALLING, or named by a shut-down in progress, or its action has not completed. -/
def railClosing (s : State) (r : Nat) : Bool :=
  (rail s r).st == .falling || s.st.downs.any (fun d => d.cur == some r || d.rails.contains r)

/-- What an ENABLE of a rail finds (R296, R301, R302, R306): it is complete at once, it must wait, a parent has
failed, or its action is issued. -/
inductive EnableFinds where
  | complete | waits | parentFailed | issue
  deriving DecidableEq, Repr

/-- What an ENABLE of rail r finds. -/
def enableFinds (s : State) (r : Nat) : EnableFinds :=
  if railBlocked s r || (rail s r).st == .rising || (rail s r).st == .on || (rail s r).st == .failed then .complete
  else if railClosing s r then .waits
  else if parentFailed s r then .parentFailed
  else if parentsOn s r then .issue
  else .waits

/-- A strand's wait is over at once because of what the engine now shows. -/
def waitOver (s : State) (w : StrandWait) : Bool :=
  match w with
  | .none => false
  | .parents r => enableFinds s r == .complete
  | .action r => (rail s r).act != .enabling
  | .disable => false
  | .time => false
  | .powerGood r => railBlocked s r || (rail s r).st == .on || (rail s r).st == .failed || (rail s r).st == .off
  | .signal n => s.st.signals.getLsbD n
  | .margin _ => false

/-- A strand that waits for parents marks its rail where a parent has failed (R301). -/
def parentMark (n : Nat) (s : State) : State :=
  match (strand s n).wait with
  | .parents r => if enableFinds s r = .parentFailed then markFailed r Cause.PARENT { strand := n } s else s
  | _ => s

/-- Strands 0 to 15 in order: each whose wait is over completes its stitch (R292). -/
def wakeStrands (s : State) : State :=
  (List.range 16).foldl (fun a n =>
    let b := parentMark n a
    if (strand b n).run = 2 && waitOver b (strand b n).wait then stitchDone n b else b) s

/-- Slot rails that wait for their parents: one whose parent has failed is marked, and one that need not or may not be enabled waits no
longer (R301, R302, R313). -/
def wakeSlots (s : State) : State :=
  s.st.slotWait.foldl (fun a r =>
    match enableFinds a r with
    | .complete => { a with st.slotWait := a.st.slotWait.erase r }
    | .parentFailed => markFailed r Cause.PARENT {} { a with st.slotWait := a.st.slotWait.erase r }
    | _ => a) s

/-- An accelerator is powered: its group has rails and each of them is ON. -/
def accPowered (s : State) (a : Nat) : Bool :=
  let rs := (presentRails s.st.image).filter (fun r => railGroup s.st.image r == a + 1)
  !rs.isEmpty && rs.all (fun r => (rail s r).st == .on)

/-- Let the engine settle: shut-downs move, waits that are over complete. -/
def settleRails (s : State) : State := wakeSlots (wakeStrands (runDowns 1024 s))

/-! Rails on a two-wire port that is STUCK (R414) -/

/-- A margin write of rail r has been acknowledged: the strand that waits for it goes on. -/
def marginAck (r : Nat) (s : State) : State :=
  (List.range 16).foldl (fun a n =>
    if (strand a n).run = 2 && (strand a n).wait == .margin r then stitchDone n a else a) s

/-- The shut-down whose present rail is r goes on to its gap. -/
def railIsDown (r : Nat) (s : State) : State :=
  { s with st.downs := s.st.downs.map (fun d => if d.cur = some r then { d with gap := true } else d) }

/-- Every request of a STUCK port ends with RESULT STUCK: a queued enable or disable fails its rail with EN_FAIL (R413, R414). -/
def failQueued (n : Nat) (s : State) : State :=
  let p := twPort s n
  (p.queue ++ p.again).foldl (fun a q => match q.what with
    | .core => twCoreEnd n 5 0 a
    | .action r => setRail r (fun x => { x with act := .none }) (railIsDown r (failRail r Cause.EN_FAIL {} a))
    | .margin r => marginAck r a
    | _ => a) (setTw n (fun p => { p with queue := [], again := [], cur := none }) s)

/-- What a port does that becomes STUCK: PG_KIND 2 rails that are RISING or ON fail with PG_LOST, and its requests end (R414). -/
def stuckEffects (n : Nat) (s : State) : State :=
  let img := s.st.image
  failQueued n ((presentRails img).foldl (fun a r =>
    if railPgKind img r = 2 && railPgIndex img r = n && ((rail a r).st = .rising || (rail a r).st = .on)
    then failRail r Cause.PG_LOST {} a else a) s)

/-! The gate in front of the VCORE regulator (R443) -/

/-- The rail with the VCORE flag. -/
def vcoreRail (s : State) : Option Nat := (presentRails s.st.image).find? (railIsVcore s.st.image)

/-- A request goes to the regulator of the rail with the VCORE flag (R443). -/
def toVcore (s : State) (n : Nat) (q : TwReq) : Bool :=
  match vcoreRail s with
  | some r => railHasPmbus s.st.image r && railPmPort s.st.image r == n && railPmAddr s.st.image r == q.addr
  | none => false

/-- What the gate does with a write to that regulator: `none` where it is not sent, otherwise the bytes sent and
whether a value was replaced by the limit (R443). -/
def gateWrite (limit : Nat) (q : TwReq) : Option (Bytes × Bool) :=
  if q.rlen ≠ 0 then some (q.w, false)
  else
    match q.w with
    | [] => some ([], false)
    | c :: t =>
      if c = 0x00#8 || c = 0x03#8 then some (q.w, false)
      else if c = 0x01#8 then
        (if t = [0x00#8] || t = [0x40#8] || t = [0x80#8] then some (q.w, false) else none)
      else if c = 0x21#8 || c = 0x22#8 then
        (if limit < leAt t 0 2 && (c = 0x21#8 || leAt t 0 2 < 32768) then some (c :: (leBytes 2 limit ++ t.drop 2), true) else some (q.w, false))
      else none

/-- SET_MV: the last set-point that the gate passed. -/
def noteSetPoint (w : Bytes) (s : State) : State :=
  if w.head? = some 0x21#8 then { s with aon.setMv := leAt w 1 2 % 1024 } else s

/-- VCORE_SET as it reads (R460). -/
def vcoreSetWord (s : State) : W32 := BitVec.ofNat 32 (min 65535 s.aon.clamps * 65536 + s.aon.setMv)

/-- A request meets the gate: what is sent, where anything is, and a value that was replaced counted and recorded. -/
def passGate (n : Nat) (q : TwReq) (s : State) : Option TwReq × State :=
  if toVcore s n q then
    match gateWrite s.aon.vcoreEff q with
    | none => (none, s)
    | some (w, false) => (some q, noteSetPoint w s)
    | some (w, true) =>
      let s1 := noteSetPoint w { s with aon.clamps := s.aon.clamps + 1 }
      (some { q with w := w }, raise 11 7 noInst (regData (vcoreSetWord s1)) s1)
  else (some q, s)

end Sys2Proof.Machine
end

