-- ==== Sys2Proof/Machine/ProgImage.lean ====
section
/-! DEFINITION. The checks of a stitch program image and of a slot table (R299, R300, R312, R420, R443).
Log entries coded here: 37 (DEDUCED). -/

namespace Sys2Proof.Machine

/-- ENTRY[s], ACC_ENTRY[a], STBY_ENTRY and MIN_OFF_MS of an image (R299). -/
def imgEntry (img : Bytes) (n : Nat) : Nat := leAt img (10 + 2 * n) 2
def imgAccEntry (img : Bytes) (a : Nat) : Nat := leAt img (42 + 2 * a) 2
def imgStby (img : Bytes) : Nat := leAt img 8 2
def imgMinOff (img : Bytes) : Nat := max 100 (leAt img 58 2)

/-- An image with its CRC field zero. -/
def zeroField (bs : Bytes) (o n : Nat) : Bytes := bs.take o ++ zeros n ++ bs.drop (o + n)

/-- The length R300 asks of an image. -/
def imgLengthOk (img : Bytes) : Bool :=
  64 ≤ img.length &&
    img.length == 8256 + 8 * nStitch img
      + (if leAt img 5 1 = 1 then 16 + 8 * leAt img (8256 + 8 * nStitch img + 3) 1 else 0)

/-- Header and CRC (R299). -/
def imgHeaderOk (img : Bytes) : Bool :=
  leAt img 0 4 == 0x48435453 && leAt img 4 1 == 1 && leAt img 5 1 ≤ 1 && 1 ≤ nStitch img && nStitch img ≤ 4096
    && leAt img 60 4 == (crc32c (zeroField img 60 4)).toNat

/-- An entry is none, or below NSTITCH. -/
def entryOk (img : Bytes) (e : Nat) : Bool := e == 0xFFFF || e < nStitch img

/-- Entries of an image: STBY_ENTRY and ENTRY[0] must be given (R300). -/
def imgEntriesOk (img : Bytes) : Bool :=
  imgStby img < nStitch img && imgEntry img 0 < nStitch img
    && (List.range 16).all (fun n => entryOk img (imgEntry img n))
    && (List.range 8).all (fun a => entryOk img (imgAccEntry img a))

/-- Operations that name a rail. -/
def opNamesRail (w : Nat) : Bool :=
  match stOp w with
  | 1 | 2 | 4 | 5 | 11 => true
  | 7 => stMod w == 2 || stMod w == 3 || stMod w == 4
  | _ => false

/-- One stitch obeys R300: its operation, its rail, its target, its COND, its PMBus path. -/
def stitchOk (img : Bytes) (w : Nat) : Bool :=
  stOp w < 12
    && (!opNamesRail w || railPresent img (stRail w))
    && (!(stOp w == 6 || stOp w == 7) || stB w % 4096 < nStitch img)
    && (stOp w != 7 || stMod w ≤ 5)
    && (stOp w != 11 || railHasPmbus img (stRail w))

/-- One descriptor obeys R300. -/
def descOk (img : Bytes) (r : Nat) : Bool :=
  railGroup img r ≤ 9 && railEnKind img r ≤ 2 && railPgKind img r ≤ 2
    && railEnIndex img r < (if railEnKind img r = 0 then 128 else if railEnKind img r = 1 then 30 else 64)
    && (railPgKind img r == 0 || railPgIndex img r < (if railPgKind img r = 1 then 128 else 30))
    && 1 ≤ railDeb img r && railDeb img r ≤ 64 && railMarginLim img r ≤ 50
    && (!railHasPmbus img r || railPmAddr img r ≤ 0x7F)
    && !(railEnKind img r == 1 && railPgKind img r == 2 && railEnIndex img r != railPgIndex img r)
    && (railParents img r).all (fun p => railPresent img p
        && (railGroup img p == 0 || railGroup img p == 9 || railGroup img p == railGroup img r))

/-- The parent graph has no cycle through r: no parent of r is r or a dependant of r. -/
def noCycleAt (img : Bytes) (r : Nat) : Bool :=
  let ds := r :: dependants img r
  (railParents img r).all (fun p => !ds.contains p)

/-- Stitches that may follow stitch i. -/
def stitchNext (img : Bytes) (i : Nat) : List Nat :=
  let w := stitchAt img i
  match stOp w with
  | 0 => []
  | 6 => [stB w % 4096]
  | 7 => [stB w % 4096, i + 1]
  | _ => [i + 1]

/-- Stitches reached from a set in n rounds. -/
def reachGo (img : Bytes) (n : Nat) (seen front : List Nat) : List Nat :=
  match n with
  | 0 => seen
  | k + 1 =>
    let new := ((front.flatMap (stitchNext img)).filter (fun i => i < nStitch img && !seen.contains i)).eraseDups
    if new.isEmpty then seen else reachGo img k (seen ++ new) new

/-- Stitches reachable from an entry. -/
def reach (img : Bytes) (e : Nat) : List Nat :=
  if e < nStitch img then reachGo img (nStitch img) [e] [e] else []

/-- No stitch reachable from other entries than STBY_ENTRY and ENTRY[0] names a group 9 rail (R300). -/
def group9Ok (img : Bytes) : Bool :=
  let es := (List.range 15).map (fun n => imgEntry img (n + 1)) ++ (List.range 8).map (imgAccEntry img)
  es.all (fun e => (reach img e).all (fun i =>
    !(opNamesRail (stitchAt img i) && railGroup img (stRail (stitchAt img i)) == 9)))

/-- Exactly one rail has the VCORE flag, and it has a PMBus path (R300, R443). -/
def vcoreOk (img : Bytes) : Bool :=
  match (presentRails img).filter (railIsVcore img) with
  | [r] => railHasPmbus img r
  | _ => false

/-- The layout rules of a slot table (R312). -/
def slotTableOk (img t : Bytes) : Bool :=
  let n := leAt t 3 1
  let rs := (List.range n).map (fun i => leAt t (16 + 8 * i) 1)
  leAt t 0 2 == 0x534C && leAt t 2 1 == 2 && 1 ≤ n && n ≤ 64 && t.length == 16 + 8 * n
    && leAt t 12 4 == (crc32c (zeroField t 12 4)).toNat
    && rs.all (fun r => railPresent img r && railGroup img r != 9)
    && rs.eraseDups.length == rs.length

/-- MODE 1 asks that ENTRY[1..15] are none and that the slot table is good (R300). -/
def mode1Ok (img : Bytes) : Bool :=
  leAt img 5 1 == 0
    || ((List.range 15).all (fun n => imgEntry img (n + 1) == 0xFFFF) && slotTableOk img (slotTable img))

/-- A port that carries a PG_KIND 2 rail carries no other one, and runs the 1 MHz class (R420). -/
def pollPortsOk (classOf : Nat → Nat) (img : Bytes) : Bool :=
  let ps := ((presentRails img).filter (fun r => railPgKind img r == 2)).map (railPgIndex img)
  ps.eraseDups.length == ps.length && ps.all (fun p => classOf p == 2)

/-- Every check of R300, R420 and R443 but the length. -/
def imgContentOk (classOf : Nat → Nat) (img : Bytes) : Bool :=
  imgHeaderOk img && imgEntriesOk img
    && (List.range (nStitch img)).all (fun i => stitchOk img (stitchAt img i))
    && (presentRails img).all (fun r => descOk img r && noCycleAt img r)
    && group9Ok img && vcoreOk img && mode1Ok img && pollPortsOk classOf img

/-- The status with which the engine refuses an image, or DONE (R300). -/
def imageStatus (classOf : Nat → Nat) (img : Bytes) : Nat :=
  if !imgLengthOk img then St.BAD_LENGTH
  else if !imgContentOk classOf img then St.BAD_PARAM
  else St.DONE

/-- CLASS of a port as TW_CTRL holds it. -/
def twClass (s : State) (n : Nat) : Nat := rdFld s (R.TW_CTRL n) 3 2

/-- The descriptor of a rail that is ON would change (R316). -/
def changesOnRail (s : State) (img : Bytes) : Bool :=
  (List.range 256).any (fun r => (rail s r).st == .on
    && slice img (64 + 32 * r) 32 != slice s.st.image (64 + 32 * r) 32)

/-- Whether the off-delays of a slot table reverse its on-delays (R313). -/
def slotsReverse (img : Bytes) : Bool :=
  let t := slotTable img
  let es := (List.range (leAt t 3 1)).filterMap (fun i =>
    if (leAt t (17 + 8 * i) 1).testBit 0 then some (leAt t (18 + 8 * i) 2, leAt t (20 + 8 * i) 2) else none)
  es.all (fun a => es.all (fun b => !(a.1 < b.1 && a.2 < b.2)))

/-- Load a program as one step: image, rail table, MODE and MIN_OFF_MS of ST_CFG, and the event (R299, R313,
R316, R469). -/
def loadProgram (img : Bytes) (s : State) : State :=
  let s1 := wr R.ST_CFG (BitVec.ofNat 32 (imgMinOff img * 65536 + leAt img 5 1)) { s with st.image := img }
  let s2 := raise 2 5 noInst ((sha512 img).take 16) s1
  if leAt img 5 1 = 1 && !slotsReverse img then raise 2 4 noInst [] s2 else s2

end Sys2Proof.Machine
end

