-- ==== Sys2Proof/Machine/CfgOps.lean ====
section
/-! DEFINITION. The configuration store (R475 to R491): slots, generations, probation and its attempts.
Log entries coded here: 276 (DEDUCED). -/

namespace Sys2Proof.Machine

/-- The image of a slot: 0 and 1 the slots, 2 and 3 the factory copies. -/
def cfgImage (s : State) (i : Nat) : Bytes :=
  match i with
  | 0 => s.cfg.image0
  | 1 => s.cfg.image1
  | 2 => s.cfg.factory0
  | _ => s.cfg.factory1

/-- State of slot i (R483). -/
def slotState (s : State) (i : Nat) : Nat := if i = 0 then s.cfg.state0 else s.cfg.state1

/-- Change the state of slot i. -/
def setSlotState (i v : Nat) (s : State) : State :=
  if i = 0 then { s with cfg.state0 := v } else { s with cfg.state1 := v }

/-- PASSED of slot i. -/
def slotPassed (s : State) (i : Nat) : Bool := if i = 0 then s.cfg.passed0 else s.cfg.passed1

/-- Change PASSED of slot i. -/
def setSlotPassed (i : Nat) (v : Bool) (s : State) : State :=
  if i = 0 then { s with cfg.passed0 := v } else { s with cfg.passed1 := v }

/-- GENERATION of an image (R476). -/
def imageGen (img : Bytes) : Nat := leAt img 8 4

/-- The generation held in slot i; 0 for an EMPTY slot (R493). -/
def slotGen (s : State) (i : Nat) : Nat := if slotState s i = 0 then 0 else imageGen (cfgImage s i)

/-- The generation in force; 0 for the factory image. -/
def activeGen (s : State) : Nat := imageGen s.cfg.loaded

/-- A SEQUENCING-UP under a generation on probation is counted: a pass sets PASSED and ends probation; the third
failure sets ROLLBACK_DUE; each counted attempt records one event (R487, R488, R490). -/
def judgeAttempt (pass : Bool) (s : State) : State :=
  if s.cfg.attempt && s.cfg.probation then
    let s1 := raise 12 3 noInst (leBytes 4 (activeGen s) ++ leBytes 1 (b2n (!pass))) { s with cfg.attempt := false }
    if pass then setSlotPassed s1.cfg.active true { s1 with cfg.probation := false, cfg.fails := 0 }
    else
      let n := min 3 (s1.cfg.fails + 1)
      { s1 with cfg.fails := n, cfg.rollbackDue := s1.cfg.rollbackDue || n == 3 }
  else { s with cfg.attempt := false }

end Sys2Proof.Machine
end

