-- ==== Sys2Proof/Machine/SecOps.lean ====
section
/-! DEFINITION. Operations of the security module (14): derived keys, certificates, signatures, authorising keys. -/

namespace Sys2Proof.Machine

/-- The seed of a derived key at an epoch (R447): label 1 attestation, 2 metering, 3 the seed secret. -/
def keySeedAt (label epoch : Nat) : Bytes :=
  (sha512 (leBytes 1 label ++ Config.identitySeed ++ leBytes 4 epoch)).take 32

/-- The seed of KEY 0, 1 or 2, or of the seed secret (3). -/
def keySeed (s : State) (label : Nat) : Bytes :=
  if label = 0 then Config.identitySeed else keySeedAt label s.sec.epoch

/-- Public key of KEY k. -/
def keyPublic (s : State) (k : Nat) : Bytes := Config.edPublic (keySeed s k)

/-- CHIP_ID (R1, R30). -/
abbrev chipId : Nat := 0xC1A508B1

/-- The reference of a public key: the first 8 bytes of its SHA-512 (R272, R448, R481). -/
def keyRef (pub : Bytes) : Nat := leAt (sha512 pub) 0 8

/-- The certificate of KEY k (R448). -/
def keyCert (s : State) (k : Nat) : Bytes :=
  if k = 0 then fix 136 Config.identityCert
  else
    let b := leBytes 4 0x54434B54 ++ leBytes 1 1 ++ leBytes 1 k ++ zeros 2 ++ leBytes 4 s.sec.epoch ++ leBytes 4 chipId
      ++ fix 16 Config.serialNumber ++ (sha512 (keyPublic s 0)).take 8 ++ fix 32 (keyPublic s k)
    b ++ fix 64 (Config.edSign Config.identitySeed b)

/-- A certificate verifies under an issuer's public key (R448). -/
def certSigned (issuer cert : Bytes) : Bool :=
  leAt cert 0 4 == 0x54434B54 && leAt cert 4 1 == 1 && slice cert 32 8 == (sha512 issuer).take 8
    && Config.edVerify issuer (cert.take 72) (slice cert 72 64)

/-- An identity certificate verifies under one of the device CA keys (R448). -/
def identityCertOk (cert : Bytes) : Bool :=
  leAt cert 5 1 == 0 && (List.range 4).any (fun k => certSigned (Config.deviceCaKey k) cert)

/-- A pair of identity and attestation certificates verifies (R448). -/
def certPairOk (id att : Bytes) : Bool :=
  id.length == 136 && att.length == 136 && identityCertOk id && leAt att 5 1 == 1
    && certSigned (slice id 40 32) att && slice id 12 20 == slice att 12 20

/-- Sign a message with KEY k; CNT_SIGN counts it (R461). -/
def signWith (s : State) (k : Nat) (m : Bytes) : Bytes := fix 64 (Config.edSign (keySeed s k) m)

def countSign (s : State) : State := bump R.CNT_SIGN s

/-- The module makes signatures: OPERATIONAL (R446). -/
def secOperational (s : State) : Bool := s.sec.state == 2

end Sys2Proof.Machine
end

