-- ==== Sys2Proof/Machine/HeatOps.lean ====
section
/-! DEFINITION. Readings, thresholds and causes of temperature, leaks and throttling (R374 to R386, R396 to R399,
R358), as the state gives them. Temperatures are in 0.1 °C.
Log entries coded here: 31 (DEDUCED), 39 (DEDUCED), 182 (DEDUCED), 187 (DEDUCED), 188 (DEDUCED), 189 (DEDUCED), 190
(DEDUCED). -/

namespace Sys2Proof.Machine

/-! Ring-oscillator sensors and zones (R374 to R377) -/

/-- Sensor n. -/
def ro (s : State) (n : Nat) : Ro := s.heat.ro.get {} n

/-- The sensors of a zone (R374). -/
def zoneSensors (z : Nat) : List Nat :=
  let run (a n : Nat) : List Nat := (List.range n).map (fun i => a + i)
  if z < 8 then run (5 * z) 5
  else if z < 12 then run (40 + 8 * (z - 8)) 8
  else if z = 12 then run 72 4
  else if z = 13 then run 76 8
  else if z = 14 then run 84 5
  else run 89 7

/-- TRIP_C: the Tj starch limit in force (R380). -/
def tripC (s : State) : Nat := s.aon.tjEff

/-- THR_C as it acts (R380). -/
def thrC (s : State) : Nat := max 60 (min 105 (rdFld s R.TH_CTRL 7 0))

/-- THR_EFF in 0.1 °C (R380). -/
def thrEff (s : State) : Int := 10 * min (thrC s : Int) ((tripC s : Int) - 5)

/-- What a sensor reads as: a broken one as THR_EFF + 1 K (R377). -/
def roRead (s : State) (n : Nat) : Int :=
  let r := ro s n
  if r.cause ≠ 0 then thrEff s + 10 else r.temp.getD 0

/-- The largest of a list, with a start value for the empty one. -/
def maxInt (d : Int) (xs : List Int) : Int :=
  match xs with
  | [] => d
  | x :: t => t.foldl max x

/-- T_z (R375). -/
def zoneT (s : State) (z : Nat) : Int := maxInt 0 ((zoneSensors z).map (roRead s))

/-- Healthy sensors of a zone. -/
def healthy (s : State) (z : Nat) : List Nat := (zoneSensors z).filter (fun n => (ro s n).cause = 0)

/-- H_8 (R375). -/
def headroom8 (s : State) : Int := thrEff s - maxInt 0 ((List.range 16).map (zoneT s))

/-- Zones that throttle a cluster (R374). -/
def zonesOfCluster (c : Nat) : List Nat := [c, 8 + c / 2, 15]

/-- A zone that throttles the cluster holds a broken sensor (R377). -/
def clusterBroken (s : State) (c : Nat) : Bool :=
  (zonesOfCluster c).any (fun z => (zoneSensors z).any (fun n => (ro s n).cause != 0))

/-- Some ring-oscillator or DRAM die sensor is declared broken. -/
def anyBroken (s : State) : Bool :=
  s.heat.ro.any (fun e => e.2.cause != 0) || s.mem.dies.any (fun e => e.2.broken)

/-- A 16-bit field of a signed value. -/
def field16 (x : Int) : Nat := (x % 65536).toNat

/-- RO_T as it reads. -/
def roWord (s : State) (n : Nat) : W32 :=
  BitVec.ofNat 32 ((ro s n).cause * 2 ^ 17 + 65536 * b2n ((ro s n).cause != 0) + field16 (roRead s n))

/-! Diodes and thermistors (R372, R373, R378) -/

/-- Reading of a remote diode: a faulted one as its LIMIT_C − 4 K. -/
def diodeRead (s : State) (d : Nat) : Int :=
  let x := s.heat.diodes.get {} d
  if x.fault then 10 * ((rdFld s (R.RD_CFG d) 23 16 : Int) - 4) else x.temp

/-- Reading of a thermistor: a faulted one as TRET_MAX + 1 K. -/
def thermRead (s : State) (t : Nat) : Int :=
  let x := s.heat.therms.get {} t
  if x.fault then 10 * ((rdFld s R.CO_TRET 7 0 : Int) + 1) else x.temp

/-- RD_T and TH_T as they read. -/
def sensWord (v : Int) (fault : Bool) : W32 := BitVec.ofNat 32 (65536 * b2n fault + field16 v)

/-- Enabled remote diodes of an accelerator. -/
def diodesOf (s : State) (a : Nat) : List Nat :=
  (List.range 16).filter (fun d => rdBit s (R.RD_CFG d) 31 && rdFld s (R.RD_CFG d) 27 24 == a)

/-- Budget state of accelerator a. -/
def accB (s : State) (a : Nat) : AccB := s.budget.accs.get {} a
def setAcc (a : Nat) (f : AccB → AccB) (s : State) : State :=
  { s with budget.accs := SMap.upd {} s.budget.accs a f }

/-- H_a in 0.1 K (R375). -/
def headroomAcc (s : State) (a : Nat) : Int :=
  let b := accB s a
  let hot := match b.statusAt with
    | some t => if now s ≤ t + 10 then 10 * ((rdFld s (R.ACC_TLIM a) 7 0 : Int) - b.hotC) else 0
    | none => 0
  ((diodesOf s a).map (fun d => 10 * (rdFld s (R.RD_CFG d) 23 16 : Int) - diodeRead s d)).foldl min hot

/-! Leaks (R396 to R399) -/

/-- Leak loop l. -/
def leakLoop (s : State) (l : Nat) : LeakLoop := s.heat.loops.get {} l
def setLoop (l : Nat) (f : LeakLoop → LeakLoop) (s : State) : State :=
  { s with heat.loops := SMap.upd {} s.heat.loops l f }

/-- A zone is in full leak response, or in warn-and-throttle. -/
def zoneActive (s : State) (z : Nat) : Bool := s.heat.loops.any (fun e => e.2.raised == some z)
def zoneRelaxed (s : State) (z : Nat) : Bool := s.heat.loops.any (fun e => e.2.relaxed == some z)

/-- A participant is held at its floor by a leak zone: accelerators 0 to 7, the TAL8 8 (R397). -/
def leakHolds (s : State) (i : Nat) : Bool :=
  (List.range 16).any (fun z => (zoneActive s z || zoneRelaxed s z) && rdBit s (R.LZ_CFG z) i)

/-- A valve channel is closed by the leak response (R397). -/
def valveClosed (s : State) (c : Nat) : Bool := 40 ≤ c && zoneActive s (c - 40) && rdBit s (R.LZ_CFG (c - 40)) 16

/-! The clock of the sensors (R507) -/

/-- What a ring-oscillator reading counts at for throttle, trip vote and restart: 2 K higher while the AON island runs
from its RC oscillator. -/
def roBias (s : State) : Int := if s.chip.onRc then 20 else 0

/-- A reading as it counts: a broken sensor's stands as R377 gives it. -/
def roActs (s : State) (n : Nat) : Int := if (ro s n).cause ≠ 0 then roRead s n else roRead s n + roBias s

/-- T_z as it counts for the throttle. -/
def zoneActs (s : State) (z : Nat) : Int := maxInt 0 ((zoneSensors z).map (roActs s))

/-! Cooling outputs (R388 to R394) -/

/-- A channel is a valve. -/
def isValve (c : Nat) : Bool := 40 ≤ c

/-- Temperature of a channel's curve source; none without one (R391). -/
def curveSource (s : State) (c : Nat) : Option Int :=
  let k := rdFld s (R.CH_CFG c) 23 16
  if k < 16 then some (zoneT s k)
  else if k < 48 then some (thermRead s (k - 16))
  else if k = 48 then some (maxInt 0 ((List.range 16).map (zoneT s)))
  else none

/-- Point i of a channel's curve: temperature in 0.1 °C, and duty. -/
def curvePoint (s : State) (c i : Nat) : Int × Nat :=
  let w := rd s (if i < 2 then R.CH_CURVE_LO c else R.CH_CURVE_HI c)
  let b := 16 * (i % 2)
  (10 * (fld w (b + 7) b : Int), fld w (b + 15) (b + 8))

/-- Linear interpolation between two points, rounded up to the next whole percent. -/
def curveBetween (a b : Int × Nat) (t : Int) : Nat :=
  (-((-((a.2 : Int) * (b.1 - t) + (b.2 : Int) * (t - a.1))) / (b.1 - a.1))).toNat

/-- The fallback curve of a channel (R391). -/
def curveDuty (s : State) (c : Nat) : Nat :=
  let p := curvePoint s c
  match curveSource s c with
  | none => 0
  | some t =>
    if !((p 0).1 < (p 1).1 && (p 1).1 < (p 2).1 && (p 2).1 < (p 3).1) then 0
    else if t < (p 0).1 then (p 0).2
    else if t < (p 1).1 then curveBetween (p 0) (p 1) t
    else if t < (p 2).1 then curveBetween (p 1) (p 2) t
    else if t < (p 3).1 then curveBetween (p 2) (p 3) t
    else (p 3).2

/-- The override of a channel while it is in force; 0 otherwise (R394). -/
def overrideDuty (s : State) (c : Nat) : Nat :=
  if rdFld s (R.CH_OVR c) 31 8 ≠ 0 then rdFld s (R.CH_OVR c) 7 0 else 0

/-- Flow inputs in use of a loop, its flow in 0.01 L/min, and its MIN in the same unit (R393). -/
def loopFlows (s : State) (k : Nat) : List Nat :=
  (List.range 16).filter (fun f => rdBit s (R.FLOW_CFG f) 31 && rdFld s (R.FLOW_CFG f) 26 24 == k)
def loopRate (s : State) (k : Nat) : Nat := (loopFlows s k).foldl (fun a f => a + rdFld s (R.FLOW_RATE f) 15 0) 0
def loopMin (s : State) (k : Nat) : Nat :=
  match (loopFlows s k).map (fun f => rdFld s (R.FLOW_CFG f) 23 16) with
  | [] => 0
  | m :: t => 10 * t.foldl min m

/-- A channel is failing, and a loop is low on flow: NOW of their status (R393). -/
def chFailing (s : State) (c : Nat) : Bool := rdBit s (R.CH_STAT c) 1
def loopLow (s : State) (k : Nat) : Bool := (loopFlows s k).any (fun f => rdBit s (R.FLOW_STAT f) 1)

/-- GROUP of a channel. -/
def chGroup (s : State) (c : Nat) : Nat := rdFld s (R.CH_CFG c) 7 4

/-- The group of a fan or pump holds a failing one, or a pump's loop is low. -/
def groupFailing (s : State) (c : Nat) : Bool :=
  (List.range 40).any (fun d => chGroup s d == chGroup s c && chFailing s d)
    || (32 ≤ c && loopLow s (chGroup s c))

/-- Every output is held at full: a trip is in force, or the configuration has not loaded the block. -/
def coolFull (s : State) : Bool := s.chip.tripForce || !s.heat.cfgLoaded

/-- Duty of a channel and its WHY (R390). -/
def outputDuty (s : State) (c : Nat) : Nat × Nat :=
  if isValve c && valveClosed s c then (0, 6)
  else if coolFull s || s.heat.wdgFired then (100, 4)
  else
    let l := rdFld s (R.CH_DUTY c) 7 0
    let v := curveDuty s c
    let o := overrideDuty s c
    let m := rdFld s (R.CH_CFG c) 31 24
    if !isValve c && groupFailing s c then (100, 5)
    else
      let d := max (max l v) (max o m)
      (min 100 d, if d = l then 0 else if d = v then 1 else if d = o then 2 else 3)

/-- Set a channel's OUT and WHY. -/
def setOutput (s : State) (c : Nat) : State :=
  let d := outputDuty s c
  wrFld (R.CH_DUTY c) 18 8 (d.2 * 256 + d.1) s

/-- Set every output. -/
def setOutputs (s : State) : State := (List.range 56).foldl setOutput s

/-! Throttle causes (R358) -/

/-- The AON island runs. -/
def aonRuns (s : State) : Bool := !s.chip.sysrstLow && s.chip.vaonOk

/-- CAUSE of an accelerator: bit 0 RACK, 1 GUARD, 2 SAFETY, 3 UNDER_FLOOR. An accelerator that is not active is not
under the floor. -/
def accCause (s : State) (a : Nat) : Nat :=
  let b := accB s a
  b2n (b.rack || (aonRuns s && s.chip.rackThrottle)) + 2 * b2n b.guard
    + 4 * b2n (s.chip.tripForce || s.heat.diodeHot.getLsbD a || leakHolds s a)
    + 8 * b2n (s.budget.underFloor && b.wasActive)

/-- BG_THR_CAUSE as it reads. -/
def thrCauseWord (s : State) : W32 :=
  BitVec.ofNat 32 ((List.range 8).foldl (fun n a => n + accCause s a * 16 ^ a) 0)

/-- BG_LINES as it reads. -/
def bgLinesWord (s : State) : W32 :=
  BitVec.ofNat 32 (65536 * bitsOf 8 (fun a => accCause s a != 0) + 256 * s.budget.rackHold.toNat
    + 16 * b2n s.budget.trayHold + 8 * b2n s.budget.underFloor + 4 * b2n s.chip.rackThrottle
    + 2 * b2n s.chip.rackOff + b2n (s.chip.permit && !s.chip.vstbyBad))

end Sys2Proof.Machine
end

