-- ==== Sys2Proof/Machine/PortOps.lean ====
section
/-! DEFINITION. Operations on the Gheplane ports (07): power, release, failure, the link table and its notices,
remote accesses and what becomes of them.
Log entries coded here: 43 (DEDUCED), 124 (DEDUCED), 126 (DEDUCED), 130 (DEDUCED), 238 (DESIGN CHOICE), 250 (DEDUCED),
251 (DEDUCED), 252 (DEDUCED), 253 (DEDUCED). -/

namespace Sys2Proof.Machine

/-! Accesses that fail (R17, R29, R31, R33) -/

/-- Capture of the first failing address (R33). -/
def captureErr (bit a : Nat) (s : State) : State :=
  let s1 := if rdFld s R.ERR_STATUS 1 0 = 0 then
      wr R.ERR_ADDR_HI (BitVec.ofNat 32 (a / 2 ^ 32 % 65536)) (wr R.ERR_ADDR_LO (BitVec.ofNat 32 a) s)
    else s
  setBits R.ERR_STATUS (2 ^ bit) s1

/-- A DECODE error (R29). -/
def decodeError (a : Nat) (s : State) : State := captureErr 1 a s

/-- An access to a powered-down island (R31, R33). -/
def absentError (a : Nat) (s : State) : State := captureErr 0 a s

/-- A write to a powered-down island is discarded and counted in its sender's error counter (R17). -/
def absentWrite (m a : Nat) (s : State) : State :=
  absentError a { s with chip.absentWrites := SMap.upd 0 s.chip.absentWrites m (fun n => n + 1) }

/-! Remote accesses (R232, R233) -/

/-- Remote accesses outstanding on an A port, or across the seams. -/
def accOutstanding (s : State) (a : Nat) : Nat := (s.torus.remotes.filter (fun r => r.port == a && !r.write)).length
def seamOutstanding (s : State) : Nat := (s.torus.remotes.filter (fun r => 8 ≤ r.port && !r.write)).length

/-- The message of a remote access (R232). -/
def remoteMsg (r : Remote) (data : Bytes) : Msg :=
  { cls := 6, typ := if r.write then 3 else 1, dst := r.dst, tag := r.tag, len := r.len,
    hdr := fix 8 (leBytes 6 r.addr ++ leBytes 1 r.win), payload := data }

/-- The Suorta link carries requests: UP, or RETRAIN, in which they wait (R520). -/
def suOpen (s : State) : Bool := s.su.st == .up || s.su.st == .retrain

/-- An ERR frame to the host (R253). -/
def hostErr (tag status : Nat) (s : State) : State :=
  sendFrame { ch := 2, op := 0x35, tag := tag, attr := status } s

/-- An ERR message (R232). -/
def errMsg (dst tag status : Nat) : Msg :=
  { cls := 6, typ := 5, dst := dst, tag := tag, len := 1, hdr := zeros 8, payload := leBytes 1 status }

/-- Answer a request that came in on port k (R232). -/
def respond (k : Nat) (m : Msg) (s : State) : State := if k < 8 then sendAcc k true m s else sendNodeOrCount true m s

/-- The request that an access was made for: whoever asked gets ERR with a status (R207, R256). -/
def answerErr (o : Owner) (status : Nat) (s : State) : State :=
  match o with
  | .served k src tag _ _ => respond k (errMsg src tag status) s
  | .host t _ _ =>
    if s.su.hostTags.contains t then hostErr t status { s with su.hostTags := s.su.hostTags.erase t } else s
  | _ => s

/-- The access was made for somebody's request, who is told of an error. -/
def Owner.asked (o : Owner) : Bool :=
  match o with
  | .served _ _ _ _ _ => true
  | .host _ _ _ => true
  | _ => false

/-- An access that was answered ABSENT or UNREACHABLE: whoever asked this node gets the same status; a requester of this
node asks again (R107, R233, R256). -/
def remoteAbsent (r : Remote) (status : Nat) (s : State) : State :=
  let s1 := { s with torus.remotes := s.torus.remotes.erase r }
  if r.owner.asked then answerErr r.owner status s1
  else if r.owner = .plain then s1
  else { s1 with torus.absent := s1.torus.absent ++ [r] }

/-- An accelerator's window admits a read or a write (R220). -/
def windowAdmits (s : State) (a win addr len : Nat) (write : Bool) : Bool :=
  match (port s a).windows with
  | some ws => ws.any (fun w => w.win == win && (if write then w.wr else w.rd) && addr + len ≤ w.size)
  | none => false

/-- Tags that a new request may not take: those of requests outstanding, and 0, which messages bear that nobody answers (R233). -/
def tagsUsed (s : State) : List Nat :=
  0 :: s.torus.remotes.map (fun x => x.tag) ++ s.assure.caps.filterMap (fun c => if c.req.isSome || c.sentTo.isSome then some c.reqTag else none)

/-- The tag of the next request. -/
def nextTag (s : State) : Nat := freeTag (tagsUsed s).length s.torus.nextTag (tagsUsed s)

/-- Send a remote access: it takes a tag and goes out on its port or over the seams; towards a port that is not UP, or an
UNREACHABLE node, it is answered at once (R225, R238); so is a read outside a declared window, which is not sent (R220). -/
def issueNow (q : Remote) (s : State) : State :=
  let r := { q with tag := nextTag s }
  let s1 := { s with torus.nextTag := r.tag + 1, torus.remotes := s.torus.remotes ++ [r] }
  if r.port < 8 then
    if ((port s1 r.port).st == .up || (port s1 r.port).st == .retrain) && windowAdmits s1 r.port r.win r.addr r.len r.write
    then sendAcc r.port false (remoteMsg r r.data) s1 else remoteAbsent r 2 s1
  else
    match sendNode false (remoteMsg r r.data) s1 with
    | some t => t
    | none => remoteAbsent r 3 (bump R.CNT_UNREACH s1)

/-- Another read may be outstanding: at most 256 on each A port and 1,024 across the seams (R233). -/
def readRoom (s : State) (r : Remote) : Bool :=
  r.write || (if r.port < 8 then decide (accOutstanding s r.port < 256) else decide (seamOutstanding s < 1024))

/-- Issue a remote access, or let it wait for room (R233). -/
def issueRemote (port : Nat) (write : Bool) (dst win addr len : Nat) (data : Bytes) (o : Owner) (s : State) : State :=
  let r : Remote := ⟨port, 0, write, dst, win, addr, len, o, data⟩
  if readRoom s r then issueNow r s else { s with torus.waiting := s.torus.waiting ++ [r] }

/-- Reads that waited go out while there is room. -/
def pumpRemotes (ws : List Remote) (s : State) : State :=
  match ws with
  | [] => s
  | r :: t =>
    if readRoom s r then pumpRemotes t (issueNow r { s with torus.waiting := s.torus.waiting.erase r }) else pumpRemotes t s

/-! Link table and notices (R237) -/

/-- LINK_NOTICE payload: LINK, STATE, EPOCH. STATE is 1 for UP. -/
def linkNoticeBytes (l : Nat) (e : LinkEntry) : Bytes :=
  leBytes 2 l ++ leBytes 1 (b2n e.up) ++ leBytes 2 e.epoch

/-- The seams that are UP, but one. -/
def upSeamsBut (s : State) (k : Nat) : List Nat :=
  (List.range 4).filter (fun j => j != k && (port s (8 + j)).st == .up)

/-- Flood an entry on the UP seams other than seam `k` (4 names none). -/
def flood (k l : Nat) (s : State) : State :=
  (upSeamsBut s k).foldl (fun a j => sendCtrl (8 + j) 0x04 (linkNoticeBytes l (linkOf a l)) a) s

/-- Store a link table entry; TABLE_EPOCH counts the change. -/
def setLink (l : Nat) (e : LinkEntry) (s : State) : State :=
  bump R.TABLE_EPOCH { s with torus.links := SMap.set {} s.torus.links l e }

/-- What this node's end of a link shows of its own seam: the owner increments EPOCH on a change it observes; the
other end keeps the EPOCH it holds. The change is flooded (R237). -/
def ownLink (k : Nat) (up : Bool) (s : State) : State :=
  let l := seamLink s k
  let e := linkOf s l
  if e.up = up then s
  else flood 4 l (setLink l ⟨up, if ownsLink k then (e.epoch + 1) % 65536 else e.epoch⟩ s)

/-- Serial comparison modulo 2^16: `a` is newer than `b` (R237). -/
def epochNewer (a b : Nat) : Bool := a != b && (a + 65536 - b) % 65536 < 32768

/-- Whether an arriving notice changes the table: a newer EPOCH does; at an equal EPOCH, DOWN wins. -/
def noticeApplies (e n : LinkEntry) : Bool := epochNewer n.epoch e.epoch || (n.epoch == e.epoch && e.up && !n.up)

/-! Ports -/

/-- Offset of port k's register block, and the registers of the block that are counters: they clear only at cold
reset (R247). -/
def isPortReg (k off : Nat) : Bool :=
  R.PORT_CTRL k ≤ off && off ≤ R.TX_CREDIT k 7
    && !(R.GH_CNT_FEC_CORR k ≤ off && off ≤ R.GH_CNT_RETRAIN k) && off != R.TEST_ERR k

/-- A flit of a message that began at another node. -/
def foreign (s : State) (f : Flit) : Bool := f.src != nodeId s

/-- A message is answered with ERR, STATUS 3, to its source node, and counted (R225, R239, R242, R247). -/
def unreachable (dst tag : Nat) (s : State) : State := sendNodeOrCount true (errMsg dst tag 3) (bump R.CNT_UNREACH s)

/-- A FWD message of this node could not be delivered: whoever injected it gets ERR, STATUS 3 (R235). -/
def fwdFails (tag : Nat) (s : State) : State :=
  match s.torus.fwds.get none tag with
  | some a => if a < 8 then sendAcc a true (errMsg (nodeId s) tag 3) s else if suOpen s then hostErr tag 3 s else s
  | none => s

/-- A message of this node was answered with STATUS 2 or 3 and no remote access bears its tag: who sent it is told (R165,
R235). -/
def ownFails (cls tag : Nat) (s : State) : State :=
  if cls = 7 then fwdFails tag s
  else if cls = 1 then { s with torus.lost := s.torus.lost ++ [tag] }
  else s

/-- Two flits are of one message. -/
def Flit.sameMsg (f g : Flit) : Bool := f.key == g.key && f.cls == g.cls && f.typ == g.typ && f.rsp == g.rsp

/-- One flit for each message among DATA flits. -/
def oneEach (fs : List Flit) : List Flit :=
  fs.foldl (fun a f => if f.ftype != 1 || a.any (fun g => g.sameMsg f) then a else a ++ [f]) []

/-- A message that port k held is answered (R225): over a seam as UNREACHABLE to its source, to a requester of this node, or to
whoever injected it; on an A port, whose requests `loseRemotes` answers, a forwarded message still gets its ERR (R235). -/
def loseMessage (k : Nat) (f : Flit) (s : State) : State :=
  if 8 ≤ k then
    if foreign s f then unreachable f.src f.tag s
    else if f.cls = 6 && (f.typ = 1 || f.typ = 3) then
      match s.torus.remotes.find? (fun r => r.tag == f.tag && 8 ≤ r.port) with
      | some r => remoteAbsent r 3 (bump R.CNT_UNREACH s)
      | none => s
    else if f.rsp then s
    else ownFails f.cls f.tag (bump R.CNT_UNREACH s)
  else if f.cls = 7 then
    (if foreign s f then unreachable f.src f.tag s else fwdFails f.tag (bump R.CNT_UNREACH s))
  else s

/-- Accesses outstanding to the accelerator of an A port are answered ABSENT (R17, R225). -/
def loseRemotes (k : Nat) (s : State) : State :=
  if k < 8 then
    let ws := s.torus.waiting.filter (fun r => r.port == k)
    (s.torus.remotes.filter (fun r => r.port == k) ++ ws).foldl (fun a r => remoteAbsent r 2 a)
      { s with torus.waiting := s.torus.waiting.filter (fun r => r.port != k) }
  else s

/-- The lanes of port k are no longer trained: LOCK of LANE_STAT clears (R247). -/
def lanesLost (k : Nat) (s : State) : State := (List.range 4).foldl (fun a l => clrBits (R.GH_LANE_STAT k l) 1 a) s

/-- What port j was carrying on from port k stops: a virtual channel in the middle of such a message is free, and a message whose
last flit has not come goes no further (07, collisions). -/
def cutThrough (k : Nat) (p : Port) : Port :=
  let whole (f : Flit) : Bool := f.via != some k || p.queue.any (fun g => g.last && g.sameMsg f)
  { p with queue := p.queue.filter whole
           out := p.out.filter (fun e => match e.2 with
             | some x => x.1 != some k || p.queue.any (fun g => g.last && g.key == x)
             | none => true) }

/-- Messages half received on seam port k are discarded, and their sources get ERR, STATUS 3 (07, collisions). -/
def halfReceived (k : Nat) (p : Port) (s : State) : State :=
  if k < 8 then s
  else (oneEach (p.asm.flatMap (fun e => e.2))).foldl (fun a f => if foreign a f then unreachable f.src f.tag a else a) s

/-- Everything a port holds is answered, and its link state is empty (R225). -/
def portLose (k : Nat) (s : State) : State :=
  let p := port s k
  let s1 := setPort k (fun p => { p with retry := [], queue := [], asm := [], txSeq := 0, rxSeq := 0, rxAny := false,
                                         nakSent := false, credit := [], owed := [], upSince := none, naks := [],
                                         identOk := false, certOk := false, windows := none, lanes := 0,
                                         farLoop := false, out := [], run := [], idles := [] }) (lanesLost k s)
  let s2 := [8, 9, 10, 11].foldl (fun a j => setPort j (cutThrough k) a) s1
  loseRemotes k (halfReceived k p ((oneEach (p.retry.map (fun x => x.item) ++ p.queue)).foldl (fun a f => loseMessage k f a) s2))

/-- A seam that leaves UP counts as down in the table from that moment (R226). -/
def seamFails (k : Nat) (s : State) : State := if 8 ≤ k then ownLink (k - 8) false s else s

/-- Move port k to a state. -/
def portGo (k : Nat) (st : PortSt) (s : State) : State := setPort k (fun p => { p with st := st }) s

/-- The port enters DOWN (R218, R225). -/
def portDown (k : Nat) (s : State) : State := portLose k (portGo k .down (seamFails k s))

/-- Whether a seam port is released from HOLD (R32, R219): a valid identity, and a dimension above one. -/
def seamReleased (s : State) (k : Nat) : Bool :=
  identityOk s && (if k < 10 then sizeX s != 1 else sizeY s != 1)

/-- A powered and enabled port leaves OFF in the MODE that now stands: a seam port waits in HOLD until it is released (R32,
R218). -/
def portStart (k : Nat) (s : State) : State :=
  let s1 := setPort k (fun p => { p with mode := rdFld s (R.PORT_CTRL k) 3 2 }) s
  if k < 8 || seamReleased s1 k then portGo k .training s1 else portGo k .hold s1

/-- The island of port k gets its supply: its registers take their reset values, except the counters (R247). -/
def portPowerUp (k : Nat) (s : State) : State :=
  let s1 := loadRegs (isPortReg k) <| dropRegs (isPortReg k) { s with chip.islands := s.chip.islands ||| (1#26 <<< (12 + k)) }
  let s2 := { s1 with ports := SMap.set {} s1.ports k {} }
  if rdBit s2 (R.PORT_CTRL k) 0 then portStart k s2 else s2

/-- The island of port k stops accepting entries, and its link goes down; its supply goes when it has drained
(R17, R18). -/
def portPowerDown (k : Nat) (s : State) : State :=
  if islandOn (12 + k) s then
    let s1 := portLose k (portGo k .off (seamFails k s))
    { s1 with chip.draining := s1.chip.draining ||| (1#26 <<< (12 + k)) }
  else s

/-- A released identity lets the seam ports in HOLD train (R32). -/
def releaseSeams (s : State) : State :=
  [8, 9, 10, 11].foldl (fun a k => if (port a k).st = .hold && seamReleased a k then portGo k .training a else a) s

end Sys2Proof.Machine
end

