-- ==== Sys2Proof/Machine/SuOps.lean ====
section
/-! DEFINITION. Operations on the Suorta link (08): requests towards the host, the host-line cache, and what a link
that goes down leaves (R264, R520).
Log entries coded here: 65 (DEDUCED), 67 (PRESUMED), 132 (DEDUCED), 137 (DEDUCED), 138 (DEDUCED), 139 (DEDUCED), 263
(DEDUCED). -/

namespace Sys2Proof.Machine

/-- Operations of the REQ channel that the TAL8 sends (R253). -/
abbrev Op.RD_S : Nat := 0x01
abbrev Op.RD_NC : Nat := 0x02
abbrev Op.WR_NC : Nat := 0x03
abbrev Op.DROP : Nat := 0x04
abbrev Op.CLAIM_S : Nat := 0x05
abbrev Op.CLAIM_E : Nat := 0x06

/-- Base of the host window (R27). -/
abbrev hostBase : Nat := 0x10000000000

/-- Bytes of the host window (R206). -/
def hostSize (s : State) : Nat := min (rdFld s R.HWIN_SIZE 11 0) 2048 * 2 ^ 30

/-- The size of the host-cacheable range of tray DRAM, and its place (R260): SU_HCR. -/
def hcrBase (s : State) : Nat := rdFld s R.SU_HCR 8 0 * 2 ^ 30
def hcrSize (s : State) : Nat :=
  let n := rdFld s R.SU_HCR 22 16
  if 64 < n || 384 < rdFld s R.SU_HCR 8 0 + n then 0 else n * 2 ^ 30

/-- An access that the host or its link does not answer: as `remoteAbsent`, with the host as port 12 (R264, R520). -/
def hostReqAbsent (r : HostReq) (s : State) : State :=
  if r.owner.asked then answerErr r.owner 2 s
  else match r.owner with
  | .plain => s
  | .mem m => if r.op = Op.CLAIM_E then absentWrite m r.addr s else absentError r.addr s
  | _ => { s with torus.absent := s.torus.absent
           ++ [⟨12, r.tag, r.op == Op.WR_NC || r.op == Op.CLAIM_E, 0, r.op, r.addr, r.len, r.owner, r.data⟩] }

/-- A request is a claim (R261). -/
def isClaim (op : Nat) : Bool := op == Op.CLAIM_S || op == Op.CLAIM_E

/-- The aligned lines of the host-cacheable range that an access touches: address and length (R261). -/
def claimRange (s : State) (a n : Nat) : Nat × Nat :=
  let lo := max a (hcrBase s) / 64 * 64
  let hi := (min (a + n) (hcrBase s + hcrSize s) + 63) / 64 * 64
  (lo, hi - lo)

/-- A request goes out: it takes a tag; a claim names the aligned lines (R253, R261). -/
def sendRequest (q : HostReq) (s : State) : State :=
  let r := { q with tag := freeTag s.su.reqs.length s.su.nextTag (s.su.reqs.map (fun x => x.tag)) }
  let at_ := if isClaim r.op then claimRange s r.addr r.len else (r.addr, r.len)
  let s1 := if isClaim r.op then bump R.SU_CNT_CLAIM s else s
  sendFrame { ch := 0, op := r.op, tag := r.tag, len := at_.2, addr := at_.1,
              data := if r.op = Op.WR_NC then r.data else [] }
    { s1 with su.nextTag := r.tag + 1, su.reqs := s1.su.reqs ++ [r] }

/-- A request must wait: 1,024 are outstanding, or it writes a line whose fill is outstanding (R256, 08). -/
def requestWaits (s : State) (r : HostReq) : Bool :=
  1024 ≤ s.su.reqs.length
    || (r.op == Op.WR_NC && (List.range ((r.addr + r.len + 63) / 64 - r.addr / 64)).any (fun i =>
        match s.su.hlc.get none (r.addr / 64 + i) with
        | some x => !x.filled
        | none => false))

/-- Send a request towards the host; while the link is neither UP nor in RETRAIN it is answered ABSENT (R520). -/
def hostRequest (op addr len : Nat) (data : Bytes) (o : Owner) (s : State) : State :=
  let r : HostReq := ⟨0, op, addr, len, data, o⟩
  if !suOpen s then hostReqAbsent r s
  else if requestWaits s r then { s with su.waits := s.su.waits ++ [r] }
  else sendRequest r s

/-- Requests that waited go out, oldest first, while they may. -/
def pumpHost (ws : List HostReq) (s : State) : State :=
  match ws with
  | [] => s
  | r :: t => pumpHost t (if requestWaits s r then s else sendRequest r { s with su.waits := s.su.waits.erase r })

/-- Lines of 64 bytes that a range of host-window offsets covers: first and count. -/
def linesOf (off len : Nat) : List Nat :=
  (List.range ((off + len + 63) / 64 - off / 64)).map (fun i => off / 64 + i)

/-- Whether an offset lies in the cacheable range (R258). -/
def hlcCovers (s : State) (off len : Nat) : Bool :=
  let b := rdFld s R.SU_HLC_BASE 10 0 * 2 ^ 30
  let n := rdFld s R.SU_HLC_SIZE 11 0 * 2 ^ 30
  rdBit s R.SU_HLC 31 && s.su.hlcActive && b ≤ off && off + len ≤ b + n

/-- The line of the host-line cache. -/
def hlcLine (s : State) (l : Nat) : Option Line := s.su.hlc.get none l

/-- Store or remove a line. -/
def setLine (l : Nat) (v : Option Line) (s : State) : State := { s with su.hlc := SMap.set none s.su.hlc l v }

/-- DROP of one line: it leaves the cache and the host is told (R258). -/
def dropLine (l : Nat) (s : State) : State := hostRequest Op.DROP (64 * l) 64 [] .plain (setLine l none s)

/-- Lines of the set that a line falls into (R257). -/
def hlcSet (s : State) (l : Nat) : List (Nat × Line) :=
  s.su.hlc.filterMap (fun e => if e.1 % 65536 = l % 65536 then e.2.map (fun x => (e.1, x)) else none)

/-- The way used longest ago. -/
def hlcVictim (s : State) (l : Nat) : Option Nat :=
  ((hlcSet s l).filter (fun e => e.2.filled)).foldl (fun o e => match o with
    | none => some e
    | some b => if e.2.used < b.2.used then some e else some b) none |>.map (fun e => e.1)

/-- A line whose fill is now outstanding: the least recently used of 16 ways is replaced, with DROP (R257, R258). -/
def hlcPending (l : Nat) (s : State) : State :=
  match hlcLine s l with
  | some _ => s
  | none =>
    let s1 := if (hlcSet s l).length < 16 then s else
      match hlcVictim s l with
      | some v => dropLine v s
      | none => s
    if (hlcSet s1 l).length < 16 then
      setLine l (some { filled := false, used := s1.su.hlcUse }) { s1 with su.hlcUse := s1.su.hlcUse + 1 }
    else s1

/-- A line is used. -/
def hlcTouch (l : Nat) (s : State) : State :=
  match hlcLine s l with
  | some x => setLine l (some { x with used := s.su.hlcUse }) { s with su.hlcUse := s.su.hlcUse + 1 }
  | none => s

/-- Bytes of filled lines, or none where one is not filled. -/
def hlcBytes (s : State) (ls : List Nat) : Option Bytes :=
  ls.foldl (fun o l => match o, hlcLine s l with
    | some bs, some x => if x.filled then some (bs ++ fix 64 x.data) else none
    | _, _ => none) (some [])

/-- RD_S for lines from `l` on, at most 64 in one frame (R253). -/
def readLines (l n k : Nat) (o : Nat → Owner) (s : State) : State :=
  match k with
  | 0 => s
  | j + 1 =>
    if n = 0 then s
    else readLines (l + 64) (n - 64) j o (hostRequest Op.RD_S (64 * l) (64 * min n 64) [] (o (64 * l)) s)

/-- A read of the host window by a TAL8 master (R258): a hit in the host-line cache answers at once with its bytes;
a miss sends RD_S for the aligned lines, and every other read RD_NC. While the link carries no requests no line is awaited. -/
def hostRead (off len : Nat) (o : Nat → Owner) (s : State) : State × Option Bytes :=
  if hlcCovers s off len then
    let ls := linesOf off len
    match hlcBytes s ls with
    | some bs => (ls.foldl (fun a l => hlcTouch l a) (bumpBy R.SU_CNT_HLC_HIT ls.length s), some (slice bs (off % 64) len))
    | none =>
      let s0 := bumpBy R.SU_CNT_HLC_MISS ls.length s
      let s1 := if suOpen s then ls.foldl (fun a l => hlcPending l a) s0 else s0
      (readLines (off / 64) ls.length (ls.length / 64 + 1) o s1, none)
  else (hostRequest Op.RD_NC off len [] (o off) s, none)

/-- A write of host memory by a TAL8 master: the copies of the lines are dropped first, then WR_NC (R257). -/
def hostWrite (off : Nat) (bs : Bytes) (o : Owner) (s : State) : State :=
  let s1 := (linesOf off bs.length).foldl (fun a l => match hlcLine a l with
    | some x => if x.filled then dropLine l a else setLine l (some { x with noInstall := true }) a
    | none => a) s
  hostRequest Op.WR_NC off bs.length bs o s1

/-- ACTIVE of SU_HLC changes, and the host is told (R259, R269). -/
def setHlcActive (v : Bool) (s : State) : State := notice 8 (b2n v) 0 0 { s with su.hlcActive := v }

/-- EN is cleared: allocation stops, every line in S is dropped, a fill outstanding will not be installed, and ACTIVE
clears (R259). -/
def hlcDisable (s : State) : State :=
  let s1 := clrBits R.SU_HLC (2 ^ 31) { s with su.hlcEnableWaits := false, su.hlcHolders := [] }
  let s2 := s1.su.hlc.foldl (fun a e => match e.2 with
    | some x => if x.filled then dropLine e.1 a else setLine e.1 (some { x with noInstall := true }) a
    | none => a) s1
  if s2.su.hlcActive then setHlcActive false s2 else s2

/-- EN is set: the cache is active once the plans that hold the upper SRAM have ended (R259). -/
def hlcEnable (holders : List Nat) (s : State) : State :=
  let s1 := setBits R.SU_HLC (2 ^ 31) s
  if s1.su.hlcActive then s1
  else if holders.isEmpty then setHlcActive true s1
  else { s1 with su.hlcEnableWaits := true, su.hlcHolders := holders }

/-- Every mailbox of the host returns to version 3.2 now if IDLE, else when next IDLE (R264). -/
def hostVersions (s : State) : State :=
  [0, 1, 2, 3, 4, 5, 6, 7, 8, 9, 10, 11, 15].foldl (fun a n =>
    if (mbox a n).st = .idle then setMb n (fun m => { m with major := 3, minor := 2 }) a
    else { a with su.verReset := a.su.verReset ||| (1#16 <<< n) }) s

/-- HOST_RESET and DOWN alike (R264): batches not yet confirmed are delivered again; the HLC is emptied without DROP, the requests outstanding are answered ABSENT,
and the host's mailboxes return to version 3.2. Notices wait in NOTICE_PEND. -/
def hostLost (s : State) : State :=
  let s1 := { s with su.hlc := [], su.hostTags := [], su.reqs := [], su.waits := [], meter.delivered := [] }
  hostVersions ((s.su.reqs ++ s.su.waits).foldl (fun a r => hostReqAbsent r a) s1)

/-- The link state that a link which is not UP keeps nothing of. -/
def suEmpty (u : Suorta) : Suorta :=
  { u with retry := [], queue := [], credit := [], owed := [], txSeq := 0, rxSeq := 0, rxAny := false, nakSent := false,
           lanes := 0 }

/-- Move the Suorta link to a state. -/
def suGo (st : PortSt) (s : State) : State := { s with su.st := st }

/-- Notices that wait in the link's queue wait in NOTICE_PEND, the latest of each kind (R264, R269). -/
def noticesWait (fs : List Frame) (s : State) : State :=
  fs.foldl (fun a f =>
    if f.ch = 3 && (a.su.pend.get none (leAt f.data 0 2)).isNone then
      { a with su.pend := SMap.set none a.su.pend (leAt f.data 0 2) (some ⟨leAt f.data 2 2, leAt f.data 4 2, leAt f.data 8 8⟩) }
    else a) s

/-- The link leaves traffic for DOWN, OFF or TEST: R264 applies. -/
def suLeave (st : PortSt) (s : State) : State :=
  let s1 := noticesWait s.su.queue.reverse (hostLost (suGo st s))
  (List.range 16).foldl (fun a l => clrBits (R.SU_LANE_STAT l) 1 a) { s1 with su := suEmpty s1.su, torus.fwds := s1.torus.fwds.filter (fun e => e.2 != some 12) }

/-- The enabled link leaves OFF in the MODE that now stands (R218, R251). -/
def suStart (s : State) : State := suGo .training { s with su.mode := rdFld s R.SU_CTRL 2 2 }

/-- SUORTA registers, and whether one of them is a counter (R283). -/
def inSuBlock (off : Nat) : Bool := 0x38000000 ≤ off && off < 0x39000000
def suCounter (off : Nat) : Bool := 0x38000080 ≤ off && off < 0x380000A8

/-- The Suorta island gets its supply: its registers reset and its link trains (R218, R251, R283). -/
def suPowerUp (s : State) : State :=
  let s1 := loadRegs inSuBlock <| dropRegs (fun o => inSuBlock o && !suCounter o) { s with chip.islands := s.chip.islands ||| (1#26 <<< 24) }
  let s2 := { s1 with su := suEmpty { s1.su with hlc := [], hlcActive := rdBit s1 R.SU_HLC 31 } }
  if rdBit s2 R.SU_CTRL 0 then suStart s2 else suGo .off s2

/-- The Suorta island loses its supply: the link enters DOWN first (R520). -/
def suPowerDown (s : State) : State :=
  if islandOn 24 s then
    let s1 := suLeave .off s
    { s1 with chip.islands := s1.chip.islands &&& ~~~(1#26 <<< 24) }
  else s

end Sys2Proof.Machine
end

