-- ==== Sys2Proof/Machine/TrayCode.lean ====
section
/-! DEFINITION. The tray code (R196 to R199): RS(36, 32) over GF(2^8) with polynomial 0x11D, its encoder and
its two decoders. -/

namespace Sys2Proof.Machine

/-- Multiplication by α = 0x02 in GF(2^8), polynomial 0x11D (R196). -/
def gfDouble (a : Byte) : Byte := if a.getLsbD 7 then (a <<< 1) ^^^ 0x1D#8 else a <<< 1

/-- The product of two field elements, over `n` bits of the second. -/
def gfMulGo (n : Nat) (a b acc : Byte) : Byte :=
  match n with
  | 0 => acc
  | k + 1 => gfMulGo k (gfDouble a) (b >>> 1) (if b.getLsbD 0 then acc ^^^ a else acc)

/-- The product of two field elements. -/
def gfMul (a b : Byte) : Byte := gfMulGo 8 a b 0

/-- The power α^n. -/
def gfAlpha (n : Nat) : Byte :=
  match n with
  | 0 => 1
  | k + 1 => gfDouble (gfAlpha k)

/-- The square-and-multiply part of an inverse: the product of a^2, a^4, … a^128, which is a^254. -/
def gfInvGo (n : Nat) (sq acc : Byte) : Byte :=
  match n with
  | 0 => acc
  | k + 1 => gfInvGo k (gfMul sq sq) (gfMul acc sq)

/-- The inverse of a field element (of 0: 0). -/
def gfInv (a : Byte) : Byte := gfInvGo 7 (gfMul a a) 1

/-- One step of the division by g(x): the remainder register takes the next data byte (R197). -/
def tcStep (r : Byte × Byte × Byte × Byte) (d : Byte) : Byte × Byte × Byte × Byte :=
  let f := d ^^^ r.1
  (r.2.1 ^^^ gfMul f 0x0F, r.2.2.1 ^^^ gfMul f 0x36, r.2.2.2 ^^^ gfMul f 0x78, gfMul f 0x40)

/-- The four check bytes of 32 data bytes (R197). -/
def tcCheck (d : Bytes) : Bytes :=
  let r := d.foldl tcStep (0, 0, 0, 0)
  [r.1, r.2.1, r.2.2.1, r.2.2.2]

/-- A word of the tray code: 32 data bytes and their check bytes. -/
def tcEncode (d : Bytes) : Bytes := fix 32 d ++ tcCheck (fix 32 d)

/-- Syndrome S_i: the word as a polynomial at α^i (R197). -/
def tcSyndrome (w : Bytes) (i : Nat) : Byte :=
  let x := gfAlpha i
  w.foldl (fun acc b => gfMul acc x ^^^ b) 0

/-- The four syndromes of a word. -/
def tcSyndromes (w : Bytes) : Bytes := (List.range 4).map (tcSyndrome w)

/-- What a decoder answers: clean, corrected at byte positions, or uncorrectable. -/
inductive TcResult where
  | clean
  | corrected (word : Bytes) (bytes : List Nat)
  | uncorrectable
  deriving DecidableEq, Repr

/-- Add `e` to byte `j` of a word. -/
def addByte (w : Bytes) (j : Nat) (e : Byte) : Bytes := w.set j (w.getD j 0 ^^^ e)

/-- Whether an error of value S_0 at position p explains the syndromes: S_i = S_0 × α^(p × i) for every i. -/
def oneError (s : Bytes) (p : Nat) : Bool :=
  (List.range 4).all (fun i => s.getD i 0 == gfMul (s.getD 0 0) (gfAlpha (p * i)))

/-- Mode C1D3 (R198): one symbol is corrected, every other non-zero syndrome is uncorrectable. -/
def tcDecode1 (w : Bytes) : TcResult :=
  let s := tcSyndromes w
  if s.all (fun x => x == 0) then .clean
  else if s.getD 0 0 = 0 then .uncorrectable
  else
    match (List.range 36).find? (oneError s) with
    | some p => .corrected (addByte w (35 - p) (s.getD 0 0)) [35 - p]
    | none => .uncorrectable

/-- The error values at two positions that S_0 and S_1 fix, where S_2 and S_3 agree with them and both errors are
there (R199). -/
def twoErrors (s : Bytes) (p q : Nat) : Option (Byte × Byte) :=
  let x := gfAlpha p
  let y := gfAlpha q
  let f := gfMul (s.getD 1 0 ^^^ gfMul (s.getD 0 0) x) (gfInv (x ^^^ y))
  let e := s.getD 0 0 ^^^ f
  if e != 0 && f != 0
      && s.getD 2 0 == (gfMul e (gfAlpha (2 * p)) ^^^ gfMul f (gfAlpha (2 * q)))
      && s.getD 3 0 == (gfMul e (gfAlpha (3 * p)) ^^^ gfMul f (gfAlpha (3 * q))) then some (e, f) else none

/-- The pairs of positions p < q of a word. -/
def tcPairs : List (Nat × Nat) :=
  (List.range 36).flatMap (fun q => (List.range q).map (fun p => (p, q)))

/-- Mode C2 (R199): up to two symbols are corrected. -/
def tcDecode2 (w : Bytes) : TcResult :=
  match tcDecode1 w with
  | .uncorrectable =>
    let s := tcSyndromes w
    (match tcPairs.find? (fun pq => (twoErrors s pq.1 pq.2).isSome) with
     | some (p, q) =>
       (match twoErrors s p q with
        | some (e, f) => .corrected (addByte (addByte w (35 - p) e) (35 - q) f) [35 - q, 35 - p]
        | none => .uncorrectable)
     | none => .uncorrectable)
  | r => r

/-- The decoder that MODE of TC_MODE selects (R200). -/
def tcDecode (c2 : Bool) (w : Bytes) : TcResult := if c2 then tcDecode2 w else tcDecode1 w

/-- The bitwise sum of two byte strings: an error pattern on a word. -/
def xorBytes (a b : Bytes) : Bytes := List.zipWith (· ^^^ ·) a (fix a.length b)

end Sys2Proof.Machine
end

