-- ==== Sys2Proof/Machine/Access.lean ====
section
/-! DEFINITION. Accesses to the address map: regions and DECODE (R27 to R34), the firewall and pinning (R452 to R455),
and the bytes of tray DRAM.
Log entries coded here: 45 (DEDUCED), 46 (DEDUCED), 48 (DEDUCED), 49 (DEDUCED), 60 (DESIGN CHOICE), 112 (DEDUCED), 113
(DESIGN CHOICE), 114 (DEDUCED), 210 (DEDUCED), 238 (DESIGN CHOICE). -/

namespace Sys2Proof.Machine

/-- Sizes and bases of the regions (R27). -/
abbrev dramSize : Nat := 384 * 2 ^ 30
abbrev sramBase : Nat := 0x080000000000
abbrev sramSize : Nat := 192 * 0x300000
abbrev regBase : Nat := 0x0F0000000000
abbrev peerBase : Nat := 0x100000000000
abbrev peerSpan : Nat := 0x008000000000

/-- Where an access of the address map lands. -/
inductive Place where
  | dram (a : Nat)
  | host (off : Nat)
  | sram (off : Nat)
  | reg (off : Nat)
  /-- Tray DRAM of another node. -/
  | peer (node off : Nat)
  /-- A window of an accelerator, which a plan of assurance reads (R159). -/
  | acc (port win off : Nat)
  /-- The scheduler core's scratch for peers (R166). -/
  | work (off : Nat)
  | none
  deriving DecidableEq, Repr

/-- A range within an area of tray DRAM given in GiB units by a register with BASE in [8:0] and SIZE in [24:16]; an
area beyond 384 GiB, or that overlaps the other one, acts as size 0 (R189). -/
def areaBase (s : State) (r : Nat) : Nat := rdFld s r 8 0 * 2 ^ 30
def areaRaw (s : State) (r : Nat) : Nat :=
  if 384 < rdFld s r 8 0 + rdFld s r 24 16 then 0 else rdFld s r 24 16 * 2 ^ 30
def areasOverlap (s : State) : Bool :=
  areaRaw s R.EVID_AREA != 0 && areaRaw s R.LIB_AREA != 0
    && areaBase s R.EVID_AREA < areaBase s R.LIB_AREA + areaRaw s R.LIB_AREA
    && areaBase s R.LIB_AREA < areaBase s R.EVID_AREA + areaRaw s R.EVID_AREA
def areaSize (s : State) (r : Nat) : Nat := if areasOverlap s then 0 else areaRaw s r

/-- [a, a + n) lies within [b, b + m). -/
def within (a n b m : Nat) : Bool := b ≤ a && a + n ≤ b + m

/-- The peer slot of an address, and the offset in it. -/
def peerSlot (a : Nat) : Nat := (a - peerBase) / peerSpan
def peerOff (a : Nat) : Nat := (a - peerBase) % peerSpan

/-- Addresses beyond 64-bit register space that only plans of the TAL8 itself name: an accelerator's window (R159), a
delegating node's evidence (R177), and the scheduler core's scratch for peers (R166). DESIGN CHOICE: assumption 60. -/
def accAddr (a win off : Nat) : Nat := 2 ^ 63 + a * 2 ^ 56 + win * 2 ^ 48 + off
def nodeAddr (n off : Nat) : Nat := 2 ^ 63 + 2 ^ 62 + n * 2 ^ 48 + off
def workAddr (slot off : Nat) : Nat := 2 ^ 63 + 2 ^ 61 + slot * 2 ^ 48 + off

/-- Where such an address lands. -/
def selfPlace (a : Nat) : Place :=
  if a.testBit 62 then .peer (a / 2 ^ 48 % 2048) (a % 2 ^ 48)
  else if a.testBit 61 then .work (a % 2 ^ 61)
  else .acc (a / 2 ^ 56 % 8) (a / 2 ^ 48 % 16) (a % 2 ^ 48)

/-- Decode an access as a whole (R28 to R30): its bytes lie in one region, and the region serves them. -/
def placeOf (s : State) (a n : Nat) : Place :=
  if 2 ^ 63 ≤ a then selfPlace a
  else if a + n ≤ dramSize then .dram a
  else if within a n hostBase (hostSize s) then .host (a - hostBase)
  else if within a n sramBase sramSize then
    -- the range that the host-line cache holds is not addressable (R83)
    let off := a - sramBase
    if s.su.hlcActive && 16 ≤ off / 0x300000 % 24 && 0x200000 < off % 0x300000 + n then .none else .sram off
  else if within a n regBase 0x100000000 then (if inRegBlock (a - regBase) then .reg (a - regBase) else .none)
  else if peerBase ≤ a && peerSlot a < 480 && peerOff a + n ≤ dramSize then
    let w := rd s (R.PEER_WIN (peerSlot a))
    let node := fld w 10 0
    if !bitAt w 31 || !nodeInTorus s node then .none
    else if node = nodeId s then .dram (peerOff a)
    else .peer node (peerOff a)
  else .none

/-! The firewall (R452) -/

/-- A plan of the TAL8 itself, against a plan of the host. -/
def Plan.isSelf (p : Plan) : Bool :=
  match p.owner with
  | .host _ _ => false
  | _ => true

/-- Register block number of an offset. -/
def regBlock (off : Nat) : Nat := off / 0x1000000

/-- Whether an access of register space lies in the SEC or the FWALL block. -/
def inSecBlocks (off n : Nat) : Bool := within off n 0x09000000 0x02000000

/-- Mailboxes of the MBX rights that the firewall gives the host, or the debug port (R284). -/
def mbxRight (host : Bool) (off n : Nat) : Bool :=
  let mbOk (k : Nat) : Bool := if host then k ≤ 11 || k == 15 else k == 15
  (off < 0x08000400 && 0x08000000 ≤ off && mbOk ((off - 0x08000000) / 0x40)
      && (off - 0x08000000) % 0x40 + n ≤ 0x40
      && [0, 8].contains ((off - 0x08000000) % 0x40))
    || (0x08100000 ≤ off && off + n ≤ 0x08300000 && mbOk ((off - 0x08100000) / 0x20000)
      && (off - 0x08100000) % 0x20000 + n ≤ 0x20000)

/-- Programmable window w of master m admits an access (R452, R462). -/
def progWindow (s : State) (m a n : Nat) (write : Bool) (w : Nat) : Bool :=
  let i := 16 * m + w
  let base := rdFld s (R.WIN_BASE_HI i) 15 0 * 2 ^ 32 + rdN s (R.WIN_BASE_LO i) / 4096 * 4096
  let size := rdN s (R.WIN_PAGES i) * 4096
  rdBit s (R.WIN_CTL i) 31 && rdBit s (R.WIN_CTL i) (if write then 1 else 0) && size != 0
    && base + size ≤ 2 ^ 48 && within a n base size

/-- The plan that runs on a cluster. -/
def runsOn (s : State) (c : Nat) : Option Plan :=
  (s.press.clusters.get {} c).plan.bind (fun id => s.press.plans.find? (fun p => p.id == id))

/-- An access lies in scratch memory that a plan holds (R143). -/
def Plan.holds (p : Plan) (a n : Nat) : Bool := p.parts.any (fun q => within a n q.addr q.len)

/-- Fixed windows (R452): what master m may do to a placed access at address a. -/
def fixedWindow (s : State) (m a n : Nat) (write : Bool) : Bool :=
  let inReg := within a n regBase 0x100000000
  let off := a - regBase
  let dram := a + n ≤ dramSize
  let host := within a n hostBase (2 ^ 41)
  let peer := peerBase ≤ a && a + n ≤ peerBase + 480 * peerSpan
  let pm := (inReg && (!write || !inSecBlocks off n)) || dram || host
  let sched := if inReg && write && regBlock off = 1 then false else pm || peer
  let suorta := dram || peer
    || (inReg && !write && !inSecBlocks off n) || (inReg && mbxRight true off n)
  if m = 0 || m = 13 then true
  else if m = 1 then pm
  else if m = 2 then sched
  else if m ≤ 10 then
    (inReg && within off n (0x10000000 + (m - 3) * 0x1000000) 0x1000000)
      || (inReg && !write && regBlock off != 9) || dram || host || peer
  else if m = 11 then write && within a n (areaBase s R.EVID_AREA) (areaSize s R.EVID_AREA)
  else if m = 12 then write && host
  else if m = 14 then dram || host
  else if m ≤ 22 then
    -- the windows that the plan's load was checked against, programmable ones too, and its scratch
    match runsOn s (m - 15) with
    | some p =>
      if p.isSelf then sched || (List.range 16).any (progWindow s 2 a n write)
      else suorta || (List.range 16).any (progWindow s 35 a n write) || p.holds a n
    | none => false
  else if m ≤ 30 then !write && rdBit s R.AS_CTRL 2 && within a n (areaBase s R.LIB_AREA) (areaSize s R.LIB_AREA)
  else if m ≤ 34 then dram
  else if m = 35 then suorta
  else s.sec.debugUnlocked && !s.sec.pinned.getLsbD 36 && ((inReg && !write) || (inReg && mbxRight false off n))

/-- Every master may read the mailbox state, version and block registers (R284). -/
def mbxPublic (a n : Nat) (write : Bool) : Bool :=
  !write && within a n (regBase + 0x08000000) 0x1000
    && (0x800 ≤ (a - regBase) % 0x1000 || [4, 0xC].contains ((a - regBase) % 0x40))

/-- The firewall admits an access of n bytes: one window covers it whole and grants its right (R452). -/
def fwAdmits (s : State) (m a n : Nat) (write : Bool) : Bool :=
  fixedWindow s m a n write || mbxPublic a n write || (List.range 16).any (progWindow s m a n write)

/-- Master m is pinned. -/
def isPinned (s : State) (m : Nat) : Bool := s.sec.pinned.getLsbD m

/-- A core's bit in CORE_DOWN is set. -/
def coreDownSet (k : Nat) (s : State) : State := { s with aon.coreDown := s.aon.coreDown ||| (1#11 <<< k) }

/-- A violation: counted, captured if it is the first, and the master pinned with a Keep event; the debug port is
locked (R453, R454); a pinned core stops, which `refuseAccess` adds. A master pinned already is only counted (R455). -/
def violate (m a n : Nat) (write : Bool) (s : State) : State :=
  let s1 := bump R.CNT_VIOL s
  let info := BitVec.ofNat 32 ((if write then 2 ^ 31 else 0) + n % 8192 * 65536 + m)
  if isPinned s m then s1
  else
    let s2 := if rdBit s1 R.FW_ERR 0 then s1 else
      setBits R.FW_ERR 1 (wr R.FW_VIOL_ADDR_HI (BitVec.ofNat 32 (a / 2 ^ 32 % 65536))
        (wr R.FW_VIOL_ADDR_LO (BitVec.ofNat 32 a) (wr R.FW_VIOL_INFO info s1)))
    if m = 0 || m = 13 then s2
    else
      raise 11 5 m (regData info ++ leBytes 6 a) { s2 with sec.pinned := s2.sec.pinned ||| (1#37 <<< m) }

/-! Islands that answer -/

/-- MEM registers held until cold reset (R213). -/
def memHeld (off : Nat) : Bool :=
  off == R.TC_MODE || off == R.HWIN_BASE || off == R.HWIN_SIZE || (0x20000020 ≤ off && off < 0x20000060)
    || (List.range 4).any (fun q => off == R.LANE_SUSPECT_LO q || off == R.LANE_SUSPECT_HI q)

/-- Registers of a block whose island is down answer ABSENT, but for the held ones (R31, R200, R213, R247, R402, R426);
of a cluster's block, CL_STATE and CL_FREQ_ACT, which read OFF and 0 (R108). -/
def regAnswers (s : State) (off : Nat) : Bool :=
  match off / 0x1000000 with
  | 0x04 => islandAnswers 1 s
  | 0x05 => islandAnswers 1 s
  | 0x20 => memHeld off || islandAnswers 11 s
  | 0x30 => 0x30880000 ≤ off && off < 0x30890000 || islandAnswers (12 + (off - 0x30000000) / 0x100000) s
  | 0x38 => islandAnswers 24 s
  | b =>
    if 0x20 ≤ b && b < 0x30 then islandAnswers 11 s
    else if 0x10 ≤ b && b < 0x18 then
      islandAnswers (3 + (b - 0x10)) s || off % 0x1000000 == 0x00 || off % 0x1000000 == 0x0C
    else true

/-! Tray DRAM -/

/-- The canonical form of memory: addresses strictly rising, and no byte equal to the zero that an unlisted one reads as
(R209). -/
abbrev Memory.wf (m : SMap Byte) : Bool := SMap.wf 0 m

/-- STATE of MEM_STATE is READY (R209). -/
def memReady (s : State) : Bool := rdFld s R.MEM_STATE 2 0 == 3

/-- Tray DRAM answers accesses: READY, and its island not in the course of powering down (R17, R18, R209, R211). -/
def dramOpen (s : State) : Bool := memReady s && !s.chip.draining.getLsbD 11

/-- A byte of tray DRAM. -/
def dramByte (s : State) (a : Nat) : Byte := s.mem.data.get 0 a

/-- `n` bytes of tray DRAM. -/
def dramRead (s : State) (a n : Nat) : Bytes := (List.range n).map (fun i => dramByte s (a + i))

/-- Write bytes of a map from an address on. -/
def writeMap (m : SMap Byte) (a : Nat) (bs : Bytes) : SMap Byte :=
  match bs with
  | [] => m
  | b :: t => writeMap (SMap.set 0 m a b) (a + 1) t

/-- Store bytes of tray DRAM with valid check bytes. -/
def dramPut (a : Nat) (bs : Bytes) (s : State) : State :=
  { s with mem.data := writeMap s.mem.data a bs, mem.errs := s.mem.errs.keep (fun w => !(w < a + bs.length && a < w + 32)) }

/-- Bytes of one stack (R190). -/
abbrev stackSize : Nat := 96 * 2 ^ 30

/-- Stack and offset of a tray DRAM address (R192). -/
def stackOf (s : State) (a : Nat) : Nat × Nat :=
  if s.mem.interleave = 0 then (a / 4096 % 4, a / 16384 * 4096 + a % 4096)
  else (a / stackSize, a % stackSize)

/-- The address at an offset of a stack. -/
def addrOf (s : State) (q off : Nat) : Nat :=
  if s.mem.interleave = 0 then off / 4096 * 16384 + q * 4096 + off % 4096 else q * stackSize + off

/-- Stack q. -/
def stack (s : State) (q : Nat) : Stack := s.mem.stks.get {} q
def setStack (q : Nat) (f : Stack → Stack) (s : State) : State :=
  { s with mem.stks := SMap.upd {} s.mem.stks q f }

/-- MODE of TC_MODE is C2 (R200). -/
def modeC2 (s : State) : Bool := rdBit s R.TC_MODE 0

/-- Reader codes of UE_LOG (06). Masters that the list does not name read as a core or DMA does. -/
def readerCode (m : Nat) : Nat :=
  if 15 ≤ m && m ≤ 22 then 1 else if m = 35 then 2 else if 31 ≤ m && m ≤ 34 then 3 else if m = 11 then 5 else 4

/-- One correction at symbol byte j: at 256 in one pass the lane is suspect (R203). -/
def countLane (q j : Nat) (s : State) : State :=
  let n := (stack s q).lanes.get 0 j + 1
  let s1 := setStack q (fun k => { k with lanes := SMap.set 0 k.lanes j n }) s
  if n = 256 then
    let r := if j < 32 then R.LANE_SUSPECT_LO q else R.LANE_SUSPECT_HI q
    raise 6 3 q [BitVec.ofNat 8 j] (setBits r (2 ^ (j % 32)) s1)
  else s1

/-- A word was corrected, or its second read was clean: counted, and written back with valid check bytes (R201). -/
def wordCorrected (a : Nat) (w : Bytes) (bytes : List Nat) (s : State) : State :=
  let q := (stackOf s a).1
  dramPut a (w.take 32) (bytes.foldl (fun t j => countLane q j t) (bump (R.MEM_CNT_CE q) s))

/-- The UE_LOG entry of a word (06). -/
def ueEntry (s : State) (a q reader : Nat) (w : Bytes) : Bytes :=
  leBytes 6 a ++ leBytes 1 (q + 16 * reader) ++ leBytes 1 1 ++ tcSyndromes w ++ leBytes 4 (now s)

/-- An uncorrectable word: counted, logged, recorded; the stored word is unchanged, so `w` still stands in it (R201). -/
def wordLost (a reader : Nat) (w : Bytes) (s0 : State) : State :=
  let s := { s0 with mem.errs := SMap.set [] s0.mem.errs a (xorBytes (tcEncode (dramRead s0 a 32)) w) }
  let q := (stackOf s a).1
  let e := ueEntry s a q reader w
  let i := rdN s R.UE_HEAD % 16
  let s1 := (List.range 4).foldl (fun t k => wr (R.UE_LOG i k) (BitVec.ofNat 32 (leAt e (4 * k) 4)) t) s
  raise 6 1 q e (bump (R.MEM_CNT_UE q) (bump R.UE_HEAD s1))

/-- A checked read of the word at an aligned address, with the error patterns of its two reads beyond what the stored word has
(R201); the flag says that the word is delivered with POISON. -/
def readWord (a reader : Nat) (e1 e2 : Bytes) (s : State) : State × Bool :=
  let w := xorBytes (tcEncode (dramRead s a 32)) (s.mem.errs.get [] a)
  match tcDecode (modeC2 s) (xorBytes w e1) with
  | .clean => (s, false)
  | .corrected c bs => (wordCorrected a c bs s, false)
  | .uncorrectable =>
    match tcDecode (modeC2 s) (xorBytes w e2) with
    | .clean => (wordCorrected a (xorBytes w e2) [] s, false)
    | .corrected c bs => (wordCorrected a c bs s, false)
    | .uncorrectable => (wordLost a reader (xorBytes w e2) s, true)

/-- Words with an error that touch a range. -/
def badWords (s : State) (a n : Nat) : List Nat :=
  (s.mem.errs.filter (fun e => e.1 < a + n && a < e.1 + 32)).map (fun e => e.1)

/-- A read of a range: every word of it that has an error is checked; the bytes, and the 32-byte groups of them, counted from `a`,
that hold a word delivered with POISON (R201). -/
def dramLoad (reader a n : Nat) (s : State) : State × List Nat :=
  let r := (badWords s a n).foldl (fun (x : State × List Nat) w =>
    let y := readWord w reader [] [] x.1
    (y.1, if y.2 then x.2 ++ [w] else x.2)) (s, [])
  (r.1, (List.range ((n + 31) / 32)).filter (fun i => r.2.any (fun w => w < a + 32 * i + 32 && a + 32 * i < w + 32)))

/-- A write of a range, word by word: a whole word is replaced, errors and all; a part of a word is a read-modify-write, refused
where the word is uncorrectable, which leaves its error standing (R202). -/
def dramWrite (a : Nat) (bs : Bytes) (s : State) : State :=
  if s.mem.errs.isEmpty then dramPut a bs s
  else
    let n := bs.length
    let s1 := { s with mem.errs := s.mem.errs.keep (fun w => !within w 32 a n) }
    let s2 := (badWords s1 a n).foldl (fun t w => (readWord w 6 [] [] t).1) s1
    let bad := badWords s2 a n
    let lo := if bad.any (fun w => w < a) then min n (32 - a % 32) else 0
    let hi := if bad.any (fun w => a + n < w + 32 && a ≤ w) then n - (a + n) % 32 else n
    dramPut (a + lo) ((bs.take hi).drop lo) s2

/-- A write was refused in part: an error still stands in a word that it touched, and the writer receives an error (R202). -/
def dramHurt (s : State) (a n : Nat) : Bool := !(badWords s a n).isEmpty

/-- Count the error that a writer without a reply of its own receives (R202). -/
def writeError (m : Nat) (s : State) : State := { s with mem.writeErrors := SMap.upd 0 s.mem.writeErrors m (fun n => n + 1) }

/-- The part of a write in the word at `a`, whose read of it meets the error pattern `e`; the flag says that it was refused
(R202). -/
def writePart (a lo : Nat) (bs e : Bytes) (s : State) : State × Bool :=
  if bs.length = 32 then (dramWrite a bs s, false)
  else
    let r := readWord a 6 e e s
    if r.2 then (r.1, true) else (dramWrite (a + lo) bs r.1, false)

/-- A write, word by word; the flag says that a part of it was refused. -/
def writeWords (n a : Nat) (bs e : Bytes) (s : State) : State × Bool :=
  match n with
  | 0 => (s, false)
  | k + 1 =>
    if bs.isEmpty then (s, false)
    else
      let m := 32 - a % 32
      let r := writePart (a / 32 * 32) (a % 32) (bs.take m) e s
      let t := writeWords k (a + min m bs.length) (bs.drop m) e r.1
      (t.1, r.2 || t.2)

/-- A placed access of this node finds its target down: tray DRAM that is not READY, the SRAM of a cluster without supply, the
registers of an island that does not answer (R17, R31, R209). -/
def localDown (s : State) (p : Place) : Bool :=
  match p with
  | .dram _ => !dramOpen s
  | .sram off => (s.press.clusters.get {} (off / 0x300000 / 24)).st == .off
  | .reg off => !regAnswers s off
  | _ => false

/-- A range touches the host-cacheable range, whose accesses are claimed first (R261). -/
def inHcr (s : State) (a n : Nat) : Bool := hcrSize s != 0 && a < hcrBase s + hcrSize s && hcrBase s < a + n

end Sys2Proof.Machine
end

