-- ==== Sys2Proof/Machine/PlanImage.lean ====
section
/-! DEFINITION. The plan image (R115 to R124): its records, the checks at load (R137), placement (R140) and the
binding of streams to lanes (R142).
Log entries coded here: 57 (DEDUCED), 58 (DEDUCED), 59 (DEDUCED), 60 (DESIGN CHOICE), 62 (DEDUCED), 73 (DESIGN
CHOICE), 74 (DEDUCED), 223 (DEDUCED), 233 (DESIGN CHOICE), 236 (DESIGN CHOICE), 239 (DEDUCED), 240 (DESIGN CHOICE). -/

namespace Sys2Proof.Machine

/-! Records -/

/-- A stage record (R118). -/
structure StageRec where
  kind : Nat
  phase : Nat
  placeCl : Nat
  placeIron : Nat
  param : Bytes
  paramOff : Nat
  paramLen : Nat
  sramKib : Nat
  ins : List Nat
  outs : List Nat
  resv : Nat
  deriving DecidableEq, Repr

/-- A stream record (R120). -/
structure StreamRec where
  prod : Nat
  outPort : Nat
  ncons : Nat
  cons : List Nat
  ports : List Nat
  deriving DecidableEq, Repr

/-- A tensor descriptor (R121). -/
structure TDesc where
  fmt : Nat
  rank : Nat
  scale : Nat
  resid : Nat
  addr : Nat
  saddr : Nat
  ext : List Nat
  stride : List Nat
  resv : Nat
  spare : List Nat
  deriving DecidableEq, Repr

/-- Header fields (R116). -/
abbrev planSpan (img : Bytes) : Nat := leAt img 7 1
abbrev planHome (img : Bytes) : Nat := leAt img 8 1
abbrev planPhases (img : Bytes) : Nat := leAt img 10 2
abbrev nStages (img : Bytes) : Nat := leAt img 12 2
abbrev nStreams (img : Bytes) : Nat := leAt img 14 2
abbrev nTensors (img : Bytes) : Nat := leAt img 16 2
abbrev planLength (img : Bytes) : Nat := leAt img 20 4
abbrev offStage (img : Bytes) : Nat := leAt img 24 4
abbrev offStream (img : Bytes) : Nat := leAt img 28 4
abbrev offTensor (img : Bytes) : Nat := leAt img 32 4
abbrev offParam (img : Bytes) : Nat := leAt img 36 4
abbrev offMicro (img : Bytes) : Nat := leAt img 40 4
abbrev microLen (img : Bytes) : Nat := leAt img 44 4

/-- Stage record i. -/
def stageRec (img : Bytes) (i : Nat) : StageRec :=
  let b := slice img (offStage img + 32 * i) 32
  ⟨leAt b 0 1, leAt b 1 1, leAt b 2 1, leAt b 3 1, slice img (offParam img + leAt b 4 4) (leAt b 8 2), leAt b 4 4, leAt b 8 2,
   leAt b 10 2, (List.range 4).map (fun p => leAt b (12 + 2 * p) 2), (List.range 4).map (fun p => leAt b (20 + 2 * p) 2),
   leAt b 28 4⟩

/-- Stream record i. -/
def streamRec (img : Bytes) (i : Nat) : StreamRec :=
  let b := slice img (offStream img + 16 * i) 16
  ⟨leAt b 0 2, leAt b 2 1, leAt b 3 1, (List.range 4).map (fun p => leAt b (4 + 2 * p) 2),
   (List.range 4).map (fun p => leAt b (12 + p) 1)⟩

/-- A tensor descriptor from its 112 bytes. -/
def parseDesc (b : Bytes) : TDesc :=
  let r := leAt b 1 1
  ⟨leAt b 0 1, r, leAt b 2 1, leAt b 3 1, leAt b 8 8, leAt b 16 8, (List.range r).map (fun d => leAt b (24 + 4 * d) 4),
   (List.range r).map (fun d => leAt b (56 + 6 * d) 6), leAt b 4 4 + leAt b 104 8,
   (List.range (8 - r)).map (fun d => leAt b (24 + 4 * (r + d)) 4)⟩

/-- Tensor descriptor i. -/
def tensorDesc (img : Bytes) (i : Nat) : TDesc := parseDesc (slice img (offTensor img + 112 * i) 112)

/-- All records. -/
def stageRecs (img : Bytes) : List StageRec := (List.range (nStages img)).map (stageRec img)
def streamRecs (img : Bytes) : List StreamRec := (List.range (nStreams img)).map (streamRec img)
def tensorDescs (img : Bytes) : List TDesc := (List.range (nTensors img)).map (tensorDesc img)

/-- FIXED of a descriptor (R121). -/
def TDesc.fixed (d : TDesc) : Bool := d.resid.testBit 7

/-- Shape of a descriptor. -/
def TDesc.shape (d : TDesc) : Shape := ⟨d.fmt, d.scale == 12, d.ext⟩

/-- An operand reference: unused, a stream, or a tensor (R119). -/
inductive Ref where
  | unused
  | stream (i : Nat)
  | tensor (i : Nat)
  deriving DecidableEq, Repr

/-- Decode a reference. -/
def refOf (w : Nat) : Ref := if w = 0xFFFF then .unused else if w < 32768 then .stream w else .tensor (w - 32768)

def StageRec.inRef (k : StageRec) (p : Nat) : Ref := refOf (k.ins.getD p 0xFFFF)
def StageRec.outRef (k : StageRec) (p : Nat) : Ref := refOf (k.outs.getD p 0xFFFF)

/-- A parameter field. -/
def StageRec.par (k : StageRec) (o n : Nat) : Nat := leAt k.param o n

/-- Parameter length of a kind (R123). -/
def paramLenOf (kind : Nat) : Option Nat :=
  match kind with
  | 1 => some 16
  | 2 => some 8
  | 3 => some 32
  | 4 => some 8
  | 5 => some 16
  | 6 => some 4
  | 7 => some 8
  | 8 => some 32
  | 9 => some 32
  | 10 => some 48
  | 11 => some 8
  | 12 => some 16
  | 13 => some 24
  | 14 => some 8
  | _ => none

/-- The bytes of a parameter block that its layout does not list (R123), as (first byte, bytes). -/
def paramSpare (kind : Nat) : List (Nat × Nat) :=
  match kind with
  | 1 => [(8, 8)]
  | 2 => [(1, 3)]
  | 3 => [(24, 8)]
  | 4 => [(5, 3)]
  | 5 => [(6, 2), (12, 4)]
  | 6 => [(3, 1)]
  | 7 => [(6, 2)]
  | 8 => [(26, 2)]
  | 9 => [(9, 1), (28, 4)]
  | 10 => [(9, 1), (28, 4), (35, 1), (38, 10)]
  | 11 => [(1, 1), (4, 4)]
  | 12 => [(1, 1), (6, 10)]
  | 13 => [(6, 2), (20, 4)]
  | 14 => [(6, 2)]
  | _ => []

/-- The fields that the layout does not list are zero, and so are the bits above OPTS bit 4 of a MATMUL (R123, R4). -/
def paramSpareOk (k : StageRec) : Bool :=
  (paramSpare k.kind).all (fun r => k.par r.1 r.2 == 0) && (k.kind != 3 || k.par 3 1 < 32)

/-! Addresses of tensors -/

/-- Bytes that a packed row of `n` elements takes. -/
def packedBytes (fmt n : Nat) : Nat :=
  match fmtBits fmt with
  | 4 => (n + 1) / 2
  | 6 => (n + 3) / 4 * 3
  | w => w / 8 * n

/-- Whether the last dimension is packed (formats below 8 bits, R122). -/
def TDesc.packed (d : TDesc) : Bool := decide (fmtBits d.fmt < 8)

/-- Byte offset of element 0 of row `r`, the last dimension excluded. -/
def TDesc.rowOff (d : TDesc) (r : Nat) : Nat :=
  let ext := d.ext.dropLast
  (List.zip (unflatten ext r) d.stride).foldl (fun a ns => a + ns.1 * ns.2) 0

/-- Number of rows. -/
def TDesc.rows (d : TDesc) : Nat := extCount d.ext.dropLast

/-- Offsets of the bytes of row r, in order. -/
def TDesc.rowBytes (d : TDesc) (r : Nat) : List Nat :=
  let n := lastExt d.ext
  let base := d.rowOff r
  if d.packed then (List.range (packedBytes d.fmt n)).map (fun i => base + i)
  else
    let w := fmtBits d.fmt / 8
    let st := d.stride.getLast?.getD 0
    (List.range n).flatMap (fun e => (List.range w).map (fun b => base + e * (if d.rank = 0 then 0 else st) + b))

/-- Number of scale bytes. -/
def TDesc.scaleCount (d : TDesc) : Nat := if d.scale = 12 then d.rows * rowBlocks d.ext else 0

/-- One past the largest byte offset of the elements. -/
def TDesc.span (d : TDesc) : Nat :=
  let reach := (List.zip d.ext d.stride).foldl (fun a ns => a + (ns.1 - 1) * ns.2) 0
  if extCount d.ext = 0 then 0
  else if d.packed then reach + packedBytes d.fmt (lastExt d.ext)
  else reach + fmtBits d.fmt / 8

/-- Read a tensor's elements and scales through byte readers. -/
def readTensor (d : TDesc) (rd : Nat → Byte) (rdS : Nat → Byte) : TData :=
  let n := lastExt d.ext
  ⟨d.shape,
   (List.range d.rows).flatMap (fun r => unpackElems d.fmt n ((d.rowBytes r).map rd)),
   (List.range d.scaleCount).map (fun i => (rdS i).toNat)⟩

/-- The element bytes of a tensor written into its descriptor: offsets with bytes. -/
def tensorWrites (d : TDesc) (t : TData) : List (Nat × Byte) :=
  let n := lastExt d.ext
  (List.range d.rows).flatMap (fun r =>
    List.zip (d.rowBytes r) (packElems d.fmt (slice' t.elems (n * r) n)))
where
  /-- `n` elements from position `o`. -/
  slice' (xs : List Nat) (o n : Nat) : List Nat := (xs.drop o).take n

/-! Shapes (R516) -/

/-- A floating-point element format other than E8M0. -/
def isFloat (f : Nat) : Bool := 1 ≤ f && f ≤ 8

/-- Formats of E-sum operands (R48). -/
def isEsum (f : Nat) : Bool := (1 ≤ f && f ≤ 6) || f == 9 || f == 10

/-- Whether two operand formats pair (R49, R54). -/
def pairOk (a b : Nat) : Bool :=
  isTree a b || (isEsum a && isEsum b && fmtInt a == fmtInt b)

/-- An output format that rounding may produce. -/
def outFmt (f : Nat) : Bool := 1 ≤ f && f ≤ 11

/-- Total elements agree, format and scaling agree. -/
def sameContent (a b : Shape) : Bool := a.fmt == b.fmt && a.scaled == b.scaled && extCount a.ext == extCount b.ext

/-- Slots of a raw tensor kept in memory: INT8, its last extent the bytes of one slot, a multiple of 32 that holds at least
the words of R76 or R127 that need no extension word. -/
def rawFits (raw mem : Shape) : Bool :=
  mem.fmt == 10 && !mem.scaled && lastExt mem.ext % 32 == 0 && lastExt mem.ext != 0
    && (let n := extCount mem.ext / lastExt mem.ext
        if raw.fmt = 0x80 then n == extCount raw.ext
        else n == raw.ext.headD 0 && 32 * (2 + raw.ext.getD 1 0) ≤ lastExt mem.ext)

/-- What a stage delivers on each output port from the shapes on its input ports, or none where a parameter or an
input is wrong (R123, R124, R126, R128, R129, R131, R515, R516). `want`: the extents its OUT0 is asked for. DESIGN CHOICE: no
parameter names the format of a MATMUL addend; it must be an integer format for integer operands and a floating-point format
otherwise, without block scales. -/
def stageShapes (img : Bytes) (k : StageRec) (i0 i1 i2 i3 : Option Shape) (want : Option (List Nat)) : Option (List Shape) :=
  let p := k.par
  match k.kind with
  | 1 =>
    match i0 with
    | some a =>
      if 1 < p 1 1 then none
      else if p 0 1 = 0 then some [a]
      else if p 0 1 = 1 && p 2 2 < nTensors img && (tensorDesc img (p 2 2)).fmt = 11 && a.ext.length ≠ 0 then
        some [{ a with ext := a.ext.set 0 (extCount (tensorDesc img (p 2 2)).ext) }]
      else none
    | none => none
  | 2 => if p 0 1 = 1 then (if i0.isNone then some [] else none) else if p 0 1 = 0 && i0.isSome then some [] else none
  | 3 =>
    match i0, i1 with
    | some a, some b =>
      let opts := p 3 1
      let ea := if opts.testBit 0 then [p 12 4, p 4 4] else [p 4 4, p 12 4]
      let eb := if opts.testBit 1 then [p 8 4, p 12 4] else [p 12 4, p 8 4]
      let ints := fmtInt (p 0 1)
      let addOk := match i2 with
        | some c => opts.testBit 2 && c.ext == [p 4 4, p 8 4]
            && (if ints then fmtInt c.fmt else isFloat c.fmt) && !c.scaled
        | none => !opts.testBit 2
      let fo := p 2 1
      let foOk := outFmt fo && (opts.testBit 4 || !ints || fo == (if opts.testBit 3 then 11 else 8))
      let pow2 := 2 ^ bitLen (p 12 4 - 1)
      let splitOk := if !opts.testBit 4 then p 16 4 == 0
        else if isTree (p 0 1) (p 1 1) then p 16 4 % max pow2 1 == 0 else true
      if a.fmt = p 0 1 && b.fmt = p 1 1 && pairOk a.fmt b.fmt && a.ext = ea && b.ext = eb && addOk && foOk && splitOk
          && opts < 32 && (!opts.testBit 3 || ints) then
        some [if opts.testBit 4 then ⟨if isTree a.fmt b.fmt then 8 else 0x80, false, [p 4 4, p 8 4]⟩
              else ⟨fo, false, [p 4 4, p 8 4]⟩]
      else none
    | _, _ => none
  | 4 =>
    match i0 with
    | some a =>
      let rk := p 0 1
      let ax := p 1 1
      let ok := match rk with
        | 0 => isEsum a.fmt && outFmt (p 3 1)
        | 1 => (a.fmt == 7 || a.fmt == 8) && outFmt (p 3 1)
        | 2 => outFmt (p 3 1)
        | 3 => outFmt (p 3 1)
        | 4 => isFloat (p 3 1) && isFloat a.fmt
        | 5 => isFloat (p 3 1) && isFloat a.fmt
        | _ => false
      if a.fmt = p 2 1 && ax < a.ext.length && ok && p 4 1 ≤ 1 then
        let oext := a.ext.take ax ++ a.ext.drop (ax + 1)
        some [if p 4 1 = 1 && rk = 0 then ⟨0x80, false, oext⟩
              else if p 4 1 = 1 && rk = 1 then ⟨8, false, oext⟩ else ⟨p 3 1, false, oext⟩]
      else none
    | none => none
  | 5 =>
    match i0 with
    | some a =>
      let op := p 0 2
      let f0 := p 2 1
      let fitsIn (i : Option Shape) (f : Nat) : Bool := match i with
        | some x => x.fmt == f && x.ext == a.ext
        | none => true
      let fo := p 5 1
      let intOp := 0x20 ≤ op && op ≤ 0x25
      let fl (f : Nat) : Bool := isFloat f || f == 12
      let second := match i1 with
        | some x => x.fmt
        | none => f0
      let classOk :=
        if 1 ≤ op && op ≤ 6 then fl f0 && fl second && (op != 6 || match i2 with
            | some c => fl c.fmt
            | none => false)
        else if 7 ≤ op && op ≤ 0xC then fl f0 == fl second && (fl f0 || fmtInt f0)
        else if op = 0xD then i2.isSome
        else if op = 0xE then true
        else if 0x10 ≤ op && op ≤ 0x18 then fl f0 && (6 ≤ fo && fo ≤ 8)
        else intOp && fmtInt f0 && fmtInt second
      if a.fmt = f0 && fitsIn i1 (p 3 1) && fitsIn i2 (p 4 1) && outFmt fo && classOk && i3.isNone then
        some [⟨fo, false, a.ext⟩] else none
    | none => none
  | 6 =>
    match i0 with
    | some a =>
      if a.fmt = p 0 1 && outFmt (p 1 1) && (p 2 1 = 0 || (p 2 1 = 12 && p 1 1 ≤ 5)) then
        some [⟨p 1 1, p 2 1 == 12, a.ext⟩] else none
    | none => none
  | 7 =>
    match i0 with
    | some a =>
      let mode := p 0 1
      let ax := p 1 1
      let last := a.ext.length - 1
      let blocks (n : Nat) : Bool := !a.scaled || ax != last || n % 32 == 0
      if a.ext.length ≤ ax || (mode = 0 && a.ext.length ≤ p 2 1) then none
      else if mode = 0 then
        (if a.scaled && ax ≠ p 2 1 && (ax = last || p 2 1 = last) then none
         else some [{ a with ext := swapAt ax (p 2 1) a.ext }])
      else if mode = 1 || mode = 2 then
        (if p 4 2 < nTensors img && (tensorDesc img (p 4 2)).fmt = 11 && !(a.scaled && ax = last) then
           let n := extCount (tensorDesc img (p 4 2)).ext
           (if mode = 1 then some [{ a with ext := a.ext.set ax n }]
            else if n = a.ext.getD ax 0 then
              some [{ a with ext := want.getD a.ext }]
            else none)
         else none)
      else if mode = 3 then
        let xs := ([i0, i1, i2, i3].filterMap id)
        (if xs.length = p 3 1 && 2 ≤ p 3 1
            && xs.all (fun x => x.fmt == a.fmt && x.scaled == a.scaled && x.ext.length == a.ext.length
                && x.ext.set ax 0 == a.ext.set ax 0)
            && (xs.dropLast.all (fun x => blocks (x.ext.getD ax 0))) then
           some [{ a with ext := a.ext.set ax (xs.foldl (fun n x => n + x.ext.getD ax 0) 0) }]
         else none)
      else if mode = 4 then
        let n := a.ext.getD ax 0 / max (p 3 1) 1
        (if 2 ≤ p 3 1 && p 3 1 ≤ 4 && a.ext.getD ax 0 % p 3 1 = 0 && blocks n then
           some (List.replicate (p 3 1) { a with ext := a.ext.set ax n })
         else none)
      else none
    | none => none
  | 8 =>
    match want with
    | some e => if p 24 1 ≤ 3 && outFmt (p 25 1) && extCount e ≤ 2 ^ 40 then some [⟨p 25 1, false, e⟩] else none
    | none => none
  | 9 =>
    match i0, i1 with
    | some q, some key =>
      if attnOk k q key then some [⟨8, false, [p 14 2]⟩] else none
    | _, _ => none
  | 10 =>
    match i0, i1, i2, i3 with
    | some q, some key, some v, some m =>
      if attnOk k q key && v.fmt = p 32 1 && isEsum v.fmt && !fmtInt v.fmt && keysOk k v
          && m.fmt = 8 && extCount m.ext = p 14 2 && p 36 2 = 0 && p 34 1 ≤ 1 && outFmt (p 33 1)
          && (p 34 1 = 1 || (key.ext.headD 0 = p 24 4 && v.ext.headD 0 = p 24 4)) then
        some [if p 34 1 = 1 then ⟨0x81, false, [p 14 2, p 2 2]⟩ else ⟨p 33 1, false, [p 14 2, p 2 2]⟩]
      else none
    | _, _, _, _ => none
  | 11 =>
    if i0.isSome && 1 ≤ p 0 1 && p 0 1 ≤ 96 then some [⟨10, false, [64]⟩] else none
  | 12 =>
    match i0, i1 with
    | some a, some b =>
      if p 0 1 = 2 then
        (if a = ⟨10, false, [64]⟩ && b = ⟨10, false, [64]⟩ then some [⟨10, false, [32]⟩] else none)
      else if p 0 1 ≤ 1 && p 4 2 < nTensors img then
        let d := (tensorDesc img (p 4 2)).shape
        (if a = d && b = d then some [⟨10, false, [32]⟩] else none)
      else none
    | _, _ => none
  | 13 =>
    let n := p 4 2
    let prog := (List.range n).map (fun i => leAt img (offMicro img + p 0 4 + 8 * i) 8)
    let uses (opc port : Nat) : Nat := (prog.filter (fun w => w / 2 ^ 56 == opc && w % 4 == port)).length
    let inOk (i : Option Shape) (port : Nat) : Bool := match i with
      | some x => x.fmt == p (12 + port) 1 && extCount x.ext == 256 * p 8 4 * uses 1 port
      | none => uses 1 port == 0
    if n ≤ 1024 && prog.all (fun w => 1 ≤ w / 2 ^ 56 && w / 2 ^ 56 ≤ 12 && (w / 2 ^ 56 != 4 || isEltOp (w % 65536)))
        && inOk i0 0 && inOk i1 1 && inOk i2 2 && inOk i3 3
        && (List.range 4).all (fun q => outFmt (p (16 + q) 1) || (uses 2 q == 0 && p (16 + q) 1 == 0)) then
      some ((List.range 4).map (fun q => ⟨p (16 + q) 1, false, [256 * p 8 4 * uses 2 q]⟩))
    else none
  | 14 =>
    let xs := [i0, i1, i2, i3].filterMap id
    let kind := p 0 1
    let cnt := p 2 2
    match xs with
    | [] => none
    | a :: _ =>
      if cnt < 2 || 4096 < cnt || 3 < kind || !outFmt (p 1 1) then none
      else if xs.length = cnt then
        (if xs.all (fun x => x == a) && (match kind with
            | 0 => a.fmt == 0x80
            | 1 => a.fmt == 8
            | 2 => a.fmt < 0x80
            | _ => a.fmt == 0x81 && a.ext.getD 1 0 == p 4 2) then
           some [⟨p 1 1, false, a.ext⟩] else none)
      else if xs.length = 1 && a.ext.headD 0 = cnt && (kind = 1 || kind = 2) then
        some [⟨p 1 1, false, a.ext.drop 1⟩]
      else if xs.length = 1 && a.ext.headD 0 = cnt && a.fmt = 10 && lastExt a.ext % 32 = 0 then
        some [⟨p 1 1, false, if kind = 0 then (a.ext.drop 1).dropLast else (a.ext.drop 1).dropLast ++ [p 4 2]⟩]
      else none
  | _ => none
where
  /-- An ELTWISE operation code (R129). -/
  isEltOp (op : Nat) : Bool := (1 ≤ op && op ≤ 0xE) || (0x10 ≤ op && op ≤ 0x18) || (0x20 ≤ op && op ≤ 0x25)
  /-- Rows of a key or value tensor: KEY_COUNT of them, or every key's own row. -/
  keysOk (k : StageRec) (t : Shape) : Bool :=
    lastExt t.ext == k.par 2 2 && t.ext.length == 2 && (t.ext.headD 0 == k.par 24 4 || k.par 20 4 + k.par 24 4 ≤ t.ext.headD 0)
  /-- The mask tensor: INT8, an element for each row and each key (R126). -/
  maskOk (k : StageRec) : Bool :=
    k.par 8 1 != 2 || (k.par 12 2 < nTensors img
      && (let m := tensorDesc img (k.par 12 2)
          m.fmt == 10 && m.scale == 0 && m.rank == 2 && m.ext.headD 0 == k.par 14 2
            && k.par 20 4 + k.par 24 4 ≤ m.ext.getD 1 0))
  /-- Attention parameters and the shapes of Q and K (R126, R147); the formats pair as those of one E-sum (R49). -/
  attnOk (k : StageRec) (q key : Shape) : Bool :=
    let p := k.par
    q.fmt == p 0 1 && key.fmt == p 1 1 && isEsum q.fmt && isEsum key.fmt && fmtInt q.fmt == fmtInt key.fmt
      && 1 ≤ p 2 2 && p 2 2 ≤ 256 && 1 ≤ p 14 2 && p 14 2 ≤ 256 && 1 ≤ p 10 2 && p 10 2 ≤ 256 && p 8 1 ≤ 2
      && q.ext == [p 14 2, p 2 2] && keysOk k key && maskOk k && p 20 4 + p 24 4 ≤ 2 ^ 24

/-! The graph of a phase -/

/-- Stage indices of a phase. -/
def phaseStages (img : Bytes) (ph : Nat) : List Nat :=
  (List.range (nStages img)).filter (fun i => (stageRec img i).phase == ph)

/-- The stage that feeds a port by a stream. -/
def producerOf (img : Bytes) (r : Ref) : Option Nat :=
  match r with
  | .stream i => some (streamRec img i).prod
  | _ => none

/-- Stages whose stream inputs all come from stages already ordered, appended round by round: a topological order;
a cycle leaves stages out (R94). -/
def topoGo (img : Bytes) (fuel : Nat) (rest done : List Nat) : List Nat :=
  match fuel with
  | 0 => done
  | k + 1 =>
    let ready := rest.filter (fun i => (List.range 4).all (fun p =>
      match producerOf img ((stageRec img i).inRef p) with
      | some q => done.contains q
      | none => true))
    if ready.isEmpty then done else topoGo img k (rest.filter (fun i => !ready.contains i)) (done ++ ready)

/-- The stages of a phase in an order in which producers come first. -/
def topoOrder (img : Bytes) (ph : Nat) : List Nat :=
  let ss := phaseStages img ph
  topoGo img (ss.length + 1) ss []

/-- Shape of a reference, given the shapes delivered so far by stage and port. -/
def refShape (img : Bytes) (have_ : List (Nat × List Shape)) (r : Ref) : Option Shape :=
  match r with
  | .unused => none
  | .tensor i => some (tensorDesc img i).shape
  | .stream i =>
    let s := streamRec img i
    match have_.find? (fun x => x.1 == s.prod) with
    | some (_, outs) => outs[s.outPort]?
    | none => none

/-- Extents that a port's reference asks for (R516): those of its tensor, or those that the first consumer of its stream
expects, from the consumer's parameters, its other direct inputs or what its own output is asked for. -/
def wantedExt (fuel : Nat) (img : Bytes) (r : Ref) : Option (List Nat) :=
  match fuel, r with
  | _, .unused => none
  | _, .tensor i => some (tensorDesc img i).ext
  | 0, .stream _ => none
  | f + 1, .stream i =>
    let sr := streamRec img i
    let c := stageRec img (sr.cons.headD 0)
    let port := sr.ports.headD 0
    let p := c.par
    let out := wantedExt f img (c.outRef 0)
    let direct := (((List.range 4).filterMap (fun q => match c.inRef q with
      | .tensor t => some (tensorDesc img t).ext
      | _ => none)).head?)
    let desc (o : Nat) : Option (List Nat) := if p o 2 < nTensors img then some (tensorDesc img (p o 2)).ext else none
    match c.kind with
    | 2 => out
    | 3 =>
      if port = 0 then some (if (p 3 1).testBit 0 then [p 12 4, p 4 4] else [p 4 4, p 12 4])
      else if port = 1 then some (if (p 3 1).testBit 1 then [p 8 4, p 12 4] else [p 12 4, p 8 4])
      else some [p 4 4, p 8 4]
    | 5 => direct.or out
    | 6 => out
    | 7 => if p 0 1 = 0 then out.map (swapAt (p 1 1) (p 2 1)) else direct.or out
    | 9 | 10 => some (if port = 0 then [p 14 2, p 2 2] else if port = 3 then [p 14 2] else [p 24 4, p 2 2])
    | 11 => desc 2
    | 12 => if p 0 1 = 2 then some [64] else desc 4
    | 13 =>
      let uses := ((List.range (p 4 2)).filter (fun n =>
        let w := leAt img (offMicro img + p 0 4 + 8 * n) 8
        w / 2 ^ 56 == 1 && w % 4 == port)).length
      some [256 * p 8 4 * uses]
    | 14 => direct.or out
    | _ => direct

/-- Extents asked of a stage's OUT0. -/
def wantedOf (img : Bytes) (k : StageRec) : Option (List Nat) := wantedExt (nStages img) img (k.outRef 0)

/-- Whether what a stage delivers equals what the reference at its port holds (R516). -/
def deliversOk (img : Bytes) (sh : Shape) (r : Ref) : Bool :=
  match r with
  | .tensor i =>
    let d := (tensorDesc img i).shape
    if 0x80 ≤ sh.fmt then rawFits sh d else d == sh
  | _ => true

/-- Ports that a kind has (R123): how many inputs and outputs. -/
def portsOfKind (kind : Nat) : Nat × Nat :=
  match kind with
  | 1 | 2 | 4 | 6 | 11 => (1, 1)
  | 3 | 5 => (3, 1)
  | 7 | 13 => (4, 4)
  | 8 => (0, 1)
  | 9 | 12 => (2, 1)
  | _ => (4, 1)

/-- A reference is a stream, or a tensor. -/
def Ref.isStream (r : Ref) : Bool :=
  match r with
  | .stream _ => true
  | _ => false
def Ref.isTensor (r : Ref) : Bool :=
  match r with
  | .tensor _ => true
  | _ => false

/-- An input of a DIGEST COMPARE: OUT0 of a DIGEST stage, or a direct tensor (R128). -/
def digestInput (img : Bytes) (r : Ref) : Bool :=
  match r with
  | .stream i => (stageRec img (streamRec img i).prod).kind == 11 && (streamRec img i).outPort == 0
  | .tensor _ => true
  | .unused => false

/-- Port use (R123): no port beyond the kind's; a LOAD has a source tensor and a stream or an SRAM range, a STORE a stream
or an SRAM range and a destination tensor; a DIGEST COMPARE takes digests. -/
def portsOk (img : Bytes) (k : StageRec) : Bool :=
  let n := portsOfKind k.kind
  (List.range 4).all (fun p => (p < n.1 || k.inRef p == .unused) && (p < n.2 || k.outRef p == .unused))
    && (match k.kind with
        | 1 => (k.inRef 0).isTensor && (if k.par 1 1 = 1 then k.outRef 0 == .unused else (k.outRef 0).isStream)
        | 2 => (k.outRef 0).isTensor && (if k.par 0 1 = 1 then k.inRef 0 == .unused else (k.inRef 0).isStream)
        | 12 => k.par 0 1 != 2 || (digestInput img (k.inRef 0) && digestInput img (k.inRef 1))
        | _ => true)

/-- Whether a stage delivers C-tree range values (R78): the index of its first element, where its parameters give one, and
its number of elements. -/
def rangeOf (img : Bytes) (have_ : List (Nat × List Shape)) (i : Nat) : Option (Option Nat × Nat) :=
  let k := stageRec img i
  if k.kind = 3 && (k.par 3 1).testBit 4 && isTree (k.par 0 1) (k.par 1 1) then some (some (k.par 16 4), k.par 12 4)
  else if k.kind = 4 && k.par 4 1 = 1 && k.par 0 1 = 1 then
    (refShape img have_ (k.inRef 0)).map (fun a => (none, a.ext.getD (k.par 1 1) 0))
  else none

/-- The stage that delivers the piece behind a reference, or slice `n` of a direct tensor of pieces. -/
def pieceStage (img : Bytes) (r : Ref) (slice : Option Nat) : Option Nat :=
  match r with
  | .stream i => some (streamRec img i).prod
  | .tensor t =>
    let d := tensorDesc img t
    (List.range (nStages img)).find? (fun i => match (stageRec img i).outRef 0 with
      | .tensor u =>
        (match slice with
         | none => u == t
         | some n => d.fixed && (tensorDesc img u).fixed && (tensorDesc img u).addr == d.addr + n * d.stride.headD 0)
      | _ => false)
  | .unused => none

/-- Ranges in order split one reduction (R78): each as long as the first, a power of two, but a shorter last one, and each
begins where the one before it ends. A piece whose stage is not known is passed over. -/
def rangesSplit (rs : List (Option (Option Nat × Nat))) : Bool :=
  match rs.filterMap id with
  | [] => true
  | f :: _ =>
    let first := match rs.headD none with
      | some x => x.2
      | none => f.2
    let isPow (n : Nat) : Bool := n != 0 && 2 ^ n.log2 == n
    rs.zipIdx.all (fun ri => match ri.1 with
      | none => true
      | some (base, len) =>
        (match base with
         | some b => b == ri.2 * first
         | none => true)
          && (if ri.2 + 1 < rs.length then len == first && isPow len else len ≤ first))

/-- The pieces of a MERGE of C-tree ranges split the reduction as R78 allows. -/
def splitOk (img : Bytes) (have_ : List (Nat × List Shape)) (k : StageRec) : Bool :=
  if k.kind = 14 && k.par 0 1 = 1 then
    let used := ((List.range 4).map k.inRef).filter (fun r => r != .unused)
    let pieces := if used.length = k.par 2 2 then used.map (fun r => pieceStage img r none)
      else (List.range (k.par 2 2)).map (fun n => pieceStage img (k.inRef 0) (some n))
    rangesSplit (pieces.map (fun o => o.bind (rangeOf img have_)))
  else true

/-- Shapes delivered by the stages of a phase in order, or none at the first that is wrong. -/
def shapesGo (img : Bytes) (order : List Nat) (have_ : List (Nat × List Shape)) : Option (List (Nat × List Shape)) :=
  match order with
  | [] => some have_
  | i :: t =>
    let k := stageRec img i
    let sh (p : Nat) := refShape img have_ (k.inRef p)
    let i0 := sh 0
    -- a digest of a streamed input names its shape by DESC
    let tensorDescOk := if k.kind = 11 then (match k.inRef 0 with
        | .stream _ => k.par 2 2 < nTensors img && i0 == some (tensorDesc img (k.par 2 2)).shape
        | _ => true) else true
    match stageShapes img k i0 (sh 1) (sh 2) (sh 3) (wantedOf img k) with
    | none => none
    | some outs =>
      let storeOk := if k.kind = 2 && k.par 0 1 = 0 then (match i0, k.outRef 0 with
          | some a, .tensor t => sameContent a (tensorDesc img t).shape
          | _, _ => false)
        else if k.kind = 2 then (match k.outRef 0 with
          | .tensor _ => true
          | _ => false)
        else (outs.zipIdx).all (fun o => deliversOk img o.1 (k.outRef o.2))
      if storeOk && tensorDescOk && portsOk img k && splitOk img have_ k then shapesGo img t (have_ ++ [(i, outs)]) else none

/-! Structure checks (R137) -/

/-- Every record, block and program lies inside the image, and every PARAM_LEN is the kind's. -/
def planLengths (img : Bytes) : Bool :=
  let n := planLength img
  64 ≤ n && n ≤ 16777216 && img.length == n
    && offStage img + 32 * nStages img ≤ n && offStream img + 16 * nStreams img ≤ n
    && offTensor img + 112 * nTensors img ≤ n && offMicro img + microLen img ≤ n && offParam img ≤ n
    && (stageRecs img).all (fun k => offParam img + k.paramOff + k.paramLen ≤ n
        && (match paramLenOf k.kind with
            | some l => k.paramLen == l
            | none => true)
        && (k.kind != 13 || k.par 0 4 + 8 * k.par 4 2 ≤ microLen img))

/-- A descriptor's own fields are valid (R121, R122). -/
def tensorDescOk (self : Bool) (d : TDesc) : Bool :=
  1 ≤ d.fmt && d.fmt ≤ 12 && d.rank ≤ 8 && (d.scale == 0 || (d.scale == 12 && d.fmt ≤ 5)) && d.resid % 128 ≤ 4
    && d.resv == 0 && d.spare.all (· == 0) && ((self && 2 ^ 63 ≤ d.addr) || (d.addr < 2 ^ 48 && d.saddr < 2 ^ 48)) && (d.scale == 12 || d.saddr == 0)
    && (!d.packed || d.rank == 0 || d.stride.getLast?.getD 0 == 0)
    && (fmtBits d.fmt != 6 || d.stride.dropLast.all (fun x => x % 3 == 0))

/-- Magic, CRC, kinds, formats and reserved fields. -/
def planFields (self : Bool) (img : Bytes) : Bool :=
  leAt img 0 4 == 0x4E4C5054 && leAt img 6 1 ≤ 2 && 1 ≤ planSpan img && planSpan img ≤ 8
    && (planHome img ≤ 7 || planHome img == 0xFF) && leAt img 9 1 ≤ 3 && 1 ≤ planPhases img && planPhases img ≤ 256
    && 1 ≤ nStages img && nStreams img ≤ 32767 && nTensors img ≤ 32767 && leAt img 18 2 == 0 && leAt img 60 4 == 0
    && microLen img % 8 == 0
    && [offStage img, offStream img, offTensor img, offParam img, offMicro img].all (fun o => o % 8 == 0)
    && (crc32c (img.take 56 ++ zeros 4 ++ img.drop 60)).toNat == leAt img 56 4
    && (stageRecs img).all (fun k => (paramLenOf k.kind).isSome && k.phase < planPhases img && k.resv == 0
        && k.sramKib ≤ 3072 && k.paramOff % 8 == 0 && (k.kind != 13 || k.par 0 4 % 8 == 0) && paramSpareOk k)
    && (tensorDescs img).all (tensorDescOk self)

/-- The stages and the stream records name each other, within one phase (R120). -/
def planStreams (img : Bytes) : Bool :=
  let ss := stageRecs img
  let refOk (r : Ref) : Bool := match r with
    | .unused => true
    | .tensor i => i < nTensors img
    | .stream i => i < nStreams img
  ss.all (fun k => (List.range 4).all (fun p => refOk (k.inRef p) && refOk (k.outRef p)))
    && (streamRecs img).zipIdx.all (fun si =>
      let s := si.1
      let prod := stageRec img s.prod
      s.prod < nStages img && s.outPort < 4 && 1 ≤ s.ncons && s.ncons ≤ 4 && prod.outRef s.outPort == .stream si.2
        && (List.range 4).all (fun c =>
          if c < s.ncons then
            s.cons.getD c 0 < nStages img && s.ports.getD c 0 < 4
              && (stageRec img (s.cons.getD c 0)).inRef (s.ports.getD c 0) == .stream si.2
              && (stageRec img (s.cons.getD c 0)).phase == prod.phase
          else s.cons.getD c 0 == 0xFFFF && s.ports.getD c 0 == 0xFF))
    && ss.zipIdx.all (fun ki => (List.range 4).all (fun p =>
      (match ki.1.outRef p with
       | .stream i => (streamRec img i).prod == ki.2 && (streamRec img i).outPort == p
       | _ => true)
      && (match ki.1.inRef p with
          | .stream i =>
            let s := streamRec img i
            (List.range s.ncons).any (fun c => s.cons.getD c 0 == ki.2 && s.ports.getD c 0 == p)
          | _ => true)))

/-- Tensors that a stage reads and writes, index and mask tensors included. -/
def stageReads (img : Bytes) (k : StageRec) : List Nat :=
  (if k.kind = 2 then [] else (List.range 4).filterMap (fun p => match k.inRef p with
      | .tensor i => some i
      | _ => none))
    ++ (if k.kind = 1 && k.par 0 1 = 1 then [k.par 2 2] else [])
    ++ (if k.kind = 7 && (k.par 0 1 = 1 || k.par 0 1 = 2) then [k.par 4 2] else [])
    ++ (if (k.kind = 9 || k.kind = 10) && k.par 8 1 = 2 && k.par 12 2 < nTensors img then [k.par 12 2] else [])
def stageWrites (k : StageRec) : List Nat :=
  (List.range 4).filterMap (fun p => match k.outRef p with
    | .tensor i => some i
    | _ => none)

/-- The address ranges of a fixed tensor: its elements and its scales. -/
def TDesc.ranges (d : TDesc) : List (Nat × Nat) :=
  [(d.addr, d.span), (d.saddr, d.scaleCount)].filter (fun r => r.2 != 0)

/-- Whether the ranges of two tensors overlap: the same scratch tensor, or fixed ranges that meet, elements or scales. -/
def rangesMeet (img : Bytes) (i j : Nat) : Bool :=
  let a := tensorDesc img i
  let b := tensorDesc img j
  if a.fixed && b.fixed then
    a.ranges.any (fun x => b.ranges.any (fun y => x.1 < y.1 + y.2 && y.1 < x.1 + x.2))
  else i == j

/-- No scratch tensor is read in a phase at or before the first phase that writes it. -/
def scratchOrder (img : Bytes) : Bool :=
  let ss := stageRecs img
  ss.all (fun k => (stageReads img k).all (fun i =>
    i < nTensors img && ((tensorDesc img i).fixed || ss.any (fun w => (stageWrites w).contains i && w.phase < k.phase))))

/-- No two stages of one phase write overlapping ranges, and none writes what another of the phase reads. -/
def phaseRanges (img : Bytes) : Bool :=
  let ss := (stageRecs img).zipIdx
  ss.all (fun a => ss.all (fun b =>
    a.2 == b.2 || a.1.phase != b.1.phase || (stageWrites a.1).all (fun i =>
      !((stageWrites b.1).any (rangesMeet img i)) && !((stageReads img b.1).any (rangesMeet img i)))))

/-- The plan is restartable: no STORE writes into a range that a LOAD reads (R103); a replay always is, which
`Plan.restarts` adds. -/
def planRestartable (img : Bytes) : Bool :=
  let ss := stageRecs img
  !ss.any (fun w => w.kind == 2 && (stageWrites w).any (fun i =>
    ss.any (fun r => r.kind == 1 && (stageReads img r).any (rangesMeet img i))))

/-! Placement (R140, R142) -/

/-- Global position of an iron within the span: 24 × cluster position + iron. -/
abbrev posOf (cl iron : Nat) : Nat := 24 * cl + iron

/-- Links between two positions: mesh links, and one per bridge between consecutive clusters of the span. -/
def linksBetween (a b : Nat) : Nat :=
  let d (x y : Nat) : Nat := if x < y then y - x else x - y
  let row (p : Nat) := p % 24 / 6
  let col (p : Nat) := p % 6
  if a / 24 = b / 24 then d (row a) (row b) + d (col a) (col b)
  else if a / 24 < b / 24 then
    (5 - col a) + d (row a) (row b) + col b + (b / 24 - a / 24) + 5 * (b / 24 - a / 24 - 1)
  else col a + d (row a) (row b) + (5 - col b) + (a / 24 - b / 24) + 5 * (a / 24 - b / 24 - 1)

/-- Position of least cost, the first among equals. -/
def bestPos (cost : Nat → Nat) (ps : List Nat) : Option Nat :=
  ps.foldl (fun o p => match o with
    | none => some p
    | some q => if cost p < cost q then some p else some q) none

/-- Place the stages of one phase: fixed ones first, then the others in index order. `acc`: stage with position. R140 gives no
distance to a producer that is not placed yet, which has the higher index; such a stage goes to the lowest free iron.
DESIGN CHOICE. -/
def placeStages (img : Bytes) (todo : List Nat) (acc : List (Nat × Nat)) : Option (List (Nat × Nat)) :=
  match todo with
  | [] => some acc
  | i :: t =>
    let k := stageRec img i
    let free := (List.range (24 * planSpan img)).filter (fun p => !acc.any (fun x => x.2 == p)
      && (k.placeCl == 0xFF || p / 24 == k.placeCl) && (k.placeIron == 0xFF || p % 24 == k.placeIron))
    let cost (p : Nat) : Nat := match producerOf img (k.inRef 0) with
      | some q => (match acc.find? (fun x => x.1 == q) with
          | some x => linksBetween x.2 p
          | none => 0)
      | none => 0
    match bestPos cost free with
    | some p => placeStages img t (acc ++ [(i, p)])
    | none => none

/-- Placement of one phase, or none where a fixed placement is out of range, taken twice, or no iron is free. -/
def placePhase (img : Bytes) (ph : Nat) : Option (List (Nat × Nat)) :=
  let ss := phaseStages img ph
  let fixedOf (i : Nat) : Bool := (stageRec img i).placeCl != 0xFF && (stageRec img i).placeIron != 0xFF
  if ss.all (fun i => let k := stageRec img i
        (k.placeCl == 0xFF || k.placeCl < planSpan img) && (k.placeIron == 0xFF || k.placeIron < 24)) then
    placeStages img (ss.filter fixedOf ++ ss.filter (fun i => !fixedOf i)) []
  else none

/-- Placement of the whole plan, by stage index: positions. -/
def placePlan (img : Bytes) : Option (List (Nat × Nat)) :=
  (List.range (planPhases img)).foldl (fun o ph => match o, placePhase img ph with
    | some a, some b => some (a ++ b)
    | _, _ => none) (some [])

/-- Positions passed in steps from one to the next along a row of a cluster. -/
def alongRow (fuel p col : Nat) : List Nat :=
  match fuel with
  | 0 => []
  | k + 1 => if p % 6 = col then []
    else let q := if p % 6 < col then p + 1 else p - 1
         q :: alongRow k q col

/-- Positions passed along a column. -/
def alongCol (fuel p row : Nat) : List Nat :=
  match fuel with
  | 0 => []
  | k + 1 => if p % 24 / 6 = row then []
    else let q := if p % 24 / 6 < row then p + 6 else p - 6
         q :: alongCol k q row

/-- A path of positions from a to b: bridges are crossed along the row; within the last cluster (or with `colFirst` in
the first) the column is corrected (R142). -/
def pathGo (fuel : Nat) (colFirst : Bool) (a b : Nat) : List Nat :=
  match fuel with
  | 0 => []
  | k + 1 =>
    let row := b % 24 / 6
    let start := if colFirst then alongCol 4 a row else []
    let a' := start.getLast?.getD a
    if a / 24 = b / 24 then
      let r := alongRow 6 a' (b % 6)
      start ++ r ++ alongCol 4 (r.getLast?.getD a') row
    else if a / 24 < b / 24 then
      let r := alongRow 6 a' 5
      let edge := r.getLast?.getD a'
      let next := 24 * (a / 24 + 1) + edge % 24 / 6 * 6
      start ++ r ++ [next] ++ pathGo k colFirst next b
    else
      let r := alongRow 6 a' 0
      let edge := r.getLast?.getD a'
      let next := 24 * (a / 24 - 1) + edge % 24 / 6 * 6 + 5
      start ++ r ++ [next] ++ pathGo k colFirst next b

/-- The links of a path: pairs of positions. -/
def linksOfPath (a : Nat) (ps : List Nat) : List (Nat × Nat) := List.zip (a :: ps) ps

/-- Lanes of a link in one direction: 4 in the mesh, 2 for each attached iron of a bridge (R86, R92). -/
def lanesOf (l : Nat × Nat) : Nat := if l.1 / 24 = l.2 / 24 then 4 else 2

/-- Whether a link has a lane left. -/
def laneFree (used : List (Nat × Nat)) (l : Nat × Nat) : Bool := (used.filter (fun u => u == l)).length < lanesOf l

/-- Bind one branch of a stream: row first, and if that fails column first; the links the stream holds already are
shared. -/
def bindBranch (used mine : List (Nat × Nat)) (a b : Nat) : Option (List (Nat × Nat)) :=
  let try_ (colFirst : Bool) : Option (List (Nat × Nat)) :=
    let ls := (linksOfPath a (pathGo 9 colFirst a b)).filter (fun l => !mine.contains l)
    if ls.all (laneFree used) then some ls else none
  match try_ false with
  | some ls => some ls
  | none => try_ true

/-- Bind a stream to all its consumers. -/
def bindStream (pl : List (Nat × Nat)) (used : List (Nat × Nat)) (s : StreamRec) : Option (List (Nat × Nat)) :=
  let pos (i : Nat) : Nat := ((pl.find? (fun x => x.1 == i)).map (fun x => x.2)).getD 0
  let r := (s.cons.take s.ncons).foldl (fun o c => match o with
    | none => none
    | some mine => (bindBranch used mine (pos s.prod) (pos c)).map (fun ls => mine ++ ls)) (some [])
  r.map (fun mine => used ++ mine)

/-- Bind every stream of a phase in index order, or none where lanes run out (R94). -/
def bindPhase (img : Bytes) (pl : List (Nat × Nat)) (ph : Nat) : Option (List (Nat × Nat)) :=
  (streamRecs img).foldl (fun o s => match o with
    | none => none
    | some u => if (stageRec img s.prod).phase = ph then bindStream pl u s else some u) (some [])

/-! SRAM (R141) -/

/-- Element bytes of a format, rounded up. -/
def elemBytes (f : Nat) : Nat := (fmtBits f + 7) / 8

/-- SRAM need of a stage, in bytes. -/
def sramNeed (k : StageRec) : Nat :=
  let kib := 1024
  let p := k.par
  let base := match k.kind with
    | 1 | 2 | 14 => 128 * kib
    | 3 => 192 * kib + (if isTree (p 0 1) (p 1 1) then
        128 * (min (p 4 4) 256 * min (p 8 4) (if p 0 1 = 8 || p 1 1 = 8 then 16 else 32)) else 0)
    | 9 => 192 * kib + p 14 2 * p 2 2 * elemBytes (p 0 1)
    | 10 => 256 * kib + p 14 2 * p 2 2 * (elemBytes (p 0 1) + 32) + p 14 2 * 64
    | 11 | 12 => 192 * kib
    | _ => 256 * kib
  base + k.sramKib * kib

/-- Bytes of a shape's contents in an SRAM range. -/
def sramLen (a : Shape) : Nat :=
  packedBytes a.fmt (extCount a.ext) + (if a.scaled then extCount a.ext.dropLast * rowBlocks a.ext else 0)

/-- One past the last byte of the SRAM range that a LOAD fills or a STORE reads (R123). -/
def sramEnd (img : Bytes) (k : StageRec) : Nat :=
  let shapeOf (r : Ref) : Option Shape := match r with
    | .tensor t => some (tensorDesc img t).shape
    | _ => none
  let sh : Option Shape :=
    if k.kind = 1 && k.par 1 1 = 1 then
      (shapeOf (k.inRef 0)).map (fun a =>
        if k.par 0 1 = 1 then { a with ext := a.ext.set 0 (extCount (tensorDesc img (k.par 2 2)).ext) } else a)
    else if k.kind = 2 && k.par 0 1 = 1 then shapeOf (k.outRef 0)
    else none
  match sh with
  | some a => k.par 4 4 + sramLen a
  | none => 0

/-- Capacity of iron i (R83, R141): 2 MiB of an iron that holds the host-line cache, or is about to (R259). -/
def ironCapacity (s : State) (i : Nat) : Nat := (if rdBit s R.SU_HLC 31 && 16 ≤ i then 2048 else 3072) * 1024

/-- Every stage fits the iron it is placed on. -/
def sramFits (s : State) (img : Bytes) (pl : List (Nat × Nat)) : Bool :=
  pl.all (fun x => let k := stageRec img x.1
                   sramNeed k ≤ ironCapacity s (x.2 % 24) && sramEnd img k ≤ ironCapacity s (x.2 % 24))

/-! Scratch (R143, R144) -/

/-- Bytes of a scratch tensor, in 64 KiB parts. -/
def scratchBytes (d : TDesc) : Nat := (d.span + d.scaleCount + 65535) / 65536 * 65536

/-- SRAM that the stages on a position need, in any phase. -/
def posNeed (img : Bytes) (pl : List (Nat × Nat)) (pos : Nat) : Nat :=
  (pl.filter (fun x => x.2 == pos)).foldl (fun m x => max m (max (sramNeed (stageRec img x.1)) (sramEnd img (stageRec img x.1)))) 0

/-- The iron SRAM that a plan at HOME `home` leaves free: of each iron of its span, what lies above its need (R143,
level 1), as ranges of the alias of R27. -/
def level1Free (s : State) (img : Bytes) (home : Nat) (pl : List (Nat × Nat)) : List (Nat × Nat) :=
  (List.range (24 * planSpan img)).map (fun pos =>
    let need := (posNeed img pl pos + 65535) / 65536 * 65536
    (sramBase + (24 * ((home + pos / 24) % 8) + pos % 24) * 0x300000 + need, ironCapacity s (pos % 24) - need))

/-- The ranges that the configuration gives levels 2, 3 and 4 (R479). -/
def levelRanges (s : State) (level : Nat) : List (Nat × Nat) :=
  match level with
  | 2 => [(s.cfg.poolBase * 2 ^ 30, s.cfg.poolSize * 2 ^ 30)]
  | 3 => [(hostBase + s.cfg.hostOff * 2 ^ 30, s.cfg.hostSize * 2 ^ 30)]
  | _ => ((List.range 480).filter (fun i => (leAt s.cfg.peerSlots (i / 8) 1).testBit (i % 8))).map
      (fun i => (peerBase + i * peerSpan, dramSize))

/-- Insert a range in order of address. -/
def insertRange (r : Nat × Nat) (rs : List (Nat × Nat)) : List (Nat × Nat) :=
  match rs with
  | [] => [r]
  | x :: t => if r.1 ≤ x.1 then r :: x :: t else x :: insertRange r t

/-- What is free of the range from `a` up to `lim`, given the ranges in use in order of address. -/
def gapsOf (used : List (Nat × Nat)) (a lim : Nat) : List (Nat × Nat) :=
  match used with
  | [] => if a < lim then [(a, lim - a)] else []
  | u :: t =>
    if u.1 + u.2 ≤ a then gapsOf t a lim
    else if lim ≤ u.1 then (if a < lim then [(a, lim - a)] else [])
    else (if a < u.1 then [(a, u.1 - a)] else []) ++ gapsOf t (u.1 + u.2) lim

/-- Take `n` bytes from gaps in 64 KiB parts: the pieces taken, and what is still wanted. -/
def takeGaps (n : Nat) (gs : List (Nat × Nat)) : List (Nat × Nat) × Nat :=
  match gs with
  | [] => ([], n)
  | g :: t =>
    let m := min n (g.2 / 65536 * 65536)
    if n = 0 then ([], 0)
    else if m = 0 then takeGaps n t
    else
      let r := takeGaps (n - m) t
      ((g.1, m) :: r.1, r.2)

/-- The levels that may hold a tensor: not below RESIDENCY's, the host window and peer windows as SPILL allows (R143). -/
def levelsFor (img : Bytes) (d : TDesc) : List Nat :=
  let spill := leAt img 9 1
  [1, 2, 3, 4].filter (fun l => d.resid % 8 ≤ l && (l != 3 || spill.testBit 0) && (l != 4 || spill.testBit 1))

/-- Lay one tensor out over levels: the first part at the lowest level with room, the rest at the next, and so on. -/
def layLevels (free : Nat → List (Nat × Nat)) (t off n : Nat) (ls : List Nat) (used : List (Nat × Nat)) (acc : List ScratchPart) :
    Option (List ScratchPart × List (Nat × Nat)) :=
  if n = 0 then some (acc, used)
  else match ls with
    | [] => none
    | l :: rest =>
      let gs := (free l).flatMap (fun r => gapsOf (used.filter (fun u => u.1 < r.1 + r.2 && r.1 < u.1 + u.2)) r.1 (r.1 + r.2))
      let got := takeGaps n gs
      let parts := (got.1.zipIdx).map (fun x =>
        (⟨t, off + ((got.1.take x.2).foldl (fun a y => a + y.2) 0), x.1.2, l, x.1.1⟩ : ScratchPart))
      layLevels free t (off + (n - got.2)) got.2 rest (got.1.foldl (fun u x => insertRange x u) used) (acc ++ parts)

/-- Allocate every scratch tensor in index order (R143): the parts, or none where a tensor does not fit, with the levels
that it may use. -/
def allocScratch (img : Bytes) (free : Nat → List (Nat × Nat)) (used : List (Nat × Nat)) : Except (List Nat) (List ScratchPart) :=
  let r := (tensorDescs img).zipIdx.foldl (fun (o : Except (List Nat) (List ScratchPart × List (Nat × Nat))) d =>
    match o with
    | .error e => .error e
    | .ok x =>
      if d.1.fixed then .ok x
      else match layLevels free d.2 0 (scratchBytes d.1) (levelsFor img d.1) x.2 x.1 with
        | some y => .ok y
        | none => .error (levelsFor img d.1)) (.ok ([], used))
  match r with
  | .ok x => .ok x.1
  | .error e => .error e

/-- Ranges that other plans' scratch holds, in order of address. -/
def scratchUsed (s : State) : List (Nat × Nat) :=
  (s.press.plans.flatMap (fun p => p.parts)).foldl (fun u q => insertRange (q.addr, q.len) u) []

/-- What a plan may allocate from: level 1 on its own irons, the others by the configuration. -/
def scratchLevels (s : State) (img : Bytes) (home : Nat) (pl : List (Nat × Nat)) (level : Nat) : List (Nat × Nat) :=
  if level = 1 then level1Free s img home pl else levelRanges s level

/-! The checks in order (R137) -/

/-- Fixed tensor ranges lie within the windows that the firewall grants the submitter: master 2 for a plan of the
TAL8 itself, master 35 for the host's (R452, R137). -/
def planWindows (s : State) (self : Bool) (img : Bytes) : Bool :=
  let m := if self then 2 else 35
  let ok (i : Nat) (write : Bool) : Bool :=
    let d := tensorDesc img i
    !d.fixed || (self && 2 ^ 63 ≤ d.addr) || d.span == 0 || (fwAdmits s m d.addr d.span write
      && (d.scaleCount == 0 || fwAdmits s m d.saddr d.scaleCount write))
  (stageRecs img).all (fun k => (stageReads img k).all (fun i => ok i false) && (stageWrites k).all (fun i => ok i true))

/-- Everything that is refused with BAD_PARAM. -/
def planParams (s : State) (self : Bool) (img : Bytes) : Bool :=
  planFields self img && planStreams img
    && (List.range (planPhases img)).all (fun ph => (topoOrder img ph).length == (phaseStages img ph).length
        && (phaseStages img ph).length ≤ 24 * planSpan img)
    && scratchOrder img && phaseRanges img
    && (List.range (planPhases img)).all (fun ph => (shapesGo img (topoOrder img ph) []).isSome)
    && (match placePlan img with
        | some pl => sramFits s img pl && (List.range (planPhases img)).all (fun ph => (bindPhase img pl ph).isSome)
        | none => false)

/-- Status of the load checks, at the first that fails; DONE where all pass. BUSY is checked last. -/
def planStatus (s : State) (self : Bool) (img : Bytes) : Nat :=
  if leAt img 4 1 ≠ 1 || leAt img 5 1 ≠ 3 then St.BAD_VERSION
  else if !planLengths img then St.BAD_LENGTH
  else if (match allocScratch img (scratchLevels s img 0 ((placePlan img).getD [])) [] with
      | .ok _ => false
      | .error _ => true) then St.BAD_LENGTH
  else if !planParams s self img then St.BAD_PARAM
  else if !planWindows s self img then St.DENIED_AUTH
  else St.DONE

end Sys2Proof.Machine
end

