-- ==== Sys2Proof/Machine/PressOps.lean ====
section
/-! DEFINITION. Operations of the Press (03, 04): clusters and irons, spans, the effective clock, plan ends, requeueing
and suspension.
Log entries coded here: 33 (DESIGN CHOICE), 44 (DEDUCED), 65 (DEDUCED), 66 (DESIGN CHOICE), 69 (DEDUCED), 70
(DEDUCED), 71 (DEDUCED), 72 (DEDUCED), 78 (DEDUCED), 80 (DEDUCED), 186 (DEDUCED), 234 (DESIGN CHOICE), 235 (DESIGN
CHOICE), 243 (DEDUCED), 256 (DEDUCED). -/

namespace Sys2Proof.Machine

/-- Cluster c, and a change of it. -/
def cluster (s : State) (c : Nat) : Cluster := s.press.clusters.get {} c
def setCl (c : Nat) (f : Cluster → Cluster) (s : State) : State :=
  { s with press.clusters := SMap.upd {} s.press.clusters c f }

/-- Iron g = 24 × cluster + iron (R72), and a change of it. -/
def iron (s : State) (g : Nat) : Iron := s.press.irons.get {} g
def setIron (g : Nat) (f : Iron → Iron) (s : State) : State :=
  { s with press.irons := SMap.upd {} s.press.irons g f }

/-- Every iron of a cluster. -/
def setIrons (c : Nat) (f : Iron → Iron) (s : State) : State :=
  (List.range 24).foldl (fun a i => setIron (24 * c + i) f a) s

/-- A plan by number, and a change of it. -/
def planOf (s : State) (id : Nat) : Option Plan := s.press.plans.find? (fun p => p.id == id)
def setPlan (id : Nat) (f : Plan → Plan) (s : State) : State :=
  { s with press.plans := s.press.plans.map (fun p => if p.id = id then f p else p) }

/-- Clusters that a plan occupies (R139). -/
def Plan.clusters (p : Plan) : List Nat := (List.range (planSpan p.image)).map (fun k => (p.home + k) % 8)

/-- Both ends of the bridge from PCc to PC(c + 1) are powered, not suspended and enabled (R86). -/
def bridgeReady (s : State) (c : Nat) : Bool :=
  let d := (c + 1) % 8
  let ok (k : Nat) : Bool := (cluster s k).st != .off && (cluster s k).st != .suspended && !(cluster s k).susp
  ok c && ok d && rdBit s (R.BRIDGE_CTRL c) 0 && rdBit s (R.BRIDGE_CTRL d) 1

/-- A span that is free: every cluster IDLE, and the bridges between them usable (R139). -/
def spanIdle (s : State) (home span : Nat) : Bool :=
  (List.range span).all (fun k => (cluster s ((home + k) % 8)).st == .idle)
def spanFree (s : State) (home span : Nat) : Bool :=
  spanIdle s home span && (List.range (span - 1)).all (fun k => bridgeReady s ((home + k) % 8))

/-- The first free span in ascending order of HOME (R139). -/
def chooseHome (s : State) (span : Nat) : Option Nat := (List.range 8).find? (fun h => spanFree s h span)

/-! Clocks (R85, R112, R16, R442) -/

/-- TARGET_MHZ as it acts (R112). -/
def actTarget (v : Nat) : Nat := if v < 400 then 400 else if 1600 < v then 1600 else v / 25 * 25

/-- The island of PCc, in the bit order of ISLAND_PWR. -/
abbrev clusterIsland (c : Nat) : Nat := 3 + c

/-- The limits by LIMITER code; `broken`: a zone of the cluster holds a sensor declared broken. -/
def clusterLimits (s : State) (c : Nat) (broken : Bool) : List (Nat × Nat) :=
  let k := cluster s c
  [(actTarget (rdFld s (R.CL_FREQ c) 10 0), 0), (k.capMhz, 1), (k.thermMhz, 2), (s.aon.iclkEff, 3)]
    ++ (if broken then [(400, 4)] else [])
    ++ (if s.chip.gradLow.any (fun e => e.2 == clusterIsland c) then [(400, 5)] else [])
    ++ (if s.aon.vcoreCap then [(400, 1)] else [])

/-- Effective clock and the limit that sets it; when two give the same clock, the lower code (03). -/
def effClock (s : State) (c : Nat) (broken : Bool) : Nat × Nat :=
  if (cluster s c).st = .off then (0, 0)
  else (clusterLimits s c broken).foldl (fun a l => if l.1 < a.1 || (l.1 == a.1 && l.2 < a.2) then l else a) (100000, 9)

/-! Reads and writes beyond this node -/

/-- Contents read from beyond this node, for a cluster's plan; index 8 holds fetched plan images. -/
def extKey (c a : Nat) : Nat := c * 2 ^ 64 + a
def extWrite (c a : Nat) (bs : Bytes) (s : State) : State :=
  { s with press.ext := writeMap s.press.ext (extKey c a) bs }
def extDrop (c : Nat) (s : State) : State :=
  { s with
    press.ext := s.press.ext.keep (fun k => k / 2 ^ 64 != c)
    press.lanes := s.press.lanes.keep (fun k => k / 2 ^ 32 != c)
    press.issued := s.press.issued.filter (fun r => r.c != c)
    press.readQueue := s.press.readQueue.filter (fun r => r.c != c)
    press.poisoned := s.press.poisoned.filter (fun r => r.1 != c)
    press.reloads := s.press.reloads.filter (fun r => r.1 != c) }

/-- Pieces of at most 4,096 bytes, cut at multiples of 4,096. -/
def piecesOf (a n : Nat) : List (Nat × Nat) :=
  (List.range ((a + n + 4095) / 4096 - a / 4096)).map (fun i =>
    let lo := max a (4096 * (a / 4096 + i))
    let hi := min (a + n) (4096 * (a / 4096 + i + 1))
    (lo, hi - lo))

/-- The firewall admits an access of a plan: the windows of the load/store agents' master m; the engines of the scheduler core
(c = 8) have been checked by the order that named the address (R27, R452). -/
def pressAdmits (s : State) (c m a n : Nat) (write : Bool) : Bool :=
  8 ≤ c || (2 ^ 63 ≤ a) || fwAdmits s m a n write

/-- An access to a target of this node that is down is answered ABSENT and waits to be made again, as port 13; the field `win`
keeps the master (R107, R209). -/
def localAbsent (c m a n : Nat) (write : Bool) (bs : Bytes) (s : State) : State :=
  let t := if write then absentWrite m a s else absentError a s
  { t with torus.absent := t.torus.absent ++ [⟨13, 0, write, 0, m, a, n, .press c a, bs⟩] }

/-- Read one piece for a cluster's plan, by master m: bytes beyond this node or in the host-cacheable range (R261) are asked
for; a refused access pins the master (R453). -/
def pressReadPiece (c m a n : Nat) (s : State) : State :=
  if !pressAdmits s c m a n false then violate m a n false s
  else if localDown s (placeOf s a n) then localAbsent c m a n false [] s
  else match placeOf s a n with
  | .host off =>
    (match hostRead off n (fun o => .press c (hostBase + o)) s with
     | (t, some bs) => extWrite c a bs t
     | (t, none) => t)
  | .peer node off => issueRemote 8 false node 0 off n [] (.press c a) s
  | .acc port win off => issueRemote port false 0 win off n [] (.press c a) s
  | .dram d =>
    if inHcr s d n then hostRequest Op.CLAIM_S d n [] (.press c a) s
    else
      let r := dramLoad (if c < 8 then 1 else 4) d n s
      if r.2.isEmpty || 8 ≤ c then r.1
      else setCl c (fun k => { k with poison := true }) { r.1 with press.poisoned := r.1.press.poisoned ++ [(c, a, n)] }
  | _ => s

/-- Read a range for the engines of the scheduler core. -/
def pressRead (c a n : Nat) (s : State) : State :=
  (piecesOf a n).foldl (fun t p => pressReadPiece c 2 p.1 p.2 t) s

/-- Write one run of bytes of a plan's results, by master m. A write of register space is put down for `flushRegs`. -/
def pressWrite (c m a : Nat) (bs : Bytes) (s : State) : State :=
  if !pressAdmits s c m a bs.length true then violate m a bs.length true s
  else if localDown s (placeOf s a bs.length) then localAbsent c m a bs.length true bs s
  else match placeOf s a bs.length with
  | .host off => hostWrite off bs (.press c a) s
  | .peer node off => issueRemote 8 true node 0 off bs.length bs (.press c a) s
  | .dram d =>
    if inHcr s d bs.length then
      hostRequest Op.CLAIM_E d bs.length bs (.press c a) s
    else dramWrite d bs s
  | .sram off => { s with press.sram := writeMap s.press.sram off bs }
  | .work off => { s with assure.work := writeMap s.assure.work off bs }
  | .reg _ => { s with press.regWrites := s.press.regWrites ++ [(m, a, bs)] }
  | _ => s

/-- A write of tray DRAM by the engines of the scheduler core, claimed first in the host-cacheable range (R261). -/
def engineWrite (a : Nat) (bs : Bytes) (s : State) : State :=
  if inHcr s a bs.length then
    (piecesOf a bs.length).foldl (fun t q => hostRequest Op.CLAIM_E q.1 q.2 (slice bs (q.1 - a) q.2) (.press 8 q.1) t) s
  else dramWrite a bs s

/-- Whether a request is a cluster's. -/
def Owner.ofPress (o : Owner) (c : Nat) : Bool :=
  match o with
  | .press k _ => k == c
  | _ => false

/-- Owners of the accesses that are not yet over. -/
def accessOwners (s : State) : List Owner :=
  (s.torus.remotes ++ s.torus.waiting ++ s.torus.absent).map (fun r => r.owner)
    ++ (s.su.reqs ++ s.su.waits).map (fun r => r.owner)

/-- Accesses of a cluster's plan that are not yet over. -/
def pressBusy (s : State) (c : Nat) : Bool :=
  (accessOwners s).any (fun o => o.ofPress c) || s.press.readQueue.any (fun r => r.c == c)

/-- An access for a range of a cluster's plan is not yet over. A read of cached lines begins at a line (R258). -/
def rangeBusy (s : State) (c a n : Nat) : Bool :=
  (accessOwners s).any (fun o => match o with
    | .press k x => k == c && a < x + 64 && x < a + n
    | _ => false)
    || s.press.readQueue.any (fun r => r.c == c && a < r.addr + r.len && r.addr < a + n)

/-- Reads that an iron has outstanding (R84). -/
def ironOutstanding (s : State) (g : Nat) : Nat :=
  (s.press.issued.filter (fun r => r.g == g && rangeBusy { s with press.readQueue := [] } r.c r.addr r.len)).length

/-- Issue the reads that wait while their iron has fewer than 64 outstanding (R84). -/
def pumpReads (rs : List IronRead) (s : State) : State :=
  match rs with
  | [] => s
  | r :: t =>
    if ironOutstanding s r.g < 64 then
      pumpReads t (pressReadPiece r.c (15 + r.g / 24) r.addr r.len
        { s with press.readQueue := s.press.readQueue.erase r, press.issued := s.press.issued ++ [r] })
    else pumpReads t s

/-- An iron's load/store agent is to read a range for the plan of cluster c. -/
def ironRead (c g a n : Nat) (s : State) : State :=
  let rs := (piecesOf a n).map (fun p => (⟨c, g, p.1, p.2⟩ : IronRead))
  pumpReads rs { s with press.readQueue := s.press.readQueue ++ rs }

/-- Bytes of a range that lies beyond this node and was read for the scheduler core's engines stand: no access to them is
outstanding. -/
def rangeReady (s : State) (addr len : Nat) : Bool :=
  let mine (o : Owner) : Bool := match o with
    | .press 8 a => addr ≤ a + 4095 && a < addr + len
    | _ => false
  !(s.torus.remotes.any (fun r => mine r.owner) || s.torus.waiting.any (fun r => mine r.owner)
    || s.torus.absent.any (fun r => mine r.owner) || s.su.reqs.any (fun r => mine r.owner)
    || s.su.waits.any (fun r => mine r.owner))

/-- A plan that ends no longer waits for its accesses: their answers find no consumer. -/
def disown (c : Nat) (s : State) : State :=
  { s with
    torus.remotes := s.torus.remotes.map (fun r => if r.owner.ofPress c then { r with owner := .plain } else r)
    torus.absent := s.torus.absent.filter (fun r => !r.owner.ofPress c)
    torus.waiting := s.torus.waiting.filter (fun r => !r.owner.ofPress c)
    su.reqs := s.su.reqs.map (fun r => if r.owner.ofPress c then { r with owner := .plain } else r)
    su.waits := s.su.waits.filter (fun r => !r.owner.ofPress c) }

/-! Ends of plans -/

/-- An iron without a stage: its flags stand until a stage is bound, and its working registers stand too. -/
def Iron.unbound (i : Iron) : Iron :=
  { i with st := .idle, stage := none, beat := 0, beats := 0, inBound := 0, outBound := 0, inCur := [], outCur := [], poison := false }

/-- A cluster of an ended plan: IDLE, or FROZEN while its control core does not run (R99); its irons are unbound. -/
def releaseCluster (c : Nat) (s : State) : State :=
  let s1 := setCl c (fun k => { k with
    st := if k.st = .off || k.st = .suspended || k.st = .selftest then k.st
      else if coreUp (3 + c) s then .idle else .frozen
    plan := none, restartable := false, restarts := 0, failed := none, rerun := false, poison := false,
    stallTold := false }) s
  disown c (extDrop c (setIrons c Iron.unbound s1))

/-- Free what a plan holds: clusters, hash engines, scratch. -/
def unloadPlan (id : Nat) (s : State) : State :=
  match planOf s id with
  | none => s
  | some p =>
    let s1 := if p.st = .waiting then s else (List.range 8).foldl (fun a c =>
      if (cluster a c).plan = some id then releaseCluster c a else a) s
    setPlan id (fun q => { q with wrote := [], parts := [], waitLevels := 0, place := [], spaceWaits := false,
                                  budgetWaits := false, stored := false })
      { s1 with press.hashUsed := s1.press.hashUsed.filter (fun h => h.1 != id)
                press.hashWait := s1.press.hashWait.filter (fun h => h.1 != id) }

/-- Status and payload of the order that submitted a plan, at its end. -/
def planEndReply (id : Nat) (st : PlanSt) (reason : Nat) : Nat × Bytes :=
  if st = .done then (St.DONE, leBytes 8 id) else (St.FAULT, detail noDetail reason)

/-- A plan ends: what it holds is freed, and the order that submitted it is answered. -/
def endPlan (id : Nat) (st : PlanSt) (reason : Nat) (s : State) : State :=
  let s1 := setPlan id (fun p => { p with st := st, reason := reason, image := p.image.take 64 }) (unloadPlan id s)
  let r := planEndReply id st reason
  finishLong (.planSubmit id) r.1 r.2 s1

/-- A plan refused at load: nothing is bound; its order is answered with the status (R137). -/
def refusePlan (id status : Nat) (s : State) : State :=
  let s1 := setPlan id (fun p => { p with st := .fault, reason := status, refused := true, image := p.image.take 64 }) (unloadPlan id s)
  finishLong (.planSubmit id) status (detail noDetail 0) s1

/-- A plan is handed back to the scheduler core and queued again; its scratch is allocated again (R99, R102, R105). A
replay is not: its capsule returns to QUEUED (R163). It is placed afresh on any span, whatever HOME it named (R146). -/
def requeuePlan (id : Nat) (s : State) : State :=
  setPlan id (fun p => { p with st := if p.isReplay then .aborted else .waiting, phase := 0, stagesDone := 0, flags := 0, requeued := true }) (unloadPlan id s)

/-! Faults and suspension -/

/-- Latch a fault bit; FAULT_LOC describes the first while FAULT_STATUS was zero. It is held until software has cleared every
bit of FAULT_STATUS, and what it shows then is not stated: it keeps its value until the next fault. DESIGN CHOICE. -/
def latchFault (c bit unit i : Nat) (s : State) : State :=
  let s1 := if rd s (R.FAULT_STATUS c) = 0 then
      wr (R.FAULT_LOC c) (BitVec.ofNat 32 (2 ^ 31 + unit % 16 * 256 + i % 256)) s else s
  setBits (R.FAULT_STATUS c) (2 ^ bit) s1

/-- Start a self-test (R104). -/
def startSelftest (c : Nat) (s : State) : State :=
  setCl c (fun k => { k with st := .selftest }) (setIrons c (fun _ => { st := .test }) s)

/-- Stop a plan because one of its clusters or bridges is lost: it is handed back, and every other cluster latches
BRIDGE_LOST (R105, R113). -/
def stopPlan (id : Nat) (s : State) : State :=
  match planOf s id with
  | none => s
  | some p =>
    let s1 := if 1 < planSpan p.image && p.st != .waiting then
        p.clusters.foldl (fun a c => latchFault c 8 7 0xFE a) s else s
    requeuePlan id s1

/-- Plans that span the bridge from PCc to PC(c + 1). -/
def plansOver (s : State) (c : Nat) : List Nat :=
  (s.press.plans.filter (fun p => (p.st == .loading || p.st == .running)
    && (List.range (planSpan p.image - 1)).any (fun k => (p.home + k) % 8 == c))).map (fun p => p.id)

/-- Training of the memory has failed: no cluster runs until the MEM island is powered up again and trains (R210). -/
def memFailed (s : State) : Bool := rdFld s R.MEM_STATE 2 0 == 4

/-- Suspend a cluster (R105): its plan and every plan over its bridges stop, a self-test starts, and CLUSTER_SUSP shows
until it is over. -/
def suspendCluster (c : Nat) (s : State) : State :=
  if (cluster s c).st = .off then s
  else
    let ids := (match (cluster s c).plan with
      | some id => [id]
      | none => []) ++ plansOver s c ++ plansOver s ((c + 7) % 8)
    let s1 := ids.foldl (fun a id => stopPlan id a) s
    let s2 := raise 10 4 c (regData (rd s1 (R.FAULT_STATUS c)) ++ regData (rd s1 (R.FAULT_LOC c))) s1
    startSelftest c (setCl c (fun k => { k with susp := true }) s2)

/-! The control core (R96 to R99) -/

/-- A restart of the control core has failed (R99): after two for one plan, the plan is handed back. -/
def restartFailed (c : Nat) (s : State) : State :=
  let s1 := setCl c (fun k => if k.plan.isSome then { k with restarts := min 2 (k.restarts + 1) } else k) (latchFault c 5 0 0xFF s)
  match (cluster s1 c).plan with
  | some id => if 2 ≤ (cluster s1 c).restarts then requeuePlan id s1 else s1
  | none => s1

/-- The control core stops (R98): every iron freezes at its stage boundary, and the cluster is FROZEN, with a plan or without
one; a stop before the irons of an earlier one are released is a failed restart (R99). -/
def ctlStops (c : Nat) (s : State) : State :=
  let k := cluster s c
  if k.st = .off then s
  else
    let s1 := latchFault c 4 0 0xFF s
    if k.ctlFroze then restartFailed c s1
    else
      setCl c (fun x => { x with
          ctlFroze := true
          st := if x.st = .running || x.st = .loading || x.st = .idle then .frozen else x.st })
        (setIrons c (fun i => if i.st = .active then { i with st := .frozen } else i) s1)

/-- The control core runs again (R98): the irons are released, unless a failed check is to be handled first. -/
def ctlRuns (c : Nat) (s : State) : State :=
  let k := cluster s c
  if k.st = .frozen && k.failed.isSome then s
  else if k.st ≠ .frozen then setCl c (fun x => { x with ctlFroze := false }) s
  else match k.plan with
    | none => setCl c (fun x => { x with st := .idle, ctlFroze := false }) s
    | some id =>
      let st := match planOf s id with
        | some p => if p.st = .loading then ClSt.loading else ClSt.running
        | none => ClSt.idle
      setCl c (fun x => { x with st := st, ctlFroze := false })
        (setIrons c (fun i => if i.st = .frozen then { i with st := .active } else i) s)

/-! Power (R108, R114) -/

/-- Cluster registers that keep their values until cold reset (R114). -/
def clusterHeld (c off : Nat) : Bool := R.SELFTEST_RESULT c ≤ off && off ≤ R.CL_CNT_RERUN c

/-- Supply of PCc on or off: its registers take their reset values, and its irons and held state are gone. -/
def clusterPower (c : Nat) (on : Bool) (s : State) : State :=
  let bit := 1#26 <<< clusterIsland c
  let s1 := dropRegs (fun o => within o 1 (R.CL_STATE c) 0x1000000 && !clusterHeld c o) s
  let s2 := extDrop c (setIrons c (fun _ => {}) s1)
  let base := 24 * c * 0x300000
  finishLongs (fun k => k == .clusterCtrl c || k == .clusterCtrl (8 + c)) St.FAULT (detail noDetail 0)
    (setCl c (fun k => { ({} : Cluster) with st := if on then .idle else .off, passed := k.passed, capMhz := if s.chip.rackThrottle then 400 else 1600, thermMhz := if leakHolds s 8 then 400 else 1600 })
    { s2 with chip.islands := if on then s2.chip.islands ||| bit else s2.chip.islands &&& ~~~bit
              press.sram := s2.press.sram.keep (fun a => !within a 1 base (24 * 0x300000)) })

/-- A hardware trip, or the loss of VCORE: every cluster is off, and running plans and their held state are lost; host
jobs are queued again from their start (R108). -/
def pressLost (s : State) : State :=
  let ids := (s.press.plans.filter (fun p => p.st == .loading || p.st == .running)).map (fun p => p.id)
  (List.range 8).foldl (fun a c => clusterPower c false a) (ids.foldl (fun a id => requeuePlan id a) s)

/-! Stalls (R106) -/

/-- Lanes that the current phase of a plan holds on the bridge from PCc to PC(c + 1), upwards and downwards. -/
def bridgeLanes (s : State) (c : Nat) : Nat × Nat :=
  s.press.plans.foldl (fun a p =>
    if p.st = .running then
      let ls := (bindPhase p.image p.place p.phase).getD []
      let on (x y : Nat) : Bool := y == x + 1 && (p.home + x) % 8 == c
      (a.1 + (ls.filter (fun l => on (l.1 / 24) (l.2 / 24))).length,
       a.2 + (ls.filter (fun l => on (l.2 / 24) (l.1 / 24))).length)
    else a) (0, 0)

/-- Positions and irons of a plan's stages (R140). -/
def Plan.posOf (p : Plan) (i : Nat) : Nat := ((p.place.find? (fun x => x.1 == i)).map (fun x => x.2)).getD 0
def Plan.ironOf (p : Plan) (i : Nat) : Nat := 24 * ((p.home + p.posOf i / 24) % 8) + p.posOf i % 24

/-- The device ranges of a tensor: a fixed one's own, a scratch tensor's parts. -/
def Plan.tensorRanges (p : Plan) (i : Nat) : List (Nat × Nat) :=
  let d := tensorDesc p.image i
  if d.fixed then d.ranges else (p.parts.filter (fun x => x.tensor == i)).map (fun x => (x.addr, x.len))

/-- A stage waits for an access of its own, or for hash engines. -/
def stageHeld (s : State) (p : Plan) (i : Nat) : Bool :=
  let k := stageRec p.image i
  s.press.hashWait.any (fun h => h.1 == p.id && h.2.1 == i)
    || (stageReads p.image k ++ stageWrites k).any (fun t => (p.tensorRanges t).any (fun r => rangeBusy s p.home r.1 r.2))

/-- Stages of the current phase that wait: by an access or engines of their own, or for words of a stream whose producer
waits (R93). -/
def stagesWaiting (s : State) (p : Plan) : List Nat :=
  if p.st = .running && !p.stored then
    (topoOrder p.image p.phase).foldl (fun acc i =>
      let k := stageRec p.image i
      if stageHeld s p i || (List.range 4).any (fun q => (producerOf p.image (k.inRef q)).any acc.contains) then acc ++ [i]
      else acc) []
  else []

/-- Input ports that wait for a word, given the stages that wait (R93). -/
def inWaits (p : Plan) (waiting : List Nat) (i : Nat) : Nat :=
  bitsOf 4 (fun q => (producerOf p.image ((stageRec p.image i).inRef q)).any waiting.contains)

/-- Output ports that wait for room: a consumer of the stream does not take words (R93). -/
def outWaits (p : Plan) (waiting : List Nat) (i : Nat) : Nat :=
  if waiting.contains i then 0
  else bitsOf 4 (fun q => match (stageRec p.image i).outRef q with
    | .stream n => let sr := streamRec p.image n
                   (sr.cons.take sr.ncons).any waiting.contains
    | _ => false)

/-- A stage on cluster c waits on another stage of its plan only. -/
def streamWait (s : State) (p : Plan) (c : Nat) : Bool :=
  let w := stagesWaiting s p
  (phaseStages p.image p.phase).any (fun i => p.ironOf i / 24 == c && !stageHeld s p i
    && (inWaits p w i != 0 || outWaits p w i != 0))

/-- What the irons of a cluster wait on now, as the bits of STALL_CAUSE. -/
def stallCause (s : State) (c : Nat) : Nat :=
  match (cluster s c).plan.bind (planOf s) with
  | none => 0
  | some p =>
    let h := p.home
    b2n p.budgetWaits ||| (if p.spaceWaits then p.waitLevels else 0)
      ||| 4 * b2n ((s.su.reqs ++ s.su.waits).any (fun r => r.owner.ofPress h))
      ||| 8 * b2n ((s.torus.remotes ++ s.torus.waiting).any (fun r => r.owner.ofPress h && 8 ≤ r.port))
      ||| 16 * b2n ((s.torus.remotes ++ s.torus.waiting).any (fun r => r.owner.ofPress h && r.port < 8))
      ||| 32 * b2n (p.clusters.any (fun d => d != c && (cluster s d).st == .frozen))
      ||| 64 * b2n (s.press.hashWait.any (fun w => w.1 == p.id))
      ||| 128 * b2n (!coreUp (3 + c) s)
      ||| 256 * b2n (s.torus.absent.any (fun r => r.owner.ofPress h))
      ||| 512 * b2n (streamWait s p c)

/-- A cause that ceases is shown no longer, and a stall that is over may be told of again (R106). -/
def stallNow (s : State) : State :=
  s.press.clusters.foldl (fun a e =>
    let k := e.2
    if k.stallSeen = 0 && k.stallShown = 0 && !k.stallTold then a
    else
      let w := stallCause s e.1
      setCl e.1 (fun x => { x with stallSeen := x.stallSeen &&& w, stallShown := x.stallShown &&& w
                                   stallTold := x.stallTold && w != 0 }) a) s

/-- A millisecond has passed: a cause that stood all the time is shown in STALL_CAUSE (R106). -/
def stallTick (s : State) : State :=
  s.press.clusters.foldl (fun a e =>
    let w := stallCause s e.1
    if w = 0 && e.2.stallSeen = 0 && e.2.stallShown = 0 then a
    else setCl e.1 (fun x => { x with stallShown := (x.stallShown ||| x.stallSeen) &&& w, stallSeen := w }) a) s

end Sys2Proof.Machine
end

