-- ==== Sys2Proof/Machine/MemOps.lean ====
section
/-! DEFINITION. Operations on tray memory (06): placement, checked reads and writes, the log of uncorrectable words,
and the power of the MEM island.
Log entries coded here: 118 (DEDUCED). -/

namespace Sys2Proof.Machine

/-! The MEM island (R209 to R213) -/

/-- Registers of the MEM block. -/
def inMemBlock (off : Nat) : Bool := 0x20000000 ≤ off && off < 0x30000000

/-- The MEM island gets its supply: registers reset, INTERLEAVE is read, training starts (R192, R209, R213). -/
def memPowerUp (s : State) : State :=
  let s1 := loadRegs (fun o => inMemBlock o && !memHeld o) (dropRegs (fun o => inMemBlock o && !memHeld o) s)
  let i := rdFld s1 R.MEM_CFG 0 0
  wrFld R.MEM_STATE 2 0 1
    { s1 with mem := { interleave := i, nowWaits := false }, chip.islands := s1.chip.islands ||| (1#26 <<< 11) }

/-- The MEM island loses its supply: contents and controllers are gone (R211), and the host loses its copies (R262). -/
def memPowerDown (s : State) : State :=
  if islandOn 11 s then
    let s1 := notice 7 0 0 0 { s with su.hcrLost := true }
    let s2 := dropRegs (fun o => inMemBlock o && !memHeld o) s1
    { s2 with mem := {}, chip.islands := s2.chip.islands &&& ~~~(1#26 <<< 11) }
  else s

end Sys2Proof.Machine
end

