-- ==== Sys2Proof/Machine/Time.lean ====
section
/-! DEFINITION. Operations on tray time (R328 to R331): roots and parents, offsets, slews and steps.
Log entries coded here: 11 (DEDUCED), 141 (DEDUCED), 169 (DEDUCED), 267 (DEDUCED), 268 (DEDUCED). -/

namespace Sys2Proof.Machine

/-- Tray time, TAI ns. -/
def taiNow (s : State) : Nat := s.time.fifths / 5

/-- MODE of TIME_CTRL is SEAM. -/
def seamMode (s : State) : Bool := rdBit s R.TIME_CTRL 0

/-- Hops between two coordinates of a ring. -/
def ringHops (a b n : Nat) : Nat := min ((b + n - a) % n) ((a + n - b) % n)

/-- Torus hops from this node. -/
def hopsTo (s : State) (n : Nat) : Nat :=
  ringHops (nodeX (nodeId s)) (nodeX n) (sizeX s) + ringHops (nodeY (nodeId s)) (nodeY n) (sizeY s)

/-- The node of a valid TIME_ROOT entry. -/
def timeRootEntry (s : State) (i : Nat) : Option Nat :=
  if rdBit s (R.TIME_ROOT i) 31 then some (rdFld s (R.TIME_ROOT i) 10 0) else none

/-- The nearest valid time root by hop count, ties to the lower entry (R328). -/
def timeRoot (s : State) : Option Nat :=
  (((List.range 8).filterMap (timeRootEntry s)).foldl (fun o n => match o with
    | none => some n
    | some b => if hopsTo s n < hopsTo s b then some n else some b) none)

/-- This node is a time root itself. -/
def isTimeRoot (s : State) : Bool := timeRoot s == some (nodeId s)

/-- The seam that leads to the parent: the first hop of the XY route to the root, or of the YX route where a link of
the XY route is DOWN; none at a root, and where both are blocked (R328). -/
def timeParent (s : State) : Option Nat :=
  match timeRoot s with
  | none => none
  | some r =>
    if r = nodeId s || !identityOk s then none
    else match injectOrder s r with
      | none => none
      | some yx => some (firstSeam s yx (nodeId s) r)

/-- What the uncertainty has grown by in this holdover: 1 ns in each ms, 30 ns while the lanes run from the backup clock (R331,
R507). -/
def holdGrowth (s : State) : Nat :=
  if s.time.holdover then s.time.holdBase + (if s.chip.onBackupClock then 30 else 1) * (now s - s.time.holdSince) else 0

/-- The rate of that growth changes with the reference clock. -/
def clockChanges (backup : Bool) (s : State) : State :=
  { s with time.holdBase := holdGrowth s, time.holdSince := if s.time.holdover then now s else s.time.holdSince,
           chip.onBackupClock := backup }

/-- TIME_UNC_NS (R331). -/
def timeUnc (s : State) : Nat :=
  let base := if seamMode s && !isTimeRoot s then
      20 + 5 * (match timeRoot s with
        | some r => hopsTo s r
        | none => 0)
    else 20
  if s.time.valid then min 0xFFFF (base + holdGrowth s) else 0xFFFF

/-- Decide a step of tray time (R330). -/
def decideStep (by_ : Int) (s : State) : State := { s with time.stepBy := some by_, time.slew := 0 }

/-- Correct tray time by a measured offset (local minus reference): a slew within ±10 µs, a step beyond (R330). While the
power-management core is down time discipline holds its frequency (10, collisions), and while REFCLK100 is lost tray time runs in
holdover from the crystal (R507). -/
def correctTime (offset : Int) (s : State) : State :=
  if !coreUp 1 s || s.chip.onBackupClock then s else
  let s1 := { s with time.holdover := false }
  if -10000 ≤ offset && offset ≤ 10000 && s1.time.valid then { s1 with time.slew := -5 * offset }
  else decideStep (-offset) s1

/-- No usable reference: holdover begins (R328, R330). -/
def beginHoldover (s : State) : State :=
  if s.time.holdover then s else { s with time.holdover := true, time.holdSince := now s, time.holdBase := 0 }

/-- There is a reference to follow (R328, R329): the parent seam neighbour, or for a root and in HOST mode the host, whose last
TIME frame was TRACEABLE. -/
def refUsable (s : State) : Bool :=
  if seamMode s && !isTimeRoot s then (timeParent s).isSome else suOpen s && s.time.hostAny

/-- A node without a usable reference runs in holdover (R328, R330). -/
def settleTime (s : State) : State := if refUsable s then s else beginHoldover s

/-- TIME_STATE as it reads. -/
def timeStateWord (s : State) : W32 :=
  BitVec.ofNat 32 (timeUnc s * 65536 + 8 * b2n (isTimeRoot s)
    + 4 * b2n (match s.time.stepped with
        | some t => decide (now s < t + 1000)
        | none => false)
    + 2 * b2n s.time.holdover + b2n s.time.valid)

end Sys2Proof.Machine
end

