-- ==== Sys2Proof/Machine/MeterOps.lean ====
section
/-! DEFINITION. Operations of the metering back end (10): conversion of samples, attribution, tickets and batches.
Energies are in attojoules: 1 µV × 1 µA for 1 µs.
Log entries coded here: 168 (DEDUCED), 171 (DEDUCED), 174 (DEDUCED), 264 (DESIGN CHOICE). -/

namespace Sys2Proof.Machine

/-! Exact fractions -/

/-- A fraction in lowest terms. -/
def mkFrac (n : Int) (d : Nat) : Frac :=
  let g := Nat.gcd n.natAbs d
  if g ≤ 1 then ⟨n, d⟩ else ⟨n / g, d / g⟩

def Frac.add (a b : Frac) : Frac := mkFrac (a.n * b.d + b.n * a.d) (a.d * b.d)

/-- Ceiling of a fraction. -/
def Frac.ceil (a : Frac) : Int := -((-a.n) / a.d)

/-! Conversion (R320, R322) -/

/-- VRANGE and IMODE as they act. -/
def vRange (s : State) (r : Nat) : Nat := rdFld s (R.RAIL_MCFG r) 3 2 % 3
def iMode (s : State) (r : Nat) : Nat := min 3 (rdFld s (R.RAIL_MCFG r) 6 4)

/-- V_FS in µV. -/
def vFull (s : State) (r : Nat) : Frac :=
  match vRange s r with
  | 1 => ⟨2500000, 1⟩
  | 2 => mkFrac (1250000 * rdFld s (R.RAIL_MSCALE r) 31 16) 1024
  | _ => ⟨1250000, 1⟩

/-- I_FS in µA; for a shunt of 0 the spec states no full scale, and it is a free value. -/
def iFull (s : State) (r : Nat) : Frac :=
  let k := rdFld s (R.RAIL_MSCALE r) 15 0
  match iMode s r with
  | 3 => ⟨12500000 * k, 1⟩
  | m => if k = 0 then ⟨Config.unstated 320 r, 1⟩ else mkFrac (2000000000 * 2 ^ m) k

/-- Coefficients of a channel in force: the field's, else the factory's for its mode (R322). -/
def coefOf (s : State) (ch : Nat) : W32 × W32 :=
  match s.meter.coef.get none ch with
  | some c => c
  | none =>
    let m := if ch % 2 = 0 then vRange s (ch / 2) else iMode s (ch / 2)
    (Config.calGainFactory (ch + 512 * m), Config.calOffsetFactory (ch + 512 * m))

/-- Rounded to nearest; of two equally near values the spec names neither (a free value decides). -/
def roundNear (n : Int) (d key : Nat) : Int :=
  let r := 2 * (n % d)
  if r < d then n / d
  else if r = d then n / d + ((Config.unstated 322 key % 2 : Nat) : Int)
  else n / d + 1

/-- The value delivered for a raw code, in µV or µA (R322). -/
def convertCode (s : State) (ch : Nat) (code : Int) : Int :=
  let c := coefOf s ch
  let fs := if ch % 2 = 0 then vFull s (ch / 2) else iFull s (ch / 2)
  roundNear ((code * 256 - c.2.toInt) * c.1.toNat * fs.n) (2 ^ 38 * 32768 * fs.d) ch

/-! Roles and bounds (R327, R333, R334) -/

/-- ROLE of a rail as it acts: Direct is valid only in groups 1 to 8. -/
def railRole (s : State) (r : Nat) : Nat :=
  let k := rdFld s (R.RAIL_MCFG r) 1 0
  let g := railGroup s.st.image r
  if k = 1 && !(1 ≤ g && g ≤ 8) then 0 else k

/-- Present rails with a role. -/
def roleRails (s : State) (k : Nat) : List Nat := (presentRails s.st.image).filter (fun r => railRole s r == k)

/-- Direct rails of accelerator a. -/
def directRails (s : State) (a : Nat) : List Nat :=
  (roleRails s 1).filter (fun r => railGroup s.st.image r == a + 1)

def sumInt (xs : List Int) : Int := xs.foldl (fun a b => a + b) 0
def sumFrac (xs : List Frac) : Frac := xs.foldl Frac.add {}

/-- b_r (R334). -/
def railBound (s : State) (e : SMap Int) (r : Nat) : Frac :=
  let ext := rdFld s (R.RAIL_MERR r) 15 0
  let pfs := vFull s r
  let ifs := iFull s r
  (mkFrac ((e.get 0 r).natAbs * (4000 + ext)) 1000000).add
    (mkFrac (pfs.n * ifs.n * 10 * 250) (pfs.d * ifs.d * 1000000))

/-! The ticket store (R335 to R341) -/

/-- Slots in use. -/
def storeUsed (s : State) : Nat := s.meter.batches.foldl (fun a b => a + b.tickets.length) 0

/-- CAL_ID (R325). -/
def calId (s : State) : Nat := Config.calIdFactory.toNat / 2 ^ 24 * 2 ^ 24 + s.meter.calGen % 2 ^ 24

/-- Close the batch that is open (R338). -/
def closeBatch (byTime : Bool) (s : State) : State :=
  { s with meter.batches := s.meter.batches.map (fun b =>
      if b.closed then b else
        { b with closed := true, byTime := byTime, closeTai := taiNow s, calId := calId s, delayed := !coreUp 0 s }) }

/-- Open a batch where none is open. -/
def openBatch (s : State) : State :=
  if s.meter.batches.any (fun b => !b.closed) then s
  else { s with
    meter.batches := s.meter.batches ++ [{ idx := s.meter.batch, firstSeq := s.meter.seq, openTai := taiNow s,
                                           openAt := now s }]
    meter.batch := s.meter.batch + 1 }

/-- The batch that is open. -/
def openIdx (s : State) : Nat :=
  match s.meter.batches.find? (fun b => !b.closed) with
  | some b => b.idx
  | none => s.meter.batch

/-- The ticket of an entry that closes (R336). -/
def ticketBytes (s : State) (o : OpenReq) (why : CloseWhy) : Bytes :=
  let unc := (o.unc.add o.lastTerm).ceil
  let flags := b2n (why == .max) + 2 * b2n (why == .idle) + 4 * b2n (why == .shutdown || o.shut)
    + 8 * b2n (o.span.miss &&& o.mask != 0) + 16 * b2n o.step + 32 * b2n o.cal + 64 * b2n o.span.hold
  let nj (x : Int) : Nat := (x / 1000000000 % 2 ^ 64).toNat
  leBytes 1 1 ++ leBytes 1 flags ++ leBytes 2 (nodeId s) ++ leBytes 1 o.mask.toNat ++ zeros 3 ++ leBytes 16 o.id
    ++ leBytes 8 o.start ++ leBytes 8 o.last ++ leBytes 8 (nj o.direct) ++ leBytes 8 (nj o.alloc)
    ++ leBytes 8 ((-((-unc) / 1000000000) + 2).toNat) ++ leBytes 4 (calId s) ++ leBytes 4 o.part
    ++ leBytes 8 (openIdx s) ++ leBytes 8 s.meter.seq ++ leBytes 4 (activeGen s) ++ leBytes 4 o.span.unc ++ zeros 32

/-- A ticket enters the store; the 4,096th closes its batch (R338). -/
def storeTicket (o : OpenReq) (why : CloseWhy) (s : State) : State :=
  let s1 := openBatch s
  let t := ticketBytes s1 o why
  let frac (x : Int) : Int := x % 1000000000
  let s2 := { s1 with
    meter.batches := s1.meter.batches.map (fun b => if b.closed then b else { b with tickets := b.tickets ++ [t] })
    meter.seq := s1.meter.seq + 1
    meter.idle := s1.meter.idle + frac o.direct + frac o.alloc }
  if s2.meter.batches.any (fun b => !b.closed && 4096 ≤ b.tickets.length) then closeBatch false s2 else s2

/-- What an entry that continues becomes (R335). -/
def OpenReq.again (o : OpenReq) : OpenReq :=
  { id := o.id, start := o.last, last := o.last, seenAt := o.seenAt, part := o.part + 1, reopens := true }

/-- Close an entry: at once, or, while every slot holds a ticket, in order as slots are freed (R335, R341). An entry
that waits to reopen has no interval, and ends without a ticket. -/
def closeReq (id : Nat) (why : CloseWhy) (s : State) : State :=
  match s.meter.opens.find? (fun o => o.id == id) with
  | none => s
  | some o =>
    if o.reopens then { s with meter.opens := s.meter.opens.erase o }
    else if 262144 ≤ storeUsed s || !s.meter.closeWait.isEmpty then
      if s.meter.closeWait.any (fun w => w.1 == id) then s
      else { s with meter.closeWait := s.meter.closeWait ++ [(id, why)] }
    else
      storeTicket o why { s with meter.opens :=
        if why = .max then s.meter.opens.map (fun x => if x.id = id then x.again else x) else s.meter.opens.erase o }

/-- Closes that waited are applied while slots are free. -/
def applyCloses (fuel : Nat) (s : State) : State :=
  match fuel with
  | 0 => s
  | n + 1 =>
    match s.meter.closeWait with
    | [] => s
    | (id, why) :: t =>
      if 262144 ≤ storeUsed s then s
      else
        let s1 := closeReq id why { s with meter.closeWait := [] }
        applyCloses n { s1 with meter.closeWait := t }

/-- Change every open entry. -/
def mapOpens (f : OpenReq → OpenReq) (s : State) : State := { s with meter.opens := s.meter.opens.map f }

/-- Close every open entry with SHUTDOWN. -/
def shutAll (s : State) : State :=
  (s.meter.opens.map (fun o => o.id)).foldl (fun a id => closeReq id .shutdown a) s

/-- An accelerator is drained or powered down: its part of each request ends with SHUTDOWN (R335). -/
def shutAcc (a : Nat) (s : State) : State :=
  let bit := 1#8 <<< a
  let ids := (s.meter.opens.filter (fun o => o.mask &&& bit != 0 && o.ended &&& bit == 0)).map (fun o => o.id)
  let s1 := mapOpens (fun o =>
    if ids.contains o.id then { o with ended := o.ended ||| bit, shut := true } else o) s
  ids.foldl (fun b id =>
    if b.meter.opens.any (fun o => o.id == id && o.mask &&& ~~~o.ended == 0) then closeReq id .ended b else b) s1

/-! Intervals (R326, R330) -/

/-- Tray time rounded down to 10 µs. -/
def tenMicros (t : Nat) : Nat := t / 10000 * 10000

/-- Close the interval in progress. The means of VOLT_UV and CURR_MA are rounded down. DESIGN CHOICE. The next one starts at the 10 µs of tray time, and never at or before this one. -/
def closeInterval (s : State) : State :=
  let m := s.meter
  let n := max 1 m.samples
  let s1 := m.sumV.foldl (fun a e => wr (R.VOLT_UV e.1) (BitVec.ofInt 32 (e.2 / n)) a) s
  let s2 := m.sumI.foldl (fun a e => wr (R.CURR_MA e.1) (BitVec.ofInt 32 (e.2 / (1000 * n))) a) s1
  { s2 with
    meter.waiting := m.waiting ++ [⟨m.start, m.energy, s.time.holdover, timeUnc s⟩]
    meter.start := max (tenMicros (taiNow s)) (m.start + 10000)
    meter.energy := []
    meter.sumV := []
    meter.sumI := []
    meter.samples := 0 }

/-! What follows from the tray and its accelerators -/

/-- The strand of the standby part has ended and its rails stand: VSER, VIO and VANA are good. -/
def standbyUp (s : State) : Bool :=
  s.chip.boot != .held && s.chip.boot != .rom && s.chip.boot != .failed && !s.st.image.isEmpty && s.st.phase != 1
    && s.st.stbyMark != 0 && s.st.stbyMark ≤ s.st.journal.length

/-- Accelerators powered and not drained. -/
def accsLive (s : State) : BitVec 8 :=
  BitVec.ofNat 8 (bitsOf 8 (fun a => accPowered s a && !(accB s a).drained))

/-- Open entries close with SHUTDOWN as the tray enters SEQUENCING-DOWN, and the parts of an accelerator as it is
drained or powered down; batches that wait while the security core is down are signed DELAYED (R335, R341). -/
def settleMeter (s : State) : State :=
  let down := s.chip.tray == .sequencingDown
  let live := accsLive s
  let s1 := if down && !s.meter.downSeen then shutAll s else s
  let s2 := (List.range 8).foldl (fun a k =>
    if s.meter.accUp.getLsbD k && !live.getLsbD k then shutAcc k a else a) s1
  let s3 := { s2 with meter.downSeen := down, meter.accUp := live }
  if coreUp 0 s3 then s3
  else { s3 with meter.batches := s3.meter.batches.map (fun b =>
    if b.closed && b.record.isEmpty then { b with delayed := true } else b) }

end Sys2Proof.Machine
end

