-- ==== Sys2Proof/Machine/Trips.lean ====
section
/-! DEFINITION. What a hardware trip and an AON trip do at once (R21, R23, R310, R382, R383), and the loss of the
VCORE islands.
Log entries coded here: 34 (DEDUCED), 35 (DEDUCED), 244 (DEDUCED), 261 (DEDUCED). -/

namespace Sys2Proof.Machine

/-- VCORE is ON: the rail that the image marks. -/
def vcoreOn (s : State) : Bool :=
  (presentRails s.st.image).any (fun r => railIsVcore s.st.image r && (rail s r).st == .on)

/-- VCORE still stands: ON, or not yet disabled. -/
def vcoreStands (s : State) : Bool :=
  (presentRails s.st.image).any (fun r => railIsVcore s.st.image r && ((rail s r).st == .on || (rail s r).driven))

/-- Every VCORE island loses its supply: clusters, MEM, the data plane, and with them the control cores and the lines of
the host-line cache (R23, R108, R211). -/
def coreIslandsOff (s : State) : State :=
  let s1 := memPowerDown (pressLost s)
  { s1 with
    chip.islands := s1.chip.islands &&& ~~~(0x2000FF8#26)
    chip.draining := s1.chip.draining &&& ~~~(0x2000FF8#26)
    aon.coreDown := s1.aon.coreDown ||| 0x7F8#11
    su.hlc := [] }

/-- Data of a trip event: the zone and the readings of its sensors (R469). -/
def tripData (s : State) (z : Nat) : Bytes :=
  leBytes 1 z ++ (zoneSensors z).flatMap (fun n => leBytes 2 (field16 (roRead s n)))

/-- Work of the rails that a trip ends: strands stop at their current stitch, the reverse sequence halts where it
stands, and isolations go on (R310). -/
def haltSequences (s : State) : State :=
  let s1 := stopStrands s
  { s1 with
    st.downs := s1.st.downs.filter (fun d => d.why != .reverse)
    st.slotUp := []
    st.slotWait := []
    st.accWait := []
    st.slotDown := []
    st.phase := if s1.st.phase = 2 || s1.st.phase = 3 then 0 else s1.st.phase }

/-- The islands that a trip powers down: VCORE islands, A ports and seams (R23). -/
def tripIslands (s : State) : State :=
  (List.range 12).foldl (fun a k => portPowerDown k a) (coreIslandsOff s)

/-- A hardware trip (R21, R23, R382). An attempt under probation that it interrupts has failed (R487). -/
def hwTrip (z : Nat) (s : State) : State :=
  if s.chip.tripForce || s.chip.tray = .off then s
  else
    let s1 := raise 1 1 z (tripData s z) s
    let s2 := haltSequences
      { s1 with chip.tripKind := 1, chip.tripFrom := s1.chip.tray, chip.tripForce := true,
                chip.offWhileTripped := false, heat.coolSince := none, heat.zoneLast := z }
    setOutputs (tripIslands (setTray .tripped (judgeAttempt false s2)))

/-- An AON trip (R21, R22, R310, R383): it takes precedence over a hardware trip in force; the reverse sequence runs
over the whole journal, open requests close with SHUTDOWN, and no on order is remembered. -/
def aonTrip (z : Nat) (s : State) : State :=
  if s.chip.tray = .off || s.st.phase = 4 then s
  else
    let s1 := raise 1 2 z (tripData s z) s
    let s2 := haltSequences
      { s1 with chip.tripKind := 2, chip.tripFrom := s1.chip.tray, chip.tripForce := true, chip.onHeld := false,
                chip.offWhileTripped := false, heat.coolSince := none, heat.zoneLast := z }
    let s3 := if s2.chip.tray = .tripped then s2 else tripIslands (setTray .tripped (judgeAttempt false s2))
    let s4 := shutAll { setOutputs s3 with st.seqFailed := false, st.noFallSeen := false, st.fallsChecked := false, st.hswEn := false }
    let s5 := if s4.st.pfailMode then cutShort (setBits R.ST_FAULT 0x10 s4) else s4
    { s5 with st.phase := 4, st.downs := s5.st.downs ++ [{ why := .aonReverse, rails := [] }] }

end Sys2Proof.Machine
end

