-- ==== Sys2Proof/Machine/FwOps.lean ====
section
/-! DEFINITION. Operations on cores and firmware (14): images and their verification, stops and restarts, activations,
the emergency latches, starch limits, and refused accesses.
Log entries coded here: 196 (DEDUCED), 197 (DEDUCED), 212 (DEDUCED), 214 (DEDUCED), 275 (DEDUCED), 277 (DEDUCED). -/

namespace Sys2Proof.Machine

/-! Images (R433 to R437) -/

/-- The image class of a core (R424). -/
def coreClass (k : Nat) : Nat := if k ≤ 2 then k else 3

/-- The cores of a class. -/
def classCores (c : Nat) : List Nat := if c ≤ 2 then [c] else [3, 4, 5, 6, 7, 8, 9, 10]

/-- What the AON island keeps of core k. -/
def coreSt (s : State) (k : Nat) : CoreSt := s.aon.cores.get {} k

/-- Change it. -/
def setCore (k : Nat) (f : CoreSt → CoreSt) (s : State) : State :=
  { s with aon.cores := SMap.upd {} s.aon.cores k f }

/-- The image of a class in a slot (R434). -/
def fwImage (s : State) (cls slot : Nat) : Bytes := s.flash.get [] (2 * cls + slot)

/-- SVN and body length of an image. -/
def fwSvn (img : Bytes) : Nat := leAt img 8 4
def fwLen (img : Bytes) : Nat := leAt img 12 4

/-- The bytes that the measurement is taken of: header and body. -/
def fwWhole (img : Bytes) : Bytes := img.take (256 + fwLen img)

/-- SVN floor of a class (R435, R441). -/
def svnFloor (s : State) (cls : Nat) : Nat := max (Config.svnFactory cls) (s.aon.svnFloor.get 0 cls)

/-- An image verifies for a class (R433, R435). -/
def fwVerifies (s : State) (cls : Nat) (img : Bytes) : Bool :=
  256 + fwLen img ≤ img.length && 1 ≤ fwLen img && fwLen img ≤ 16776960
    && leAt img 0 4 == 0x474D4954 && leAt img 4 1 == 1 && leAt img 5 1 == cls && leAt img 24 4 == chipId
    && leAt img 6 1 < 4 && !Config.vendorRevoked (leAt img 6 1)
    && Config.edVerify (Config.vendorKey (leAt img 6 1)) (img.take 192) (slice img 192 64)
    && slice img 32 64 == sha512 (slice img 256 (fwLen img))
    && svnFloor s cls ≤ fwSvn img

/-- The slot from which a core runs. -/
def runningSlot (s : State) (k : Nat) : Nat :=
  let c := coreSt s k
  if c.fallback then 1 - c.slot else c.slot

/-- Load core k's image: from its active slot, else from the other one, else none and the core is held; each failed
verification records a Keep event (R436, R437). -/
def loadCore (k : Nat) (s : State) : State :=
  let cls := coreClass k
  let a := (coreSt s k).slot
  let img := fwImage s cls a
  if fwVerifies s cls img then setCore k (fun c => { c with image := fwWhole img, fallback := false }) s
  else
    let s1 := raise 11 3 k [] s
    let other := fwImage s cls (1 - a)
    if fwVerifies s cls other then setCore k (fun c => { c with image := fwWhole other, fallback := true }) s1
    else
      let s2 := raise 11 3 k [] (setCore k (fun c => { c with image := [], fallback := false }) s1)
      { s2 with aon.coreHeld := s2.aon.coreHeld ||| (1#11 <<< k) }

/-- Load the class 3 image for the control cores: verified once for all of them where they share their slots (R433,
R436). -/
def loadControls (s : State) : State :=
  let s1 := loadCore 3 s
  [4, 5, 6, 7, 8, 9, 10].foldl (fun a k =>
    if (coreSt a k).slot = (coreSt a 3).slot then
      let b := setCore k (fun c => { c with image := (coreSt a 3).image, fallback := (coreSt a 3).fallback }) a
      if (coreSt a 3).image.isEmpty then { b with aon.coreHeld := b.aon.coreHeld ||| (1#11 <<< k) } else b
    else loadCore k a) s1

/-! Stops and restarts (R427 to R431, R441) -/

/-- Causes of CORE_INFO. -/
abbrev Stop.WATCHDOG : Nat := 1
abbrev Stop.EXCEPTION : Nat := 2
abbrev Stop.MEMORY : Nat := 3
abbrev Stop.PIN : Nat := 4
abbrev Stop.ORDER : Nat := 5
abbrev Stop.ACTIVATION : Nat := 6
abbrev Stop.REVERT : Nat := 7

/-- Stops of the last 60 s (R430). -/
def recentStops (s : State) (c : CoreSt) : List Nat := c.stops.filter (fun t => now s < t + 60000)

/-- The activation of a core is on probation (R441). -/
def onProbation (s : State) (c : CoreSt) : Bool :=
  match c.activatedAt with
  | some t => now s < t + 60000
  | none => false

/-- CORE_INFO as it reads (R460). -/
def coreInfoWord (s : State) (k : Nat) : W32 :=
  let c := coreSt s k
  BitVec.ofNat 32 (c.cause * 2 ^ 24 + min 3 (recentStops s c).length * 65536 + 256 * b2n (onProbation s c)
    + 2 * b2n c.fallback + c.slot)

/-- WDG_MS as it acts (R460). -/
def coreWdgMs (s : State) : Nat := max 1 (min 100 (rdFld s R.CORE_WDG 7 0))

/-- A control core's cluster feels the stop of its core (R98). -/
def clusterFeels (k : Nat) (s : State) : State := if 3 ≤ k then ctlStops (k - 3) s else s

/-- The AON island halts a core: CORE_DOWN, the cause, one event (R427). -/
def haltCore (k cause : Nat) (s : State) : State :=
  let s1 := coreDownSet k (setCore k (fun c => { c with cause := cause }) s)
  clusterFeels k (raise 11 1 k (regData (coreInfoWord s1 k)) s1)

/-- A stop that counts towards STOPS: at three within 60 s the core is held (R430). -/
def countStop (k : Nat) (s : State) : State :=
  if k = 0 then s
  else
    let s1 := setCore k (fun c => { c with stops := recentStops s c ++ [now s] }) s
    if 3 ≤ (recentStops s1 (coreSt s1 k)).length then
      raise 11 2 k (regData (coreInfoWord s1 k)) { s1 with aon.coreHeld := s1.aon.coreHeld ||| (1#11 <<< k) }
    else s1

/-- A core stops. A second stop within its probation makes the previous slot active again; the two count once (R430,
R441). -/
def stopCore (k cause : Nat) (counted : Bool) (s : State) : State :=
  let c := coreSt s k
  if onProbation s c && 1 ≤ c.probStops then
    let s1 := haltCore k Stop.REVERT
      (setCore k (fun c => { c with slot := c.prevSlot, activatedAt := none, probStops := 0, image := [],
                                    fallback := false }) s)
    raise 11 4 k [] s1
  else
    let s1 := haltCore k cause (setCore k (fun c => { c with probStops := c.probStops + 1 }) s)
    if counted then countStop k s1 else s1

/-- An access that no window admits: refused, captured, its master pinned; a pinned core stops (R427, R453, R454). -/
def refuseAccess (m a n : Nat) (write : Bool) (s : State) : State :=
  let s1 := violate m a n write s
  if m ≤ 10 && !isPinned s m && isPinned s1 m then stopCore m Stop.PIN false s1 else s1

/-- An interrupted order of a core that runs again: DONE if it had reached its commit point, otherwise FAULT, REASON 1
(R268). Long orders that are accepted go on. -/
def answerInterrupted (k : Nat) (s : State) : State :=
  let m := mbox s k
  if m.st = .executing && !s.longs.any (fun l => l.hold && l.mb == k) then
    (if m.committed then reply k St.DONE [] s else replyFail k St.FAULT noDetail 1 s)
  else s

/-- A core may restart (R429, R430, R454): stopped, not held, not pinned, its island powered, the security core up. -/
def mayRestart (s : State) (k : Nat) : Bool :=
  !coreUp k s && !s.aon.coreHeld.getLsbD k && !isPinned s k && (k == 0 || coreUp 0 s)
    && (if k ≤ 2 then islandOn k s else (cluster s (k - 3)).st != .off) && (s.chip.boot == .firmware || s.chip.boot == .complete)

/-- The core runs: its bit clears and its watchdog starts (R429). -/
def coreRuns (k : Nat) (s : State) : State :=
  let s1 := setCore k (fun c => { c with kick := now s })
    { s with aon.coreDown := s.aon.coreDown &&& ~~~(1#11 <<< k) }
  let s2 := answerInterrupted k s1
  if 3 ≤ k then ctlRuns (k - 3) s2 else s2

/-! Emergency latches and activations (R439, R440) -/

/-- Some leak zone is in leak response, warn-and-throttle apart (R440). -/
def leakResponse (s : State) : Bool := s.heat.loops.any (fun e => e.2.raised.isSome)

/-- PFAIL_N as the AON island takes it: low also while VSTBY lies below its threshold (R500, R503). -/
def pfailLow (s : State) : Bool := s.chip.pfailPin || s.chip.vstbyBad

/-- EMERG (R440). -/
def emergLatches (s : State) : Nat :=
  b2n s.chip.tripForce + 2 * b2n (pfailLow s || stPhase s == 5 || s.chip.tray == .sequencingDown)
    + 4 * b2n (leakResponse s) + 8 * b2n s.chip.rackThrottle

/-- A core of a mask that an activation can restart: not held, not pinned, and with its island powered. Another one starts
from the new slot when it next starts. -/
def activates (s : State) (k : Nat) : Bool :=
  !s.aon.coreHeld.getLsbD k && !isPinned s k && (k ≤ 2 || (cluster s (k - 3)).st != .off)

/-- The next core of an activation, in descending index (R439). -/
def nextCore (s : State) (mask : Nat) : Option Nat :=
  [10, 9, 8, 7, 6, 5, 4, 3, 2, 1, 0].find? (fun k => mask.testBit k && activates s k)

/-- PEND_ACT's cores and the ones being restarted end with a final status. -/
def endActivation (st : Nat) (s : State) : State :=
  finishLong .fwActivate st (if st = St.DONE then [] else detail noDetail 0) { s with aon.acting := none, aon.pendAct := none }

/-- The activation goes on: the next core stops; with none left the order ends (R439). -/
def activationGoes (a : Activation) (s : State) : State :=
  match nextCore s a.mask with
  | none => endActivation St.DONE s
  | some k =>
    stopCore k Stop.ACTIVATION false
      (setCore k (fun c => { c with activatedAt := none, probStops := 0, image := [] }) { s with aon.acting := some a })

/-- The cores of a mask take a slot as their active one: written before the first stop (R439), and not again where the latches held
the activation up half-way. A core that does not run
loads from the new slot when it starts. -/
def takeSlots (slot mask : Nat) (s : State) : State :=
  (List.range 11).foldl (fun a k =>
    if mask.testBit k then
      setCore k (fun c => { c with prevSlot := if c.slot = slot then c.prevSlot else c.slot, slot := slot,
                                   image := if 3 ≤ k && (cluster a (k - 3)).st == .off && !c.image.isEmpty
                                     then fwWhole (fwImage a 3 slot) else c.image,
                                   fallback := if coreUp k a then c.fallback else false }) a
    else a) s

/-- Start an activation (R439). -/
def startActivation (a : Activation) (s : State) : State :=
  activationGoes a (takeSlots a.slot a.mask { s with aon.pendAct := none })

/-- A core of an activation runs from its new slot: probation begins, and the next one stops, or waits for the latches
(R439 to R441, 14). -/
def activationStep (k : Nat) (s : State) : State :=
  match s.aon.acting with
  | none => s
  | some a =>
    if a.mask.testBit k then
      let b := { a with mask := a.mask - 2 ^ k }
      let s1 := setCore k (fun c => { c with activatedAt := some (now s), probStops := 0 }) { s with aon.acting := some b }
      if (nextCore s1 b.mask).isSome && emergLatches s1 ≠ 0 then { s1 with aon.acting := none, aon.pendAct := some b }
      else activationGoes b s1
    else s

/-! Starch limits (R442 to R444) -/

/-- The VCORE limit is written to the regulator through the gate: VOUT_COMMAND in mV (R443). -/
def writeVcoreLimit (s : State) : State :=
  match (presentRails s.st.image).find? (railIsVcore s.st.image) with
  | none => s
  | some r =>
    if railHasPmbus s.st.image r then
      twEngine (railPmPort s.st.image r)
        { what := .gate, addr := railPmAddr s.st.image r,
          w := (if railPmPage s.st.image r = 0xFF then [] else leBytes 2 (railPmPage s.st.image r * 256))
            ++ 0x21#8 :: leBytes 2 s.aon.vcoreEff }
        { s with aon.setMv := s.aon.vcoreEff }
    else s

/-- Lower limits; 0 leaves one unchanged and none is raised. A set-point above a new VCORE limit is capped, written and
released later (R442, R444). -/
def tighten (vcore iclk tj : Nat) (s : State) : State :=
  let low (x old : Nat) : Nat := if x = 0 then old else min x old
  let s1 := { s with aon.vcoreEff := low vcore s.aon.vcoreEff, aon.iclkEff := low iclk s.aon.iclkEff,
                     aon.tjEff := low tj s.aon.tjEff }
  if s1.aon = s.aon then s
  else
    let s2 := raise 11 6 noInst [] s1
    if s2.aon.vcoreEff < s2.aon.setMv then writeVcoreLimit { s2 with aon.vcoreCap := true } else s2

/-- A limit lies within its range, or is 0 (R442). -/
def starchRange (vcore iclk tj : Nat) : Bool :=
  (vcore == 0 || (600 ≤ vcore && vcore ≤ 900)) && (iclk == 0 || (400 ≤ iclk && iclk ≤ 1600 && iclk % 25 == 0))
    && (tj == 0 || (90 ≤ tj && tj ≤ 120))

/-- Some effective limit is below its manufacture value. -/
def tightened (s : State) : Bool := s.aon.vcoreEff < 900 || s.aon.iclkEff < 1600 || s.aon.tjEff < 120

end Sys2Proof.Machine
end

