-- ==== Sys2Proof/Machine/PlanExec.lean ====
section
/-! DEFINITION. Running a plan: what each stage of a phase computes from its tensors and streams (R117, R123 to
R136), what it stores, and the binding of the next phase.
Log entries coded here: 44 (DEDUCED), 62 (DEDUCED), 63 (DESIGN CHOICE), 64 (DEDUCED), 134 (DESIGN CHOICE), 223
(DEDUCED), 224 (DEDUCED). -/

namespace Sys2Proof.Machine

/-! Bytes of tensors -/

/-- A byte that a stage of cluster c's plan reads at a device address. A byte of a word with POISON is not stated (R201). Register space is read as the words that
`PressRun` has fetched for the plan; the scheduler core's engines (c = 8) read it as the words stored. -/
def regionByte (s : State) (c a : Nat) : Byte :=
  match placeOf s a 1 with
  | .dram d => if (badWords s d 1).isEmpty then dramByte s d else BitVec.ofNat 8 (Config.unstated 201 d)
  | .sram off => s.press.sram.get 0 off
  | .reg off =>
    if c < 8 then s.press.ext.get 0 (extKey c a) else BitVec.ofNat 8 (rdN s (off / 4 * 4) / 256 ^ (off % 4))
  | .work off => s.assure.work.get 0 off
  | .none => 0
  | _ => s.press.ext.get 0 (extKey c a)

/-- Bytes of a range as the scheduler core's engines have read them. -/
def regionBytes (s : State) (addr n : Nat) : Bytes := (List.range n).map (fun i => regionByte s 8 (addr + i))

/-- The device address of a byte of a scratch tensor (R143). -/
def Plan.scratchAddr (p : Plan) (i off : Nat) : Option Nat :=
  (p.parts.find? (fun q => q.tensor == i && q.off ≤ off && off < q.off + q.len)).map (fun q => q.addr + (off - q.off))

/-- A byte of a scratch tensor; an unwritten one is undefined (R122). -/
def scratchByte (s : State) (p : Plan) (i off : Nat) : Byte :=
  if p.wrote.get false (extKey i off) then
    match p.scratchAddr i off with
    | some a => regionByte s p.home a
    | none => 0
  else Config.unwrittenByte i off

/-- Tensor i of a plan. Scales of a scratch tensor follow its elements. -/
def planTensor (s : State) (p : Plan) (i : Nat) : TData :=
  let d := tensorDesc p.image i
  if d.fixed then readTensor d (fun o => regionByte s p.home (d.addr + o)) (fun o => regionByte s p.home (d.saddr + o))
  else readTensor d (scratchByte s p i) (fun o => scratchByte s p i (d.span + o))

/-- Bytes with consecutive addresses joined. -/
def runsOf (ws : List (Nat × Byte)) (cur : Option (Nat × Bytes)) : List (Nat × Bytes) :=
  match ws, cur with
  | [], none => []
  | [], some c => [c]
  | w :: t, none => runsOf t (some (w.1, [w.2]))
  | w :: t, some c =>
    if w.1 = c.1 + c.2.length && w.1 % 4096 != 0 then runsOf t (some (c.1, c.2 ++ [w.2]))
    else c :: runsOf t (some (w.1, [w.2]))

/-- The bytes of a tensor at the device addresses of its descriptor, elements and then scales. -/
def Plan.tensorBytesAt (p : Plan) (i : Nat) (t : TData) : List (Nat × Byte) :=
  let d := tensorDesc p.image i
  let ws := tensorWrites d t
  let ss := if d.scale = 12 then (t.scales.zipIdx).map (fun x => (x.2, BitVec.ofNat 8 x.1)) else []
  if d.fixed then ws.map (fun w => (d.addr + w.1, w.2)) ++ ss.map (fun w => (d.saddr + w.1, w.2))
  else (ws ++ ss.map (fun w => (d.span + w.1, w.2))).filterMap (fun w => (p.scratchAddr i w.1).map (fun a => (a, w.2)))

/-- The offsets of a scratch tensor that writing it covers. -/
def scratchOffsets (d : TDesc) (t : TData) : List Nat :=
  (tensorWrites d t).map (fun w => w.1) ++ (if d.scale = 12 then (List.range t.scales.length).map (fun o => d.span + o) else [])

/-- Write a tensor's elements and scales by the load/store agent of global iron g. -/
def storeTensor (id g i : Nat) (t : TData) (s : State) : State :=
  match planOf s id with
  | none => s
  | some p =>
    let d := tensorDesc p.image i
    let s1 := (runsOf (p.tensorBytesAt i t) none).foldl (fun a r => pressWrite p.home (15 + g / 24) r.1 r.2 a) s
    if d.fixed then s1
    else setPlan id (fun q => { q with
      wrote := (scratchOffsets d t).foldl (fun m o => SMap.set false m (extKey i o) true) q.wrote }) s1

/-! Raw words in memory: one slot of the last extent's bytes for each partial or state -/

/-- Raw bytes cut at the end of each partial or state. -/
def rawParts (fuel fmt head : Nat) (bs : Bytes) : List Bytes :=
  match fuel with
  | 0 => []
  | k + 1 =>
    if bs.isEmpty then []
    else
      let rest := if fmt = 0x80 then (readPartial (bs.length / 32 + 1) bs {} 0).2.2 else (readState head bs).2
      bs.take (bs.length - rest.length) :: rawParts k fmt head rest

/-- A raw tensor as the bytes of its memory descriptor: each part at the start of its slot, zeros after it. -/
def rawToMem (sh : Shape) (t : TData) : TData :=
  let slot := lastExt sh.ext
  let parts := rawParts (t.elems.length / 32 + 1) t.shape.fmt (t.shape.ext.getD 1 0) (tensorBytes t)
  ⟨sh, (parts.flatMap (fix slot)).map (fun b => b.toNat), []⟩

/-- The parts of one piece read back from memory slots. -/
def memToRaw (fmt head slot : Nat) (ext : List Nat) (bs : Bytes) : TData :=
  let one (b : Bytes) : Bytes :=
    let rest := if fmt = 0x80 then (readPartial (b.length / 32 + 1) b {} 0).2.2 else (readState head b).2
    b.take (b.length - rest.length)
  rawTensor fmt ext ((chunksOf (bs.length + 1) (max slot 1) bs).flatMap one)

/-- The pieces of a MERGE that come from one direct tensor: slices along its first dimension. -/
def slicesOf (t : TData) : List TData :=
  let n := t.shape.ext.headD 0
  let sh := t.shape.ext.drop 1
  let m := extCount sh
  (List.range n).map (fun i => ⟨⟨t.shape.fmt, false, sh⟩, (t.elems.drop (m * i)).take m, []⟩)

/-- Pieces of a MERGE stage. -/
def mergePieces (kind head count : Nat) (ins : List TData) : List TData :=
  match ins with
  | [t] =>
    if count ≤ 1 then ins
    else if t.shape.fmt = 10 && (kind = 0 || kind = 3) then
      (slicesOf t).map (fun p =>
        memToRaw (if kind = 0 then 0x80 else 0x81) head (lastExt p.shape.ext)
          (if kind = 0 then p.shape.ext.dropLast else [extCount p.shape.ext.dropLast, head]) (tensorBytes p))
    else slicesOf t
  | _ => ins

/-! One stage -/

/-- INT32 elements as indices; a negative one names no element. -/
def indexList (t : TData) : List Nat := t.elems.map (fun x => if x < 2 ^ 31 then x else 2 ^ 32)

/-- The parameters of a MATMUL (R124). -/
def StageRec.mat (k : StageRec) : MatParam :=
  let o := k.par 3 1
  ⟨k.par 0 1, k.par 1 1, k.par 2 1, o.testBit 0, o.testBit 1, o.testBit 3, o.testBit 4, k.par 4 4, k.par 8 4, k.par 12 4, k.par 20 4⟩

/-- Columns of an N tile (R73). -/
def StageRec.tile (k : StageRec) : Nat :=
  let names (f : Nat) : Bool := k.par 0 1 == f || k.par 1 1 == f
  if names 8 then 16 else if names 6 || names 7 then 32 else 64

/-- The program and the port formats of a MICRO stage (R134). -/
def StageRec.prog (k : StageRec) (img : Bytes) : List Nat :=
  (List.range (k.par 4 2)).map (fun i => leAt img (offMicro img + k.par 0 4 + 8 * i) 8)
def StageRec.microOuts (k : StageRec) : List Nat := (List.range 4).map (fun q => k.par (16 + q) 1)

/-- An input of no elements, for a port that nothing feeds. -/
def emptyInput : TData := ⟨⟨8, false, [0]⟩, [], []⟩

/-- Attention parameters of a stage (R126). -/
def StageRec.attn (k : StageRec) : AttnParam :=
  ⟨k.par 2 2, k.par 4 4, k.par 8 1, k.par 10 2, k.par 14 2, k.par 16 4, k.par 20 4, k.par 24 4⟩

/-- What a stage computes from its inputs; `tens` reads a tensor by index, `want` is the shape asked of OUT0, `dest`
the old contents of OUT0's tensor; a scatter onto a stream has no old contents, and what it leaves unwritten is free. None: the plan ends with FAULT. -/
def runStage (img : Bytes) (k : StageRec) (ins : List (Option TData)) (tens : Nat → TData) (want : Option (List Nat))
    (dest : Option TData) : Option StageOut :=
  let p := k.par
  let xs := ins.filterMap id
  let a := (ins.getD 0 none).getD ⟨⟨10, false, [0]⟩, [], []⟩
  let b := ins.getD 1 none
  let c := ins.getD 2 none
  let b' := b.getD a
  match k.kind with
  | 1 => some ⟨[if p 0 1 = 1 then gatherT 0 (indexList (tens (p 2 2))) a else a], 0⟩
  | 2 => some ⟨[a], 0⟩
  | 3 =>
    some (matmul k.mat a b' c)
  | 4 => some (reduceTensor (p 0 1) (p 1 1) (p 3 1) (p 4 1 == 1) a)
  | 5 => some (eltwise (p 0 2) (p 5 1) (p 8 4) (if p 0 2 = 0xD then fmtInt (p 4 1) else fmtInt (p 2 1)) a b c)
  | 6 => some (convertTensor (p 1 1) (p 2 1 == 12) a)
  | 7 =>
    match p 0 1 with
    | 0 => some ⟨[transposeT (p 1 1) (p 2 1) a], 0⟩
    | 1 => some ⟨[gatherT (p 1 1) (indexList (tens (p 4 2))) a], 0⟩
    | 2 => some ⟨[scatterT (p 1 1) (indexList (tens (p 4 2))) a (dest.getD (freeTensor a.shape.fmt a.shape.scaled (want.getD a.shape.ext)))], 0⟩
    | 3 => some ⟨[concatT (p 1 1) xs], 0⟩
    | _ =>
      let n := a.shape.ext.getD (p 1 1) 0 / max (p 3 1) 1
      some ⟨splitT (p 1 1) (List.replicate (p 3 1) n) a, 0⟩
  | 8 =>
    let sh : Shape := ⟨p 25 1, false, want.getD []⟩
    some (outOf sh ((List.range (extCount sh.ext)).map
      (randomElem (p 0 4) (p 4 4) [p 8 4, p 12 4, p 16 4, p 20 4] (p 24 1) (p 25 1) (p 28 4))))
  | 9 => some (attnScore k.attn a b' (if p 8 1 = 2 then some (tens (p 12 2)) else none))
  | 10 =>
    some (attnAccum k.attn (p 33 1) (p 34 1 == 1) a b' (c.getD a) ((ins.getD 3 none).getD a)
      (if p 8 1 = 2 then some (tens (p 12 2)) else none))
  | 11 => some ⟨[byteTensor (tensorDigest a)], 0⟩
  | 12 =>
    let mode : CmpMode := match p 0 1 with
      | 0 => .bitexact
      | 1 => .ulp (p 2 2)
      | _ => .digest
    some ⟨[byteTensor (compareRecord mode (compareTensors mode a b'))], 0⟩
  | 13 =>
    some (microStage (p 8 4) (ins.map (fun x => x.getD emptyInput)) k.microOuts (k.prog img))
  | _ => mergeTensors (p 0 1) (p 1 1) (p 4 2) (mergePieces (p 0 1) (p 4 2) (p 2 2) xs)

/-- The SRAM data range of an iron, in the alias of R27. -/
def ironSram (p : Plan) (pos off : Nat) : Nat := (24 * ((p.home + pos / 24) % 8) + pos % 24) * 0x300000 + off

/-- A tensor as packed bytes with its scales after them, as a LOAD or STORE keeps it in an SRAM range. -/
def sramBytes (t : TData) : Bytes := packElems t.shape.fmt t.elems ++ t.scales.map (BitVec.ofNat 8)

/-- What an SRAM range holds, in a tensor's shape. -/
def sramTensor (s : State) (a : Nat) (d : TDesc) : TData :=
  let n := extCount d.ext
  let len := packedBytes d.fmt n
  ⟨d.shape, unpackElems d.fmt n ((List.range len).map (fun i => s.press.sram.get 0 (a + i))),
   (List.range d.scaleCount).map (fun i => (s.press.sram.get 0 (a + len + i)).toNat)⟩

/-- Evaluation of a phase: the state so far, what each stage delivered, and whether the plan must end with FAULT. -/
structure PhaseRun where
  st : State
  outs : List (Nat × List TData)
  failed : Bool

/-- What a port of a stage is fed, given what the stages before it delivered. -/
def portInput (s : State) (p : Plan) (outs : List (Nat × List TData)) (r : Ref) : Option TData :=
  match r with
  | .unused => none
  | .tensor t => some (planTensor s p t)
  | .stream n =>
    let sr := streamRec p.image n
    (outs.find? (fun o => o.1 == sr.prod)).bind (fun o => o.2[sr.outPort]?)

/-- Where a stage's SRAM range begins, in the alias. -/
def Plan.sramOf (p : Plan) (i : Nat) : Nat := ironSram p (p.posOf i) ((stageRec p.image i).par 4 4)

/-- All inputs of stage i: a STORE from an SRAM range reads the range. -/
def stageInputs (s : State) (p : Plan) (outs : List (Nat × List TData)) (i : Nat) : List (Option TData) :=
  let k := stageRec p.image i
  if k.kind = 2 && k.par 0 1 = 1 then
    (match k.outRef 0 with
     | .tensor t => [some (sramTensor s (p.sramOf i) (tensorDesc p.image t))]
     | _ => [])
  else (List.range 4).map (fun q => portInput s p outs (k.inRef q))

/-- Words of 32 bytes that carry a tensor on a stream. -/
def streamWords (t : TData) : Nat := ((if 0x80 ≤ t.shape.fmt then t.elems.length else (sramBytes t).length) + 31) / 32

/-- The iron of a stage that has completed its last beat: flags, beats, stream cursors (R97), and what the stage leaves in the
MAC array and the vector unit (R75, R135). -/
def ironDone (img : Bytes) (k : StageRec) (ins : List (Option TData)) (o : StageOut) (x : Iron) : Iron :=
  let a := (ins.getD 0 none).getD emptyInput
  let b := (ins.getD 1 none).getD emptyInput
  let m := microEnd (k.par 8 4) (ins.map (fun x => x.getD emptyInput)) k.microOuts (k.prog img)
  { x with
    st := .bound, flags := x.flags ||| o.flags, beat := x.beats
    inCur := ins.map (fun t => (t.map streamWords).getD 0)
    outCur := o.outs.map streamWords
    accs := if k.kind = 3 && !isTree (k.par 0 1) (k.par 1 1) then accFiles k.mat a b k.tile else x.accs
    vregs := if k.kind = 13 then m.regs else x.vregs
    norms := if k.kind = 13 then m.accs else x.norms }

/-- Run stage i. -/
def runOne (id : Nat) (r : PhaseRun) (i : Nat) : PhaseRun :=
  match planOf r.st id with
  | none => r
  | some p =>
    if r.failed then r
    else
      let img := p.image
      let k := stageRec img i
      let dest := match k.outRef 0 with
        | .tensor t => some (planTensor r.st p t)
        | _ => none
      let ins := stageInputs r.st p r.outs i
      match runStage img k ins (planTensor r.st p) (wantedOf img k) dest with
      | none => { r with failed := true }
      | some o =>
        let s1 := setIron (p.ironOf i) (ironDone img k ins o) r.st
        let rep := if p.isSelf && (k.kind = 11 || k.kind = 12 || (k.kind = 3 && p.isReplay)) then
            [(i, o.outs ++ ins.filterMap (fun x => x))] else []
        let s2 := setPlan id (fun q => { q with
          flags := q.flags ||| o.flags, stagesDone := q.stagesDone + 1
          reports := q.reports.filter (fun x => x.1 != i) ++ rep }) s1
        let s3 := p.clusters.foldl (fun a c => setCl c (fun x => { x with flagsAny := x.flagsAny ||| o.flags }) a) s2
        let s4 := if k.kind = 1 && k.par 1 1 = 1 then
            { s3 with press.sram := writeMap s3.press.sram (p.sramOf i) (sramBytes (o.outs.headD emptyInput)) } else s3
        let s5 := (o.outs.zipIdx).foldl (fun a x => match k.outRef x.2 with
          | .tensor t =>
            let sh := (tensorDesc img t).shape
            storeTensor id (p.ironOf i) t (if 0x80 ≤ x.1.shape.fmt then rawToMem sh x.1 else { x.1 with shape := sh }) a
          | _ => a) s4
        { st := s5, outs := r.outs ++ [(i, o.outs)], failed := false }

/-- Run every stage of the current phase, producers first (R117). -/
def runPhase (id : Nat) (s : State) : PhaseRun :=
  match planOf s id with
  | none => ⟨s, [], false⟩
  | some p => (topoOrder p.image p.phase).foldl (runOne id) ⟨s, [], false⟩

/-! Binding a phase -/

/-- Blocks of a size. -/
def blocksOf (n b : Nat) : Nat := (n + b - 1) / b

/-- Rows of a shape: all dimensions but the last. -/
def shapeRows (sh : Shape) : Nat := extCount sh.ext.dropLast

/-- Beats of a stage, from its shapes (R89). Blocks and leaves count the canonical byte stream, scales included (R64); a STORE
from an SRAM range has its destination's. -/
def stageBeats (k : StageRec) (i0 o0 : Option Shape) : Nat :=
  let sh := i0.getD (o0.getD ⟨10, false, [0]⟩)
  let out := o0.getD sh
  let blocks := blocksOf (sramLen sh) 65536
  match k.kind with
  | 1 => if k.par 0 1 = 1 then out.ext.headD 1 else blocks
  | 2 => blocks
  | 3 => blocksOf (k.par 4 4) 256 * blocksOf (k.par 8 4) k.tile
  | 4 => shapeRows out
  | 5 => shapeRows out * blocksOf (lastExt out.ext) 65536
  | 6 => shapeRows out
  | 7 => blocks
  | 8 => shapeRows out
  | 9 => 1
  | 10 => 1
  | 11 => max 1 blocks
  | 12 => max 1 blocks
  | 13 => k.par 8 4
  | _ => shapeRows out

/-- Bits of the ports that a stream is bound to. -/
def boundPorts (rs : List Ref) : Nat := bitsOf 4 (fun p => match rs.getD p .unused with
  | .stream _ => true
  | _ => false)

/-- Bind one stage to its iron; its flags are cleared, the working registers of its units stand. -/
def bindStage (p : Plan) (have_ : List (Nat × List Shape)) (i : Nat) (s : State) : State :=
  let k := stageRec p.image i
  let o0 := if k.kind = 2 then refShape p.image have_ (k.outRef 0)
    else ((have_.find? (fun x => x.1 == i)).map (fun x => x.2)).bind (fun l => l.head?)
  setIron (p.ironOf i) (fun x =>
    { x.unbound with
      st := .active, flags := 0, stage := some (i, k.kind), beats := stageBeats k (refShape p.image have_ (k.inRef 0)) o0
      inBound := boundPorts ((List.range 4).map k.inRef), outBound := boundPorts ((List.range 4).map k.outRef) }) s

/-- Engines granted in all. -/
def enginesUsed (s : State) : Nat := s.press.hashUsed.foldl (fun a h => a + h.2.2) 0

/-- Grant waiting requests in order while they fit (R87). -/
def grantHash (fuel : Nat) (s : State) : State :=
  match fuel, s.press.hashWait with
  | k + 1, h :: t =>
    if enginesUsed s + h.2.2 ≤ 96 then
      grantHash k { s with press.hashUsed := s.press.hashUsed ++ [h], press.hashWait := t }
    else s
  | _, _ => s

/-! Words on the way (R91 to R93) -/

/-- The links of stream i of a phase, each once. -/
def Plan.streamLinks (p : Plan) (i : Nat) : List (Nat × Nat) :=
  let before := (streamRecs p.image).take i
  let used := before.foldl (fun u s =>
    if (stageRec p.image s.prod).phase = p.phase then (bindStream p.place u s).getD u else u) []
  ((bindStream p.place used (streamRec p.image i)).getD used).drop used.length

/-- The links of the branch that ends at a position, in order from the producer. -/
def branchTo (links : List (Nat × Nat)) (fuel pos : Nat) (acc : List (Nat × Nat)) : List (Nat × Nat) :=
  match fuel with
  | 0 => acc
  | k + 1 =>
    match links.find? (fun l => l.2 == pos) with
    | none => acc
    | some l => branchTo links k l.1 (l :: acc)

/-- Words that a branch holds downstream of a link, at two in each segment. -/
def downOf (branch : List (Nat × Nat)) (l : Nat × Nat) : Nat := 2 * (branch.length - 1 - branch.idxOf l)

/-- The least of some numbers; `d` where there are none. -/
def leastOf (d : Nat) (xs : List Nat) : Nat :=
  match xs with
  | [] => d
  | x :: t => t.foldl min x

/-- Words downstream of a link, over the waiting branches through it: none passes a fork before every branch has room. -/
def wordsPast (branches : List (List (Nat × Nat))) (l : Nat × Nat) : Nat :=
  leastOf 0 ((branches.filter (fun b => b.contains l)).map (fun b => downOf b l))

/-- The words that wait in the segment of link l, of a stream whose consumers at the ends of `branches` do not take words. -/
def segmentWords (branches : List (List (Nat × Nat))) (ws : List SWord) (l : Nat × Nat) : List SWord :=
  match branches.find? (fun b => b.contains l) with
  | none => []
  | some b =>
    let from_ := wordsPast branches l
    let lim := leastOf (from_ + 2) ((b.take (b.idxOf l)).map (wordsPast branches))
    (ws.drop from_).take (min 2 (lim - from_))

/-- Words that a producer can send while its consumers wait. -/
def wordsSent (branches : List (List (Nat × Nat))) : Nat := leastOf 0 (branches.map (fun b => 2 * b.length))

/-- The words of a tensor on a stream with their sideband bits (R91), from a stage of `beats` beats. -/
def wordsOf (t : TData) (beats : Nat) (poison : Bool) : List SWord :=
  let bs := if 0x80 ≤ t.shape.fmt then tensorBytes t else sramBytes t
  let n := (bs.length + 31) / 32
  let per := max 1 (blocksOf n (max 1 beats))
  ((chunksOf (bs.length + 1) 32 bs).zipIdx).map (fun x =>
    ⟨fix 32 x.1, x.2 % per == 0, x.2 % per + 1 == per || x.2 + 1 == n, x.2 + 1 == n, poison⟩)

/-- Key of a lane segment's buffer. -/
def laneKey (home stream seg : Nat) : Nat := home * 2 ^ 32 + stream * 2 ^ 16 + seg

/-- The buffers of stream i fill, its producer having delivered `t`, while consumers of it wait. -/
def fillStream (p : Plan) (waiting : List Nat) (outs : List (Nat × List TData)) (i : Nat) (s : State) : State :=
  let sr := streamRec p.image i
  let links := p.streamLinks i
  let late := (sr.cons.take sr.ncons).filter waiting.contains
  match (outs.find? (fun o => o.1 == sr.prod)).bind (fun o => o.2[sr.outPort]?) with
  | none => s
  | some t =>
    let branches := late.map (fun c => branchTo links links.length (p.posOf c) [])
    let g := p.ironOf sr.prod
    let ws := wordsOf t (iron s g).beats (iron s g).poison
    let n := min ws.length (wordsSent branches)
    let s1 := (links.zipIdx).foldl (fun a l =>
      { a with press.lanes := SMap.set [] a.press.lanes (laneKey p.home i l.2) (segmentWords branches ws l.1) }) s
    setIron g (fun x => { x with outCur := (List.range 4).map (fun q => if q = sr.outPort then n else x.outCur.getD q 0) }) s1

/-- Streams whose producers run and of which a consumer waits: the words sent stand in the lane segments (R93). -/
def fillLanes (id : Nat) (s : State) : State :=
  match planOf s id with
  | none => s
  | some p =>
    let waiting := stagesWaiting s p
    let ready := (topoOrder p.image p.phase).filter (fun i => !waiting.contains i)
    let full := (List.range (nStreams p.image)).filter (fun i =>
      let sr := streamRec p.image i
      ready.contains sr.prod && (sr.cons.take sr.ncons).any waiting.contains)
    if full.isEmpty then s
    else
      let outs := (ready.foldl (runOne id) ⟨s, [], false⟩).outs
      full.foldl (fun a i => fillStream p waiting outs i a) s

/-- Words that no consumer waits to take have passed: a running plan whose stages no longer wait has empty segments. -/
def drainLanes (s : State) : State :=
  { s with press.lanes := s.press.lanes.keep (fun k =>
      s.press.plans.any (fun p => p.home == k / 2 ^ 32 && p.st == .running
        && (p.stored || !(stagesWaiting s p).isEmpty || p.clusters.any (fun c => (cluster s c).st == .frozen)))) }

/-- Ask for the reads of one stage: its fixed tensors, and its scratch tensors where they lie (R84, R143). -/
def stageRequests (p : Plan) (i : Nat) (s : State) : State :=
  (stageReads p.image (stageRec p.image i)).eraseDups.foldl (fun a t =>
    (p.tensorRanges t).foldl (fun b r => ironRead p.home (p.ironOf i) r.1 r.2 b) a) s

/-- Bind the stages of a phase; DIGEST stages ask for their engines, and the load/store agents ask for every operand. -/
def startPhase (id : Nat) (s : State) : State :=
  match planOf s id with
  | none => s
  | some p =>
    let img := p.image
    let ss := phaseStages img p.phase
    let have_ := (shapesGo img (topoOrder img p.phase) []).getD []
    let s0 := p.clusters.foldl (fun a c => setIrons c Iron.unbound a) (extDrop p.home s)
    let s1 := ss.foldl (fun a i => bindStage p have_ i a) s0
    let asks := ss.filterMap (fun i => let k := stageRec img i
                                       if k.kind = 11 then some (id, i, k.par 0 1) else none)
    let s2 := grantHash 1000 { s1 with
      press.hashUsed := s1.press.hashUsed.filter (fun h => h.1 != id)
      press.hashWait := s1.press.hashWait.filter (fun h => h.1 != id) ++ asks }
    fillLanes id (ss.foldl (fun a i => stageRequests p i a) s2)

/-- The first access of the phase that lies at no address, as a whole or in part: stage and address, in stage order, the
elements of a tensor before its scales (R29, R107). -/
def phaseDecode (s : State) (p : Plan) : Option (Nat × Nat) :=
  (phaseStages p.image p.phase).findSome? (fun i =>
    let k := stageRec p.image i
    (stageReads p.image k ++ stageWrites k).findSome? (fun t =>
      let d := tensorDesc p.image t
      if d.fixed then
        d.ranges.findSome? (fun r =>
          ((piecesOf r.1 r.2).find? (fun q => placeOf s q.1 q.2 == .none)).map (fun q => (i, q.1)))
      else none))

/-- Enter a phase: a DECODE error ends the plan with FAULT, otherwise its stages are bound and run. -/
def enterPhase (id : Nat) (s : State) : State :=
  match planOf s id with
  | none => s
  | some p =>
    match phaseDecode s p with
    | some e =>
      let g := p.ironOf e.1
      endPlan id .fault 0 (latchFault (g / 24) 7 6 (g % 24) (decodeError e.2 s))
    | none => startPhase id (p.clusters.foldl (fun a c => setCl c (fun k => { k with st := .running }) a) s)

/-- The phase is over: the next one is bound, or the plan is complete (R117). -/
def nextPhase (id : Nat) (s : State) : State :=
  match planOf s id with
  | none => s
  | some p =>
    if p.phase + 1 < planPhases p.image then
      enterPhase id (setPlan id (fun q => { q with phase := q.phase + 1, stored := false }) s)
    else endPlan id .done 0 s

end Sys2Proof.Machine
end

