-- ==== Sys2Proof/Machine/AssureOps.lean ====
section
/-! DEFINITION. Operations of assurance (05): capsules and their descriptors, evidence space, sampling, bound plans, jobs,
verdicts, drains and tags.
Log entries coded here: 75 (DESIGN CHOICE), 84 (DEDUCED), 87 (DEDUCED), 88 (DEDUCED), 91 (DEDUCED), 92 (DEDUCED), 93
(DEDUCED), 101 (PRESUMED), 102 (DEDUCED), 107 (DEDUCED), 109 (DEDUCED), 221 (DEDUCED). -/

namespace Sys2Proof.Machine

/-! Fields of a capsule (R152) and of a registry entry (R158) -/

def Capsule.mode (c : Capsule) : Nat := leAt c.body 1 1
def Capsule.cmp (c : Capsule) : Nat := leAt c.body 2 1
def Capsule.nin (c : Capsule) : Nat := leAt c.body 3 1
def Capsule.ulp (c : Capsule) : Nat := leAt c.body 4 2
def Capsule.alarm (c : Capsule) : Bool := leAt c.body 6 1 != 0
def Capsule.outValid (c : Capsule) : Bool := (leAt c.body 7 1).testBit 0
def Capsule.job (c : Capsule) : Nat := leAt c.body 16 8
def Capsule.step (c : Capsule) : Nat := leAt c.body 24 8
def Capsule.graph (c : Capsule) : Bytes := slice c.body 32 64
def Capsule.outDigest (c : Capsule) : Bytes := slice c.body 96 64
def Capsule.outDesc (c : Capsule) : Bytes := slice c.body 160 112
def Capsule.inDesc (c : Capsule) (i : Nat) : Bytes := slice c.body (272 + 112 * i) 112

abbrev entGraph (e : Bytes) : Bytes := e.take 64
abbrev entAddr (e : Bytes) : Nat := leAt e 64 8
abbrev entLen (e : Bytes) : Nat := leAt e 72 4
abbrev entTra (e : Bytes) : Bool := (leAt e 76 1).testBit 0
abbrev entStale (e : Bytes) : Bool := (leAt e 76 1).testBit 1
abbrev entCapture (e : Bytes) : Bool := (leAt e 76 1).testBit 2
abbrev entNin (e : Bytes) : Nat := leAt e 77 1
abbrev entOut (e : Bytes) : Nat := leAt e 78 2
abbrev entIn (e : Bytes) (i : Nat) : Nat := leAt e (80 + 2 * i) 2
abbrev entCapT (e : Bytes) : Nat := leAt e 112 2

/-- Code of a source, as rows and plans name it: 0 to 7 accelerators, 8 + n node n. -/
def CapFrom.code (f : CapFrom) : Nat :=
  match f with
  | .acc a => a
  | .node n => 8 + n

/-- The source that a code names. -/
def srcOf (n : Nat) : CapFrom := if n < 8 then .acc n else .node (n - 8)

/-- An open capsule by source and CAPSULE_ID. -/
def capOf (s : State) (f : CapFrom) (id : Nat) : Option Capsule :=
  s.assure.caps.find? (fun c => c.src == f && c.id == id && c.st != .done)

/-- Change the entry with an order of arrival. -/
def setCap (order : Nat) (f : Capsule → Capsule) (s : State) : State :=
  { s with assure.caps := s.assure.caps.map (fun c => if c.order = order then f c else c) }

/-- The registry entry of a graph hash (R158). -/
def entryOf (s : State) (g : Bytes) : Option Bytes := s.assure.registry.find? (fun e => entGraph e == g)

/-- Entries in use for an accelerator and a mode (R154). -/
def modeCount (s : State) (a m : Nat) : Nat := (s.assure.caps.filter (fun c => c.src == .acc a && c.mode == m)).length

/-- Entries in use for work from peers (R154). -/
def peerWork (s : State) : Nat :=
  s.assure.thirds.length + (s.assure.caps.filter (fun c => match c.src with
    | .node _ => true
    | .acc _ => false)).length

/-! Agreement with the registry (R160) -/

/-- Two descriptors agree in FORMAT, RANK, SCALE and every EXTENT. -/
def descAgree (a b : TDesc) : Bool := a.fmt == b.fmt && a.rank == b.rank && a.scale == b.scale && a.ext == b.ext
  && a.spare == b.spare

/-- A capsule agrees with a registry entry whose plan image is `img` (R160). -/
def agreesWith (c : Capsule) (e img : Bytes) : Bool :=
  c.nin == entNin e
    && (List.range c.nin).all (fun i => descAgree (parseDesc (c.inDesc i)) (tensorDesc img (entIn e i)))
    && (!c.outValid || descAgree (parseDesc c.outDesc) (tensorDesc img (entOut e)))

/-- The image of an entry as the engines have read it. -/
def entImage (s : State) (e : Bytes) : Bytes := regionBytes s (entAddr e) (entLen e)

/-! Addresses of a capsule's source -/

/-- Where byte `off` of a descriptor's window lies: an accelerator's window, or the evidence of a delegating node. -/
def srcAddr (f : CapFrom) (win off : Nat) : Nat :=
  match f with
  | .acc a => accAddr a (win % 16) off
  | .node n => nodeAddr n off

/-- A descriptor moved to addresses, FIXED (R159, R167). -/
def rebase (b : Bytes) (addr saddr : Nat) : Bytes :=
  b.take 3 ++ [0x80#8] ++ slice b 4 4 ++ leBytes 8 addr ++ leBytes 8 saddr ++ b.drop 24

/-- Ranges that a descriptor names: elements, and scales. -/
def descRanges (d : TDesc) : List (Nat × Nat) :=
  (if d.span = 0 then [] else [(d.addr, d.span)]) ++ (if d.scaleCount = 0 then [] else [(d.saddr, d.scaleCount)])

/-- Every range that a capsule names is readable in its accelerator's declared windows (R220). -/
def rangesDeclared (s : State) (c : Capsule) : Bool :=
  match c.src with
  | .node _ => true
  | .acc a =>
    ((List.range c.nin).map c.inDesc ++ (if c.outValid then [c.outDesc] else [])).all (fun b =>
      (descRanges (parseDesc b)).all (fun r => windowAdmits s a (leAt b 3 1 % 16) r.1 r.2 false))

/-! Evidence space (R159, R189) -/

/-- Length rounded up to 64 bytes. -/
def up64 (n : Nat) : Nat := (n + 63) / 64 * 64

/-- Ranges of the evidence area in use. -/
def evidUsed (s : State) : List (Nat × Nat) := s.assure.caps.flatMap (fun c => c.space)

/-- The first place from `pos` on that holds n bytes between the ranges in use. -/
def firstFit (fuel pos n : Nat) (used : List (Nat × Nat)) : Nat :=
  match fuel with
  | 0 => pos
  | k + 1 =>
    match used.find? (fun u => pos < u.1 + u.2 && u.1 < pos + n) with
    | some u => firstFit k (up64 (u.1 + u.2)) n used
    | none => pos

/-- An address in the evidence area with n free bytes. -/
def evidAlloc (s : State) (n : Nat) : Option Nat :=
  let size := areaSize s R.EVID_AREA
  let base := areaBase s R.EVID_AREA
  let p := firstFit (2 * (evidUsed s).length + 1) base (max n 64) (evidUsed s)
  if size ≠ 0 && p + max n 64 ≤ base + size then some p else none

/-- Bytes of evidence that a descriptor's copy takes. -/
def copyBytes (b : Bytes) : Nat := up64 (parseDesc b).span + up64 (parseDesc b).scaleCount

/-- Places of copies one after another from an address: elements and scales of each. -/
def copyPlaces (bs : List Bytes) (at_ : Nat) : List (Nat × Nat) :=
  match bs with
  | [] => []
  | b :: t => (at_, at_ + up64 (parseDesc b).span) :: copyPlaces t (at_ + copyBytes b)

/-! Building plan images -/

/-- A stage to append: kind, inputs, outputs, parameters. -/
structure NewStage where
  kind : Nat
  ins : List Nat
  outs : List Nat
  param : Bytes
  deriving DecidableEq, Repr

/-- A stage record (R118) with no fixed placement. -/
def stageBytes (k : NewStage) (phase paramOff : Nat) : Bytes :=
  leBytes 1 k.kind ++ leBytes 1 phase ++ [0xFF#8, 0xFF#8] ++ leBytes 4 paramOff ++ leBytes 2 k.param.length ++ leBytes 2 0
    ++ (List.range 4).flatMap (fun p => leBytes 2 (k.ins.getD p 0xFFFF))
    ++ (List.range 4).flatMap (fun p => leBytes 2 (k.outs.getD p 0xFFFF)) ++ zeros 4

/-- Records of appended stages, their parameters one after another. -/
def stagesBytes (ks : List NewStage) (phase off : Nat) : Bytes :=
  match ks with
  | [] => []
  | k :: t => stageBytes k phase off ++ stagesBytes t phase (off + k.param.length)

/-- The CRC of an image recomputed (R116). -/
def withCrc (img : Bytes) : Bytes :=
  let z := img.take 56 ++ zeros 4 ++ img.drop 60
  img.take 56 ++ leBytes 4 (crc32c z).toNat ++ img.drop 60

/-- Bytes of the parameter area. -/
def paramBytes (img : Bytes) : Bytes :=
  let n := (stageRecs img).foldl (fun m k => max m (k.paramOff + k.paramLen)) 0
  slice img (offParam img) ((n + 7) / 8 * 8)

/-- An image with its tensors replaced and one final phase of stages and streams appended (R159, R167). -/
def extendPlan (img : Bytes) (tens : List Bytes) (more : List NewStage) (streams : List Bytes) : Bytes :=
  let ps := paramBytes img
  let st := slice img (offStage img) (32 * nStages img) ++ stagesBytes more (planPhases img) ps.length
  let sr := slice img (offStream img) (16 * nStreams img) ++ streams.flatten
  let te := tens.flatten
  let pa := ps ++ more.flatMap (fun k => k.param)
  let mi := slice img (offMicro img) (microLen img)
  let o1 := 64 + st.length
  let o2 := o1 + sr.length
  let o3 := o2 + te.length
  let o4 := o3 + pa.length
  let hd := img.take 10 ++ leBytes 2 (planPhases img + b2n (!more.isEmpty)) ++ leBytes 2 (nStages img + more.length)
    ++ leBytes 2 (nStreams img + streams.length) ++ leBytes 2 tens.length ++ zeros 2 ++ leBytes 4 (o4 + mi.length)
    ++ leBytes 4 64 ++ leBytes 4 o1 ++ leBytes 4 o2 ++ leBytes 4 o3 ++ leBytes 4 o4 ++ leBytes 4 mi.length
    ++ slice img 48 8 ++ zeros 8
  withCrc (hd ++ st ++ sr ++ te ++ pa ++ mi)

/-- Descriptors of an image. -/
def descList (img : Bytes) : List Bytes := (List.range (nTensors img)).map (fun i => slice img (offTensor img + 112 * i) 112)

/-- A direct tensor reference. -/
abbrev tref (i : Nat) : Nat := 32768 + i

/-- DIGEST of a tensor, on 48 engines. -/
def digestStage (inp desc : Nat) : NewStage := ⟨11, [inp], [], leBytes 1 48 ++ zeros 1 ++ leBytes 2 desc ++ zeros 4⟩

/-- The final phase with one DIGEST on a tensor (R167). -/
def digestPlan (img : Bytes) (tens : List Bytes) (outT : Nat) : Bytes :=
  extendPlan img tens [digestStage (tref outT) 0] []

/-- Descriptors of the bound plan: each input at its evidence copy (R159). -/
def boundDescs (c : Capsule) (img : Bytes) : List Bytes :=
  (descList img).zipIdx.map (fun x =>
    match (List.range c.nin).find? (fun i => entIn c.entry i == x.2) with
    | some i => let p := c.inputs.getD i (0, 0)
                let b := c.inDesc i
                rebase b p.1 (if (parseDesc b).scale = 12 then p.2 else 0)
    | none => x.1)

/-- The accelerator's output as a tensor of the bound plan. -/
def outTensor (c : Capsule) : Bytes :=
  let b := c.outDesc
  let d := parseDesc b
  let w := leAt b 3 1
  rebase b (srcAddr c.src w d.addr) (if d.scale = 12 then srcAddr c.src w d.saddr else 0)

/-- The bound plan (R159): inputs at the evidence, and the final phase: DIGEST on OUT_T; and where OUT_VALID, the output
streamed to a COMPARE and a second DIGEST. Under CMP_MODE DIGEST the COMPARE is BITEXACT and only fills the record. -/
def boundPlan (c : Capsule) (img : Bytes) : Bytes :=
  let tens := boundDescs c img
  let o := entOut c.entry
  if c.outValid then
    let n := nStages img
    let q := nStreams img
    let t := nTensors img
    let cmp : NewStage := ⟨12, [tref o, q], [], leBytes 1 (if c.cmp = 1 then 1 else 0) ++ zeros 1 ++ leBytes 2 c.ulp
      ++ leBytes 2 o ++ zeros 10⟩
    extendPlan img (tens ++ [outTensor c]) [digestStage (tref o) 0, ⟨1, [tref t], [q], zeros 16⟩, cmp, digestStage q t]
      [leBytes 2 (n + 1) ++ [0#8, 2#8] ++ leBytes 2 (n + 2) ++ leBytes 2 (n + 3) ++ leBytes 2 0xFFFF ++ leBytes 2 0xFFFF
        ++ [1#8, 0#8, 0xFF#8, 0xFF#8]]
  else digestPlan img tens o

/-! Submitting a plan of the TAL8 itself -/

/-- A plan of the TAL8 itself enters the scheduler core's list. -/
def submitSelf (o : PlanOwner) (cls addr len : Nat) (home : Option Nat) (s : State) : State :=
  { s with press.plans := s.press.plans ++ [{ id := s.press.nextPlan, owner := o, cls := cls, since := now s, addr := addr,
                                              len := len, fixedHome := home }]
           press.nextPlan := s.press.nextPlan + 1 }

/-- The list forgets a plan that has ended. -/
def dropPlan (id : Nat) (s : State) : State := { s with press.plans := s.press.plans.filter (fun p => p.id != id) }

/-- HOME of a plan header, where it fixes one. -/
def homeOf (img : Bytes) : Option Nat := if planHome img ≤ 7 then some (planHome img) else none

/-- What the stage at an index reported: bytes of its first result. -/
def reportBytes (p : Plan) (i : Nat) : Bytes :=
  ((p.reports.find? (fun x => x.1 == i)).bind (fun x => x.2.head?)).elim [] tensorBytes

/-- An input of the stage at an index. -/
def reportInput (p : Plan) (i n : Nat) : Option TData := (p.reports.find? (fun x => x.1 == i)).bind (fun x => x.2[n + 1]?)

/-- Clusters on which a plan ran, as a mask. -/
def planMask (p : Plan) : Nat := bitsOf 8 (fun c => p.clusters.contains c)

/-! Jobs (R172, R173) -/

/-- A job by number. -/
def jobOf (s : State) (j : Nat) : Option Job := s.assure.jobs.find? (fun x => x.id == j)
def setJob (j : Nat) (f : Job → Job) (s : State) : State :=
  { s with assure.jobs := s.assure.jobs.map (fun x => if x.id = j then f x else x) }

/-- LCS as a field: NONE is all ones. -/
def lcsField (l : Option Nat) : Nat := l.getD (2 ^ 64 - 1)

/-- Open capsules of this tray's own accelerators for a job. -/
def openOf (s : State) (j : Nat) : List Capsule :=
  s.assure.caps.filter (fun c => c.job == j && c.st != .done && decide (c.src.code < 8))

/-- The job with no open capsule that was touched longest ago. -/
def oldestJob (s : State) : Option Job :=
  (s.assure.jobs.filter (fun j => (openOf s j.id).isEmpty)).foldl (fun o j => match o with
    | none => some j
    | some b => if j.touched < b.touched then some j else some b) none

/-- A job leaves the table; its LCS is recorded (05). -/
def evictJob (s : State) : State :=
  match oldestJob s with
  | some j => raise 9 6 noInst (leBytes 8 j.id ++ leBytes 8 (lcsField j.lcs))
      { s with assure.jobs := s.assure.jobs.filter (fun x => x.id != j.id) }
  | none => s

/-- The first STEP_OPEN or CAPSULE of a job creates its entry; each touches it. -/
def touchJob (j : Nat) (s : State) : State :=
  let n := s.assure.arrivals + 1
  let s1 := { s with assure.arrivals := n }
  if (jobOf s j).isSome then setJob j (fun x => { x with touched := n }) s1
  else
    let s2 := if 1024 ≤ s1.assure.jobs.length then evictJob s1 else s1
    { s2 with assure.jobs := s2.assure.jobs ++ [{ id := j, touched := n }] }

/-- The greater of two step ordinals, NONE below every ordinal. -/
def maxStep (a b : Option Nat) : Option Nat :=
  match a, b with
  | none, y => y
  | x, none => x
  | some x, some y => some (max x y)
def minStep (a b : Option Nat) : Option Nat :=
  match a, b with
  | some x, some y => some (min x y)
  | _, _ => none

/-- The highest of steps below a bound. -/
def highestBelow (xs : List Nat) (b : Nat) : Option Nat :=
  (xs.filter (fun x => decide (x < b))).foldl (fun o x => maxStep o (some x)) none

/-- The lowest open step, none where no capsule is open. -/
def lowestOpen (s : State) (j : Nat) : Option Nat :=
  (openOf s j).foldl (fun o c => match o with
    | none => some c.step
    | some x => some (min x c.step)) none

/-- `advance` of R172. -/
def advanceJob (j : Nat) (s : State) : State :=
  let fence := (lowestOpen s j).getD (2 ^ 64)
  setJob j (fun x => if x.frozen then x else
    { x with lcs := maxStep x.lcs (highestBelow (x.cleans.map (fun e => e.2)) fence) }) s

/-- Keep the 64 most recent ordinals of an accelerator. -/
def addClean (a step : Nat) (cs : List (Nat × Nat)) : List (Nat × Nat) :=
  ((a, step) :: cs.filter (fun e => e.1 == a)).take 64 ++ cs.filter (fun e => e.1 != a)

/-- What an outcome means for LCS: clean, failed, or neither (R172). -/
inductive StepEnd where
  | clean | failed | neither
  deriving DecidableEq, Repr

/-- `on_verdict` of R172. -/
def onVerdict (j a step : Nat) (o : StepEnd) (s : State) : State :=
  let s1 := match o with
    | .clean => setJob j (fun x => { x with cleans := addClean a step x.cleans }) s
    | .failed => setJob j (fun x =>
        { x with lcs := minStep x.lcs (highestBelow ((x.cleans.filter (fun e => e.1 == a)).map (fun e => e.2)) step),
                 frozen := true }) s
    | .neither => s
  advanceJob j s1

/-! Verdict records and messages (R170, R171) -/

abbrev Vd.CLEAN : Nat := 0
abbrev Vd.FAULTY_ACC : Nat := 1
abbrev Vd.FAULTY_SELF : Nat := 2
abbrev Vd.UNRESOLVED : Nat := 3
abbrev Vd.WITHDRAWN : Nat := 4

/-- Last clean step of a capsule's job, as a field. -/
def lcsOf (s : State) (j : Nat) : Nat := lcsField ((jobOf s j).bind (fun x => x.lcs))

/-- A verdict record (R171) for a capsule. -/
def verdictRecord (s : State) (seq : Nat) (c : Capsule) (v : Nat) : Bytes :=
  let pd (i : Nat) : Bytes := fix 64 (c.peerDigests.getD i [])
  leBytes 8 seq ++ leBytes 8 c.id ++ leBytes 8 c.job ++ leBytes 8 c.step ++ leBytes 8 (lcsOf s c.job) ++ leBytes 6 (now s)
    ++ zeros 2 ++ leBytes 1 (if c.src.code < 8 then c.src.code else 0) ++ leBytes 1 c.mode ++ leBytes 1 v
    ++ leBytes 1 c.hostDecision ++ leBytes 1 (if c.delegated then 0 else c.clusters) ++ leBytes 1 c.peers.length
    ++ leBytes 1 (b2n c.inconsistent + 4 * b2n c.delegated + 8 * b2n c.alarm + 16 * b2n c.sourcePoison)
    ++ leBytes 1 c.cmp ++ leBytes 2 c.ulp ++ (List.range 3).flatMap (fun i => leBytes 2 (c.peers.getD i 0))
    ++ fix 64 c.pressDigest ++ fix 64 c.accDigest ++ pd 0 ++ pd 1 ++ pd 2 ++ fix 16 c.darnId
    ++ leBytes 8 c.firstElem ++ leBytes 8 c.failCount ++ zeros 96

/-- Append a record to the log; a verdict other than CLEAN is an event too, and the host is told of it (R171, R174). -/
def logVerdict (acc v : Nat) (rec : Nat → Bytes) (s : State) : State :=
  let n := s.assure.vseq + 1
  let r := rec n
  let s1 := { s with assure.vseq := n, assure.vlog := (r :: s.assure.vlog).take 64 }
  if v = Vd.CLEAN then s1 else notice 3 acc v n (raise 9 1 acc r s1)

/-- ACTION of a VERDICT (R170). -/
def verdictAction (mode v dec : Nat) : Nat :=
  if mode = 1 then 2
  else if v = Vd.CLEAN || v = Vd.FAULTY_SELF || (v = Vd.UNRESOLVED && dec = 1) then 0 else 1

/-- The VERDICT payload (R170). -/
def verdictPayload (s : State) (c : Capsule) (v : Nat) : Bytes :=
  leBytes 8 c.id ++ leBytes 1 v ++ leBytes 1 (verdictAction c.mode v c.hostDecision) ++ zeros 6 ++ leBytes 8 c.job
    ++ leBytes 8 c.step ++ leBytes 8 (lcsOf s c.job)

/-- Send the VERDICT: to the accelerator, or with its record to the node that delegated the capsule (R170, R177). -/
def sendVerdict (c : Capsule) (v : Nat) (s : State) : State :=
  match c.src with
  | .acc a => sendAcc a true { cls := 1, typ := 5, len := 40, payload := verdictPayload s c v } s
  | .node n =>
    sendNodeOrCount true { cls := 1, typ := 0x15, dst := n, len := 552,
                           payload := verdictPayload s c v ++ verdictRecord s 0 c v } s

/-- The meaning of a verdict for LCS (R169, R172). -/
def verdictEnd (v dec : Nat) : StepEnd :=
  if v = Vd.WITHDRAWN then .neither
  else if v = Vd.CLEAN || v = Vd.FAULTY_SELF || dec = 1 then .clean
  else if v = Vd.FAULTY_ACC || dec = 2 then .failed
  else .neither

/-- The counter of a verdict. -/
def countVerdict (v : Nat) (s : State) : State :=
  if v = Vd.CLEAN then bump R.AS_CNT_CLEAN s
  else if v = Vd.FAULTY_ACC then bump R.AS_CNT_FAULTY_ACC s
  else if v = Vd.FAULTY_SELF then bump R.AS_CNT_FAULTY_SELF s
  else s

/-- The replay of a capsule that ends before its plan does is discarded. -/
def dropReplay (c : Capsule) (s : State) : State :=
  match c.planId with
  | some id => dropPlan id (match planOf s id with
      | some p => if p.st = .loading || p.st = .running then endPlan id .aborted 0 s else s
      | none => s)
  | none => s

/-- A capsule reaches DONE: its evidence and its peer plan are freed, LCS follows, the verdict is counted, sent, and
logged unless it is WITHDRAWN (R163, R170 to R172). For FAULTY-ACC `between` stands between sending and logging (R174). -/
def finishCap (c : Capsule) (v : Nat) (between : State → State) (s : State) : State :=
  let s1 := setCap c.order (fun _ => { c with
    st := .done, verdict := v, space := [], peerPlan := none, req := none, planId := none, evidWait := false,
    sentTo := none }) (dropReplay c s)
  match c.src with
  | .acc a =>
    let s2 := countVerdict v (onVerdict c.job a c.step (verdictEnd v c.hostDecision) s1)
    let s3 := between (sendVerdict c v s2)
    if v = Vd.WITHDRAWN then s3 else logVerdict a v (fun n => verdictRecord s3 n c v) s3
  | .node _ =>
    let s2 := bump R.AS_CNT_PEER_SERVED (sendVerdict c v s1)
    if v = Vd.FAULTY_SELF then raise 9 1 noInst (verdictRecord s2 0 c v) s2 else s2

/-- Withdraw capsules (R163). -/
def withdraw (p : Capsule → Bool) (s : State) : State :=
  (s.assure.caps.filter (fun c => c.st != .done && p c)).foldl (fun a c => finishCap c Vd.WITHDRAWN id a) s

/-! FRU EEPROMs (R174, R175, R480) -/

/-- The FRU entry of an accelerator. -/
def fruOf (s : State) (a : Nat) : Fru := s.cfg.fru.get {} a

/-- Address bytes of an EEPROM location, most significant first. -/
def fruAddr (f : Fru) (off : Nat) : Bytes := beBytes (if f.abytes = 2 then 2 else 1) off

/-- Read the serial number of an accelerator's EEPROM. -/
def fruRead (what : TwWhat) (a : Nat) (s : State) : State :=
  let f := fruOf s a
  if f.serialLen = 0 then s
  else twEngine f.port { what := what, addr := f.addr, w := fruAddr f f.serialOff, rlen := f.serialLen } s

/-- The service record (R174). -/
def serviceRecord (s : State) (cause : Nat) (darn : Bytes) : Bytes :=
  leBytes 4 0x31474154 ++ leBytes 2 (nodeId s) ++ leBytes 1 cause ++ zeros 1 ++ leBytes 8 (taiNow s) ++ fix 16 darn

/-- Write the service record. -/
def fruService (a cause : Nat) (darn : Bytes) (s : State) : State :=
  let f := fruOf s a
  if f.addr = 0 then s
  else twEngine f.port { what := .fruService a, addr := f.addr, w := fruAddr f f.svcOff ++ serviceRecord s cause darn } s

/-- A tag clears: the group is unblocked and the accelerator may take work again (R175, R302). -/
def clearTag (a : Nat) (s : State) : State :=
  clrBits R.ST_GROUP_BLOCK (2 ^ (a + 1)) (setAcc a (fun b => { b with drained := false })
    { s with assure.accTag := s.assure.accTag &&& ~~~(1#8 <<< a), assure.serials := SMap.set [] s.assure.serials a [] })

/-- What an EEPROM read of a serial number leads to: held with the tag, or compared with it (R175). -/
def fruDone (what : TwWhat) (data : Bytes) (s : State) : State :=
  match what with
  | .fruTag a => { s with assure.serials := SMap.set [] s.assure.serials a data }
  | .fruCheck a =>
    if s.assure.accTag.getLsbD a && s.assure.serials.get [] a != data then clearTag a s else s
  | _ => s

/-- At the power-up of a tagged accelerator's position its serial number is read (R175). -/
def checkTag (a : Nat) (s : State) : State := if s.assure.accTag.getLsbD a then fruRead (.fruCheck a) a s else s

/-! Draining and tagging (R174) -/

/-- Step 2: ACC_DOWN, and no new work or screening. -/
def beginDrain (a : Nat) (s : State) : State :=
  setAcc a (fun b => { b with drained := true })
    { s with assure.screening := SMap.set none s.assure.screening a none,
             assure.selects := s.assure.selects.filter (fun e => e.1 != a) }

/-- Steps 4 and 5: the tag with its serial number and group block, and the service record. -/
def tagAcc (a cause : Nat) (darn : Bytes) (s : State) : State :=
  let s1 := setBits R.ST_GROUP_BLOCK (2 ^ (a + 1))
    { s with assure.accTag := s.assure.accTag ||| (1#8 <<< a) }
  fruService a cause darn (fruRead (.fruTag a) a (raise 9 3 a [] s1))

/-- Rails of an accelerator and their dependants, in reverse journal order. -/
def accOffRails (s : State) (a : Nat) : List Nat :=
  let img := s.st.image
  let own := (presentRails img).filter (fun r => railGroup img r == a + 1)
  let deps := own.flatMap (dependants img)
  s.st.journal.reverse.filter (fun r => own.contains r || deps.contains r)

/-- Power an accelerator down: its rails fall in reverse order (R174). -/
def beginAccOff (a : Nat) (s : State) : State :=
  if s.st.downs.any (fun d => d.why == .accOff a) then s
  else { s with st.downs := s.st.downs ++ [{ why := .accOff a, rails := accOffRails s a }] }

/-- Step 7: a drained accelerator without running work and without an open capsule is powered down. -/
def drainedOff (a : Nat) (s : State) : State :=
  if (accB s a).drained && s.assure.accTag.getLsbD a && (accB s a).running = 0 && accPowered s a
      && !s.assure.caps.any (fun c => c.src == .acc a && c.st != .done)
  then beginAccOff a s else s

/-! Faults of the TAL8's own Press (R176, R177) -/

/-- SELF_WINDOW_MS as it acts. -/
def selfWindow (s : State) : Nat := max 1 (rdN s R.SELF_WINDOW_MS)

/-- FAULTY-SELF verdicts within the window. -/
def selfCount (s : State) : Nat := (s.assure.selfTimes.filter (fun t => now s < t + selfWindow s)).length

/-- The TAL8 tags itself (R177). -/
def tagSelf (s : State) : State :=
  if s.assure.selfTag then s else raise 9 4 noInst [] { s with assure.selfTag := true, assure.delegated := true }

/-- FAULTY-SELF of the clusters of a mask: counted once while one of them is suspended for an earlier one, suspended, and
at two verdicts within the window the TAL8 tags itself. -/
def faultySelf (mask : Nat) (s : State) : State :=
  let busy := (List.range 8).any (fun c => s.assure.selfSusp.testBit c && ((cluster s c).susp || (cluster s c).st == .suspended))
  let s1 := if busy then s else { s with
    assure.selfTimes := (now s :: s.assure.selfTimes.filter (fun t => now s < t + selfWindow s)).take 255
    assure.selfSusp := 0 }
  let s2 := (List.range 8).foldl (fun a c => if mask.testBit c then suspendCluster c a else a)
    { s1 with assure.selfSusp := s1.assure.selfSusp ||| mask % 256 }
  if 2 ≤ selfCount s2 then tagSelf s2 else s2

end Sys2Proof.Machine
end

