-- ==== Sys2Proof/Machine/AssureRun.lean ====
section
/-! DEFINITION. The course of a capsule (05): dispatch, fetch, replay, peers, delegation, verdicts; third executions for
peers; and what follows at once for capsules from other events.
Log entries coded here: 85 (DEDUCED), 87 (DEDUCED), 88 (DEDUCED), 89 (DEDUCED), 90 (DEDUCED), 91 (DEDUCED), 96
(DEDUCED), 99 (DEDUCED), 110 (DEDUCED), 134 (DESIGN CHOICE), 219 (DEDUCED), 220 (DEDUCED), 221 (DEDUCED), 253
(DEDUCED), 257 (DEDUCED), 258 (DEDUCED). -/

namespace Sys2Proof.Machine

/-! Ways through the capsule table (R163) -/

/-- Back to QUEUED: the evidence is freed and fetched again later. -/
def toQueued (c : Capsule) (s : State) : State :=
  setCap c.order (fun x => { x with st := .queued, space := [], inputs := [], planId := none, sentTo := none, delegated := false }) (dropReplay c s)

/-- A capsule that cannot be replayed: PLAN_WAIT for HOLD, WITHDRAWN for AUDIT; where it disagrees with its entry, or its
bound plan is refused, one event (R160, R163). -/
def refuseCap (event : Bool) (c : Capsule) (s : State) : State :=
  let s1 := if event then raise 9 7 c.src.code (c.graph.take 16 ++ leBytes 1 c.nin) s else s
  if c.mode = 1 then finishCap c Vd.WITHDRAWN id s1
  else setCap c.order (fun x => { x with st := .planWait, space := [], inputs := [], planId := none, evidWait := false }) (dropReplay c s1)

/-- HOST_WAIT (R161, R169). -/
def toHostWait (c : Capsule) (s : State) : State :=
  bump R.AS_CNT_UNRESOLVED (setCap c.order (fun _ => { c with st := .hostWait, hostDecision := 0, req := none }) s)

/-! Dispatch (R159, R160) -/

/-- Reads of a capsule's inputs, and of its output where the capsule is to be delegated. -/
def fetchRanges (c : Capsule) : List (Nat × Nat) :=
  ((List.range c.nin).map c.inDesc ++ (if c.delegated && c.outValid then [c.outDesc] else [])).flatMap (fun b =>
    (descRanges (parseDesc b)).map (fun r => (srcAddr c.src (leAt b 3 1) r.1, r.2)))

/-- Begin the fetch: evidence space is taken, every input is read once (R159). -/
def beginFetch (c : Capsule) (s : State) : State :=
  let ins := (List.range c.nin).map c.inDesc
  let outs := if c.delegated && c.outValid then [c.outDesc] else []
  let copies := (ins ++ outs).foldl (fun n b => n + copyBytes b) 0
  let total := copies + (if c.delegated then 0 else up64 (c.image.length + 512))
  match evidAlloc s total with
  | none => setCap c.order (fun x => { x with evidWait := true }) s
  | some p =>
    let places := copyPlaces (ins ++ outs) p
    let d := { c with st := .fetching, space := [(p, total)], inputs := places.take c.nin, output := (places.drop c.nin).head?,
                      plan := (p + copies, 0), evidWait := false }
    (fetchRanges d).foldl (fun a r => pressRead 8 r.1 r.2 a) (setCap c.order (fun _ => d) s)

/-- Press capacity for another replay: an idle cluster that no fetch or waiting replay is to take. -/
def replayRoom (s : State) : Bool :=
  let idle := ((List.range 8).filter (fun c => (cluster s c).st == .idle)).length
  let due := (s.assure.caps.filter (fun c => c.st == .fetching || (c.st == .replaying &&
    (match c.planId.bind (planOf s) with
     | some p => p.st == .waiting
     | none => false)))).length
  decide (due < idle)

/-- A capsule's mode is none that the entry's step may be compared under: BITEXACT and DIGEST are for steps declared under TRA
edition 3 (R69). -/
def outsideTra (c : Capsule) (e : Bytes) : Bool := c.cmp != 1 && !entTra e

/-- Dispatch one capsule of the queue; while the evidence area has size 0 every capsule waits (R189). A mode that R69 does not
allow for the entry present is handled as a disagreement with it. -/
def dispatchCap (c : Capsule) (s : State) : State :=
  if areaSize s R.EVID_AREA = 0 then setCap c.order (fun x => { x with evidWait := true }) s
  else if s.assure.selfTag && decide (c.src.code < 8) then
    if rangesDeclared s c then beginFetch { c with delegated := true } s else refuseCap true c s
  else match entryOf s c.graph with
    | none => refuseCap false c s
    | some e =>
      if entStale e then refuseCap false c s
      else if !rangeReady s (entAddr e) (entLen e) then s
      else
        let img := entImage s e
        if outsideTra c e || !agreesWith c e img || !rangesDeclared s c then refuseCap true c s
        else if replayRoom s then beginFetch { c with entry := e, image := img } s else s

/-- Capsules that wait, HOLD before AUDIT, in the order of arrival (R162). -/
def queuedCaps (s : State) : List Capsule :=
  let q := s.assure.caps.filter (fun c => c.st == .queued)
  q.filter (fun c => c.mode == 0) ++ q.filter (fun c => c.mode != 0)

/-- The tray is in service and its memory stands. -/
def inService (s : State) : Bool := (s.chip.tray == .ready || s.chip.tray == .degraded) && memReady s

/-! Candidates (R165) -/

/-- NODE of a DELEGATE or PEER register, where it is valid. -/
def peerReg (s : State) (r : Nat) : Option Nat :=
  if rdBit s r 31 && rdFld s r 10 0 != nodeId s then some (rdFld s r 10 0) else none

/-- Peers in order: the valid entries of PEER, otherwise the four seam neighbours; distinct, and other than this node. -/
def candidates (s : State) : List Nat :=
  let ps := (List.range 8).filterMap (fun k => peerReg s (R.PEER k))
  (if ps.isEmpty then ((List.range 4).map (seamNeighbour s)).filter (fun n => n != nodeId s) else ps).eraseDups

/-- The delegate, and the candidates that follow it (R177). -/
def delegates (s : State) : List Nat := ((peerReg s R.DELEGATE).toList ++ candidates s).eraseDups

/-- A message can reach a node. -/
def reachable (s : State) (n : Nat) : Bool :=
  identityOk s && n != nodeId s && nodeInTorus s n && (injectOrder s n).isSome

/-! Delegation (R177) -/

/-- The capsule with its descriptors at the evidence copies. -/
def delegatedBody (c : Capsule) : Bytes :=
  let moved (b : Bytes) (p : Nat × Nat) : Bytes :=
    b.take 3 ++ zeros 1 ++ slice b 4 4 ++ leBytes 8 p.1 ++ leBytes 8 (if (parseDesc b).scale = 12 then p.2 else 0) ++ b.drop 24
  c.body.take 160 ++ (if c.outValid then moved c.outDesc (c.output.getD (0, 0)) else c.outDesc)
    ++ (List.range c.nin).flatMap (fun i => moved (c.inDesc i) (c.inputs.getD i (0, 0)))

/-- Send a fetched capsule to the next delegate; with every candidate passed over it waits for the next round. -/
def delegateNext (c : Capsule) (s : State) : State :=
  match (delegates s).find? (fun n => !c.tried.contains n && reachable s n) with
  | some n =>
    let t := nextTag s
    sendNodeOrCount false { cls := 1, typ := 0x14, dst := n, tag := t, len := (delegatedBody c).length, payload := delegatedBody c }
      (setCap c.order (fun x => { x with sentTo := some n, reqTag := t, tried := c.tried ++ [n] })
        { s with torus.nextTag := t + 1 })
  | none => setCap c.order (fun x => { x with sentTo := none, tried := delegates s }) s

/-! The fetch is over (R159) -/

/-- Copy fetched bytes into the evidence. -/
def copyIn (src dst n : Nat) (s : State) : State :=
  let bs := regionBytes s src n
  { engineWrite dst bs s with press.ext := s.press.ext.keep (fun k => !(extKey 8 src ≤ k && k < extKey 8 (src + n))) }

/-- One descriptor's elements and scales into their places. -/
def copyDesc (f : CapFrom) (b : Bytes) (p : Nat × Nat) (s : State) : State :=
  let d := parseDesc b
  let w := leAt b 3 1
  let s1 := if d.span = 0 then s else copyIn (srcAddr f w d.addr) p.1 d.span s
  if d.scaleCount = 0 then s1 else copyIn (srcAddr f w d.saddr) p.2 d.scaleCount s1

/-- Every read of the fetch has been answered. -/
def fetchOver (s : State) (c : Capsule) : Bool := (fetchRanges c).all (fun r => rangeReady s r.1 r.2)

/-- The inputs are in the evidence area: the bound plan is written and submitted, or the capsule is delegated. -/
def fxFetched (c : Capsule) (s : State) : State :=
  let s1 := (List.range c.nin).foldl (fun a i => copyDesc c.src (c.inDesc i) (c.inputs.getD i (0, 0)) a) s
  if c.delegated then
    let s2 := match c.output with
      | some p => copyDesc c.src c.outDesc p s1
      | none => s1
    delegateNext { c with st := .replaying, tried := [] } (setCap c.order (fun _ => { c with st := .replaying, tried := [] }) s2)
  else
    let img := boundPlan c c.image
    let s2 := submitSelf (.replay c.src.code c.id) c.mode c.plan.1 img.length (homeOf img) (engineWrite c.plan.1 img s1)
    setCap c.order (fun _ => { c with st := .replaying, plan := (c.plan.1, img.length), planId := some s1.press.nextPlan }) s2

/-! Peers (R164 to R167) -/

/-- Ask the next peer: the first candidate not asked that can be reached; with none, the round waits for its repeat
(R165). -/
def askNext (c : Capsule) (s : State) : State :=
  match c.peerPlan with
  | none => s
  | some (pa, pl) =>
    match (candidates s).find? (fun n => !c.tried.contains n && !c.peers.contains n && reachable s n) with
    | some n =>
      let q := s.assure.nextReq
      let payload := leBytes 8 q ++ leBytes 2 (nodeId s) ++ leBytes 1 c.cmp ++ zeros 1 ++ leBytes 2 c.ulp ++ leBytes 1 c.mode
        ++ zeros 1 ++ c.graph ++ leBytes 8 pa ++ leBytes 4 pl ++ leBytes 2 (entOut c.entry) ++ zeros 2
        ++ leBytes 8 (if c.cmp = 1 then c.outAddr else 0) ++ zeros 8
      let t := nextTag s
      sendNodeOrCount false { cls := 1, typ := 0x10, dst := n, tag := t, len := 112, payload := payload }
        (setCap c.order (fun _ => { c with req := some (q, n), reqTag := t, tried := c.tried ++ [n] })
          { s with assure.nextReq := q + 1, torus.nextTag := t + 1 })
    | none => setCap c.order (fun _ => { c with req := none, tried := candidates s }) s

/-- A range lies in the evidence area. -/
def inEvidence (s : State) (r : Nat × Nat) : Bool := within r.1 r.2 (areaBase s R.EVID_AREA) (areaSize s R.EVID_AREA)

/-- Descriptors of the bound plan that must be copied for a peer: FIXED, with a range outside the evidence area. -/
def outsideDescs (s : State) (c : Capsule) : List (Nat × Bytes) :=
  ((boundDescs c c.image).zipIdx.filter (fun x =>
    let d := parseDesc x.1
    d.fixed && (descRanges d).any (fun r => !inEvidence s r))).map (fun x => (x.2, x.1))

/-- Length of the peer plan, and bytes of a peer's output under ULPBOUND (R166). -/
def peerLen (c : Capsule) : Nat := (digestPlan c.image (boundDescs c c.image) (entOut c.entry)).length
def peerOut (c : Capsule) : Nat :=
  if c.cmp = 1 then up64 ((c.pressOut.map (fun t => (canonStream t).length)).getD 0) else 0

/-- Reserve space for the peer plan and start its copies, or wait for space (R167). -/
def startPeerPlan (c : Capsule) (s : State) : State :=
  let outs := outsideDescs s c
  let copies := outs.foldl (fun n x => n + copyBytes x.2) 0
  let total := up64 (peerLen c) + copies + peerOut c
  match evidAlloc s total with
  | none => setCap c.order (fun _ => { c with evidWait := true }) s
  | some p =>
    let d := { c with peerPlan := some (p, peerLen c), space := c.space ++ [(p, total)], evidWait := false,
                      outAddr := p + up64 (peerLen c) + copies }
    outs.foldl (fun a x => (descRanges (parseDesc x.2)).foldl (fun b r => pressRead 8 r.1 r.2 b) a)
      (setCap c.order (fun _ => d) s)

/-- Where the copies lie: tensor index with the places of elements and scales. -/
def peerPlaces (s : State) (c : Capsule) (p : Nat) : List (Nat × Nat × Nat) :=
  let outs := outsideDescs s c
  List.zip (outs.map (fun x => x.1)) (copyPlaces (outs.map (fun x => x.2)) (p + up64 (peerLen c)))

/-- Every copy can be made. -/
def peerCopiesReady (s : State) (c : Capsule) : Bool :=
  (outsideDescs s c).all (fun x => (descRanges (parseDesc x.2)).all (fun r => rangeReady s r.1 r.2))

/-- The copies and the peer plan are written, and the first peer is asked (R167). -/
def fxPeerPlan (c : Capsule) (p : Nat) (s : State) : State :=
  let places := peerPlaces s c p
  let descs := (boundDescs c c.image).zipIdx.map (fun x =>
    match places.find? (fun q => q.1 == x.2) with
    | some q => rebase x.1 q.2.1 (if (parseDesc x.1).scale = 12 then q.2.2 else 0)
    | none => x.1)
  let copy (a : State) (x : Nat × Bytes) : State :=
    match places.find? (fun q => q.1 == x.1) with
    | some q =>
      let d := parseDesc x.2
      let a1 := if d.span = 0 then a else engineWrite q.2.1 (regionBytes a d.addr d.span) a
      if d.scaleCount = 0 then a1 else engineWrite q.2.2 (regionBytes a1 d.saddr d.scaleCount) a1
    | none => a
  let s1 := (outsideDescs s c).foldl copy s
  askNext c (engineWrite p (digestPlan c.image descs (entOut c.entry)) s1)

/-- PEER_PLAN_COPY_COMPLETE: a wait for space is tried again first. -/
def fxPeerCopy (c : Capsule) (s : State) : State :=
  match c.peerPlan with
  | some (p, _) => if peerCopiesReady s c then fxPeerPlan c p s else s
  | none => startPeerPlan c s

/-! The end of a replay (R161) -/

/-- What the replay's stages reported: Press digest, accelerator's digest, COMPARE record. -/
def takeReports (c : Capsule) (p : Plan) : Capsule :=
  let n := nStages p.image
  let d0 := if c.outValid then n - 4 else n - 1
  let rec_ := reportBytes p (d0 + 2)
  { c with
    clusters := planMask p
    pressDigest := reportBytes p d0
    pressOut := reportInput p d0 0
    capIns := (p.reports.find? (fun x => x.1 == entCapT c.entry)).elim [] (fun x => x.2.drop 1)
    accDigest := if c.outValid then reportBytes p (d0 + 3) else c.outDigest
    accOut := if c.outValid then reportInput p (d0 + 2) 1 else none
    firstElem := if c.outValid then leAt rec_ 8 8 else 2 ^ 64 - 1
    failCount := if c.outValid then leAt rec_ 16 8 else 0
    inconsistent := c.outValid && reportBytes p (d0 + 3) != c.outDigest }

/-- RESULT of the COMPARE record. -/
def compareResult (p : Plan) : Nat := leAt (reportBytes p (nStages p.image - 4 + 2)) 0 1

/-- The Press agrees with the accelerator (R161). -/
def replayAgrees (c : Capsule) (p : Plan) : Bool :=
  !c.inconsistent && (if c.cmp = 2 then c.pressDigest == c.outDigest else compareResult p == 0)

/-- A replay plan ends (R161): CLEAN, a mismatch that leads to the first peer, HOST_WAIT on persistent source POISON, or
another run. -/
def fxReplayEnd (c : Capsule) (p : Plan) (s : State) : State :=
  if p.st = .done then
    let d := { takeReports c p with planId := none }
    let s1 := dropPlan p.id s
    if c.cmp ≠ 2 && compareResult p = 2 then toQueued d s1
    else if replayAgrees d p then finishCap d Vd.CLEAN id s1
    else
      let e := { d with st := .peerWait, tried := [], peers := [], peerDigests := [] }
      startPeerPlan e (setCap c.order (fun _ => e) s1)
  else if p.st = .fault && p.reason = 2 then
    let d := { c with sourcePoison := true, planId := none, clusters := planMask p }
    toHostWait d (raise 9 8 c.src.code (leBytes 8 c.id ++ leBytes 1 c.src.code) (dropPlan p.id s))
  else if p.st = .fault then refuseCap true c (dropPlan p.id s)
  else toQueued c (dropPlan p.id s)

/-! FAULTY-ACC with its capture (R174, R179) -/

/-- Working slots in use. -/
def slotsUsed (s : State) : List Nat :=
  s.assure.thirds.map (fun t => t.slot) ++ s.assure.fetches.map (fun w => w.slot) ++ s.assure.captures.map (fun c => c.slot)

/-- The first number not in a list. -/
def firstFree (fuel n : Nat) (used : List Nat) : Nat :=
  match fuel with
  | 0 => n
  | k + 1 => if used.contains n then firstFree k (n + 1) used else n

/-- A free working slot of the scheduler core's scratch. -/
def freeWork (s : State) : Nat := firstFree (slotsUsed s).length 0 (slotsUsed s)

/-- Data of a working slot begins here; its image at 0. -/
abbrev workData : Nat := 2 ^ 25

/-- Write bytes into a working slot. -/
def workWrite (slot off : Nat) (bs : Bytes) (s : State) : State :=
  { s with assure.work := writeMap s.assure.work (slot * 2 ^ 48 + off) bs }

/-- Forget a working slot. -/
def workDrop (slot : Nat) (s : State) : State :=
  { s with assure.work := s.assure.work.keep (fun k => k / 2 ^ 48 != slot) }

/-- A tensor's bytes row by row, and its scales. -/
def rowsBytes (t : TData) : Bytes :=
  (rowsOf (lastExt t.shape.ext) t.elems).flatMap (packElems t.shape.fmt) ++ t.scales.map (BitVec.ofNat 8)

/-- Dense byte strides of a shape. -/
def denseStrides (sh : Shape) : List Nat :=
  let n := sh.ext.length
  (List.range n).map (fun d =>
    if d + 1 = n then (if fmtBits sh.fmt < 8 then 0 else fmtBits sh.fmt / 8)
    else extCount ((sh.ext.drop (d + 1)).dropLast) * packedBytes sh.fmt (lastExt sh.ext))

/-- A FIXED descriptor of a dense tensor. -/
def denseDesc (sh : Shape) (addr saddr : Nat) : Bytes :=
  leBytes 1 sh.fmt ++ leBytes 1 sh.ext.length ++ leBytes 1 (if sh.scaled then 12 else 0) ++ [0x80#8] ++ zeros 4
    ++ leBytes 8 addr ++ leBytes 8 (if sh.scaled then saddr else 0)
    ++ (List.range 8).flatMap (fun d => leBytes 4 (sh.ext.getD d 0))
    ++ (List.range 8).flatMap (fun d => leBytes 6 ((denseStrides sh).getD d 0)) ++ zeros 8

/-- Bytes of a shape's elements laid out densely. -/
def denseBytes (sh : Shape) : Nat := extCount sh.ext.dropLast * packedBytes sh.fmt (lastExt sh.ext)

/-- Descriptors of tensors laid one after another from offset `o`. -/
def denseDescs (ts : List Shape) (o : Nat) : List Bytes :=
  match ts with
  | [] => []
  | sh :: t =>
    let e := o + denseBytes sh
    denseDesc sh o e :: denseDescs t (e + (if sh.scaled then extCount sh.ext.dropLast * rowBlocks sh.ext else 0))

/-- Rows r0 .. r0 + nr and columns c0 .. c0 + nc of a matrix, with the scales of the blocks that hold them. -/
def subMatrix (t : TData) (r0 nr c0 nc : Nat) : TData :=
  let w := lastExt t.shape.ext
  let b := rowBlocks t.shape.ext
  ⟨{ t.shape with ext := [nr, nc] },
   (List.range nr).flatMap (fun i => (List.range nc).map (fun j => t.elems.getD (w * (r0 + i) + c0 + j) 0)),
   if t.shape.scaled then
     (List.range nr).flatMap (fun i => (List.range ((nc + 31) / 32)).map (fun j => t.scales.getD (b * (r0 + i) + c0 / 32 + j) 0))
   else []⟩

/-- A fragment: plan image with dense FIXED tensors, operand data, output tensor, length of the expected output. -/
structure Fragment where
  image : Bytes
  data : Bytes
  outT : Nat
  outLen : Nat
  deriving DecidableEq, Repr

/-- Length of the darn that a fragment makes (R178). -/
def Fragment.darnLen (f : Fragment) : Nat := 256 + f.image.length + f.data.length + f.outLen + 64

/-- The header of a fragment plan: KIND 2, one cluster. -/
def fragHead (phases : Nat) : Bytes :=
  leBytes 4 0x4E4C5054 ++ [1#8, 3#8, 2#8, 1#8, 0xFF#8, 0#8] ++ leBytes 2 phases ++ zeros 52

/-- The output tile of the MATMUL that produces OUT_T, over the operands that the stage took (R179). -/
def tileFragment (c : Capsule) (k : StageRec) (h : Nat) (ops : List TData) : Option Fragment :=
  let m := k.par 4 4
  let n := k.par 8 4
  let kk := k.par 12 4
  let opts := k.par 3 1
  let row := c.firstElem / max n 1 / h * h
  let col := c.firstElem % max n 1 / 64 * 64
  let hh := min h (m - row)
  let cc := min 64 (n - col)
  match k.kind, ops with
  | 3, a :: b :: more =>
    if opts.testBit 4 || c.firstElem = 2 ^ 64 - 1 then none
    else
      let a' := if opts.testBit 0 then subMatrix a 0 kk row hh else subMatrix a row hh 0 kk
      let b' := if opts.testBit 1 then subMatrix b col cc 0 kk else subMatrix b 0 kk col cc
      let add : Option (List TData) := if opts.testBit 2 then more.head?.map (fun t => [subMatrix t row hh col cc]) else some []
      add.map (fun cs =>
        let ins := [a', b'] ++ cs
        let out : Shape := ⟨k.par 2 1, false, [hh, cc]⟩
        let prm := k.param.take 4 ++ leBytes 4 hh ++ leBytes 4 cc ++ k.param.drop 12
        let st : NewStage := ⟨3, (List.range ins.length).map tref, [tref ins.length], prm⟩
        ⟨extendPlan (fragHead 0) (denseDescs (ins.map (fun t => t.shape) ++ [out]) 0) [st] [],
         ins.flatMap rowsBytes, ins.length, denseBytes out⟩)
  | _, _ => none

/-- The whole bound step, where it is one phase, as a darn's plan must be (R178, R179): every tensor becomes FIXED, the inputs first,
then OUT_T, then what else the step writes, of which the darn holds nothing. -/
def stepFragment (c : Capsule) (tens : Nat → TData) : Option Fragment :=
  let ds := (boundDescs c c.image).map parseDesc
  let written := (stageRecs c.image).flatMap stageWrites
  let reads := (List.range ds.length).filter (fun i => !written.contains i)
  let outT := entOut c.entry
  if planPhases c.image = 1 && reads.all (fun i => ((ds[i]?).map (fun d => d.fixed)).getD false) && written.contains outT then
    let order := reads ++ [outT] ++ (List.range ds.length).filter (fun i => written.contains i && i != outT)
    let packed := denseDescs (order.map (fun i => (ds.getD i ⟨10, 0, 0, 0, 0, 0, [], [], 0, []⟩).shape)) 0
    let descs := (List.range ds.length).map (fun i => packed.getD ((order.findIdx? (fun x => x == i)).getD 0) [])
    some ⟨extendPlan c.image descs [] [], reads.flatMap (fun i => rowsBytes (tens i)), outT,
      denseBytes (ds.getD outT ⟨10, 0, 0, 0, 0, 0, [], [], 0, []⟩).shape⟩
  else none

/-- Operands of a stage that no replay here has run, as far as they are FIXED tensors of the bound plan; none where one is not. -/
def fixedOps (c : Capsule) (k : StageRec) (tens : Nat → TData) : List TData :=
  let ds := (boundDescs c c.image).map parseDesc
  let op (q : Nat) : Option TData := match k.inRef q with
    | .tensor i => if ((ds[i]?).map (fun d => d.fixed)).getD false then some (tens i) else none
    | _ => none
  let want := if (k.par 3 1).testBit 2 then [0, 1, 2] else [0, 1]
  let got := want.filterMap op
  if got.length = want.length then got else []

/-- The fragment of a capture: the first tile that fits, else the whole step, else none (R179). -/
def pickFragment (c : Capsule) (tens : Nat → TData) : Option Fragment :=
  let fits (f : Fragment) : Bool := f.darnLen ≤ 1048576
  let k := stageRec c.image (entCapT c.entry)
  let ops := if c.capIns.isEmpty then fixedOps c k tens else c.capIns
  let tiles := if entCapture c.entry then [64, 32, 16, 8, 4, 2, 1].filterMap (fun h => tileFragment c k h ops) else []
  match tiles.find? fits with
  | some f => some f
  | none => (stepFragment c tens).filter fits

/-- A tensor of the bound plan as the evidence holds it. -/
def boundTensor (s : State) (c : Capsule) (i : Nat) : TData :=
  let d := parseDesc ((boundDescs c c.image).getD i [])
  readTensor d (fun o => regionByte s 8 (d.addr + o)) (fun o => regionByte s 8 (d.saddr + o))

/-- A fragment moved to a working slot, its outputs scratch tensors, with a DIGEST of its output appended (R181). -/
def fragmentPlan (img : Bytes) (outT slot : Nat) : Bytes :=
  let written := (stageRecs img).flatMap stageWrites
  let descs := (descList img).zipIdx.map (fun x =>
    let d := parseDesc x.1
    if written.contains x.2 then x.1.take 3 ++ zeros 5 ++ zeros 16 ++ x.1.drop 24
    else rebase x.1 (workAddr slot (workData + d.addr)) (if d.scale = 12 then workAddr slot (workData + d.saddr) else 0))
  digestPlan img descs outT

/-- Start a capture, or record that none is possible (R174 step 6, R179). -/
def startCapture (c : Capsule) (seq : Nat) (s : State) : State :=
  match pickFragment c (boundTensor s c) with
  | none => raise 9 5 c.src.code (zeros 16) s
  | some f =>
    let w := freeWork s
    let img := fragmentPlan f.image f.outT w
    let s1 := workWrite w workData f.data (workWrite w 0 img s)
    let s2 := submitSelf (.capture c.src.code c.id) 0 (workAddr w 0) img.length none s1
    { s2 with assure.captures := s2.assure.captures ++
        [⟨c.src, c.id, s1.press.nextPlan, w, f.image, f.data, f.outT, c.graph, c.src.code, seq⟩] }

/-- FAULTY-ACC for accelerator a (R174): what steps 1 to 3 have not yet done, then 4 to 6; its other capsules are
withdrawn. -/
def accFaulty (a cause : Nat) (darn : Bytes) (s : State) : State :=
  withdraw (fun c => c.src == .acc a) (if s.assure.accTag.getLsbD a then s else tagAcc a cause darn s)

/-- A capsule that the delegate judged takes its registry entry for the capture, where that entry still stands and agrees (R174,
R177, R179). -/
def withEntry (s : State) (c : Capsule) : Option Capsule :=
  if !c.delegated then some c
  else match entryOf s c.graph with
    | some e =>
      if !entStale e && rangeReady s (entAddr e) (entLen e) && agreesWith c e (entImage s e)
      then some { c with entry := e, image := entImage s e } else none
    | none => none

/-- Step 6 of R174: the capture, or the event that there is none. -/
def captureFor (c : Capsule) (seq : Nat) (s : State) : State :=
  match withEntry s c with
  | some d => startCapture d seq s
  | none => raise 9 5 c.src.code (zeros 16) s

/-- Decide a capsule (R164, R169). -/
def decideCap (c : Capsule) (v : Nat) (s : State) : State :=
  match c.src with
  | .acc a =>
    if v = Vd.FAULTY_ACC then
      let s1 := finishCap c v (beginDrain a) s
      let s2 := accFaulty a (if c.hostDecision = 3 then 3 else 1) [] s1
      captureFor c s2.assure.vseq s2
    else if v = Vd.FAULTY_SELF && !c.delegated then faultySelf c.clusters (finishCap c v id s)
    else finishCap c v id s
  | .node _ => if v = Vd.FAULTY_SELF then faultySelf c.clusters (finishCap c v id s) else finishCap c v id s

/-! Peer results (R164, R165) -/

/-- The peer's output under ULPBOUND, as it stands in the evidence area. -/
def peerTensor (s : State) (c : Capsule) : Option TData :=
  c.pressOut.map (fun t =>
    let bs := dramRead s c.outAddr (canonStream t).length
    let n := extCount t.shape.ext
    let len := (packElems t.shape.fmt t.elems).length
    ⟨t.shape, unpackElems t.shape.fmt n bs, (bs.drop len).map (fun b => b.toNat)⟩)

/-- Two results agree under ULPBOUND(n). -/
def ulpAgree (n : Nat) (a b : Option TData) : Bool :=
  match a, b with
  | some x, some y => (compareTensors (.ulp n) x y).pass
  | _, _ => false

/-- Whether a peer's result agrees with the Press, and with the accelerator (R164). -/
def peerAgrees (s : State) (c : Capsule) (digest : Bytes) : Bool × Bool :=
  if c.cmp = 1 then (ulpAgree c.ulp (peerTensor s c) c.pressOut, ulpAgree c.ulp (peerTensor s c) c.accOut)
  else (digest == c.pressDigest, digest == c.accDigest)

/-- A peer's result (R163, R164): decisive where it agrees with exactly one of the two. -/
def peerResult (c : Capsule) (node : Nat) (digest : Bytes) (s : State) : State :=
  let d := { c with req := none, peers := c.peers ++ [node], peerDigests := c.peerDigests ++ [digest] }
  let (p, a) := peerAgrees s c digest
  if p && !a then decideCap d Vd.FAULTY_ACC s
  else if a && !p then decideCap d Vd.FAULTY_SELF s
  else
    let s1 := match c.src with
      | .acc k => logVerdict k Vd.UNRESOLVED (fun n => verdictRecord s n d Vd.UNRESOLVED) s
      | .node _ => s
    if d.peers.length < 3 then askNext d (setCap c.order (fun _ => d) s1) else toHostWait d s1

/-- A peer is passed over (R165). -/
def passPeer (c : Capsule) (s : State) : State := askNext { c with req := none } s

/-- A request of the assurance to another node was answered ERR with STATUS 2 or 3: a peer or a delegate is passed over (R165, R177,
R233). -/
def requestLost (tag : Nat) (s : State) : State :=
  match s.assure.caps.find? (fun c => c.reqTag == tag && ((c.st == .peerWait && c.req.isSome) || (c.st == .replaying && c.sentTo.isSome))) with
  | some c => if c.st = .peerWait then passPeer c s else delegateNext c s
  | none => s

/-- THIRD_RESULT from a node. -/
def fxThirdResult (node : Nat) (p : Bytes) (s : State) : State :=
  let q := leAt p 0 8
  match s.assure.caps.find? (fun c => c.st == .peerWait && c.req == some (q, node)) with
  | some c => if leAt p 10 1 = 0 then peerResult c node (slice p 16 64) s else passPeer c s
  | none =>
    -- STATUS 1 from a delegate that is itself self-tagged (R177)
    match s.assure.caps.find? (fun c => c.st == .replaying && c.sentTo == some node && c.id == q) with
    | some c => if leAt p 10 1 = 1 then delegateNext c s else s
    | none => s

/-- A new round of candidates (R165). -/
def fxPeerRetry (c : Capsule) (s : State) : State :=
  if c.st = .peerWait then
    (if c.req.isNone then askNext { c with tried := [] } s else s)
  else if c.sentTo.isNone then delegateNext { c with tried := [] } s else s

/-! Third executions for peers (R166, R168) -/

/-- Change a third execution. -/
def setThird (node req : Nat) (f : Third → Third) (s : State) : State :=
  let g (t : Third) : Third := if t.node = node && leAt t.body 0 8 == req then f t else t
  { s with assure.thirds := s.assure.thirds.map g }

/-- Send THIRD_RESULT. -/
def sendThird (node req status : Nat) (digest : Bytes) (s : State) : State :=
  let payload := leBytes 8 req ++ leBytes 2 (nodeId s) ++ leBytes 1 status ++ zeros 5 ++ fix 64 digest
  sendNodeOrCount true { cls := 1, typ := 0x11, dst := node, len := 80, payload := payload } s

/-- THIRD_REQ arrives: declined, or its plan is read from the requester's evidence area. -/
def fxThirdReq (node : Nat) (p : Bytes) (s : State) : State :=
  if !rdBit s R.AS_CTRL 4 || s.assure.selfTag then sendThird node (leAt p 0 8) 1 [] s
  else
    let t : Third := { node := node, body := p, slot := freeWork s }
    pressRead 8 (nodeAddr node (leAt p 80 8)) (leAt p 88 4) { s with assure.thirds := s.assure.thirds.concat t }

/-- Places of a third execution's tensors in its working slot. -/
def thirdDescs (img : Bytes) : List (Bytes × Nat × Nat) :=
  let ds := descList img
  List.zip ds (copyPlaces ds workData)

/-- The ranges of a third execution's tensors at the requester. -/
def thirdRanges (t : Third) (img : Bytes) : List (Nat × Nat) :=
  (descList img).flatMap (fun b => if (parseDesc b).fixed then
    (descRanges (parseDesc b)).map (fun r => (nodeAddr t.node r.1, r.2)) else [])

/-- The copies are made, the tensors re-based onto them, and the plan runs (R166). -/
def thirdSubmit (t : Third) (img : Bytes) (s : State) : State :=
  let places := thirdDescs img
  let copy (a : State) (x : Bytes × Nat × Nat) : State :=
    let d := parseDesc x.1
    if d.fixed then
      let a1 := if d.span = 0 then a else workWrite t.slot x.2.1 (regionBytes a (nodeAddr t.node d.addr) d.span) a
      if d.scaleCount = 0 then a1 else workWrite t.slot x.2.2 (regionBytes a1 (nodeAddr t.node d.saddr) d.scaleCount) a1
    else a
  let descs := places.map (fun x => if (parseDesc x.1).fixed then
    rebase x.1 (workAddr t.slot x.2.1) (if (parseDesc x.1).scale = 12 then workAddr t.slot x.2.2 else 0) else x.1)
  let img' := if planLengths img then extendPlan img descs [] [] else img
  let s1 := workWrite t.slot 0 img' (if planLengths img then places.foldl copy s else s)
  setThird t.node (leAt t.body 0 8) (fun x => { x with st := .running, planId := some s1.press.nextPlan })
    (submitSelf (.third t.node (leAt t.body 0 8)) (leAt t.body 14 1 % 2) (workAddr t.slot 0) img'.length (homeOf img') s1)

/-- A third execution goes on when what it waits for stands. -/
def thirdStep (t : Third) (s : State) : State :=
  let a := nodeAddr t.node (leAt t.body 80 8)
  let n := leAt t.body 88 4
  let img := regionBytes s a n
  match t.st with
  | .plan =>
    if rangeReady s a n then
      let s1 := setThird t.node (leAt t.body 0 8) (fun x => { x with st := .tensors }) s
      if planLengths img then (thirdRanges t img).foldl (fun b r => pressRead 8 r.1 r.2 b) s1 else s1
    else s
  | .tensors => if (thirdRanges t img).all (fun r => rangeReady s r.1 r.2) then thirdSubmit t img s else s
  | _ => s

/-- The status of an ended plan, as THIRD_RESULT gives it. -/
def thirdStatus (p : Plan) : Nat := if p.st = .done then 0 else if p.refused then 2 else 3

/-- The third execution is over: the result goes out, its slot is free. -/
def thirdAnswer (t : Third) (p : Plan) (s : State) : State :=
  let req := leAt t.body 0 8
  let s1 := sendThird t.node req (thirdStatus p) (if p.st = .done then reportBytes p (nStages p.image - 1) else []) s
  let s2 := bump R.AS_CNT_PEER_SERVED (dropPlan p.id (workDrop t.slot s1))
  { s2 with assure.thirds := s2.assure.thirds.filter (fun x => !(x.node == t.node && leAt x.body 0 8 == req)) }

/-- A third execution ends; under ULPBOUND its output is written to the requester first (R164, R166, R168). -/
def fxThirdEnd (t : Third) (p : Plan) (s : State) : State :=
  let out := nodeAddr t.node (leAt t.body 96 8)
  match t.st with
  | .running =>
    (match reportInput p (nStages p.image - 1) 0 with
     | some x =>
       if p.st = .done && leAt t.body 10 1 = 1 then
         let bs := canonStream x
         let s1 := (piecesOf (leAt t.body 96 8) bs.length).foldl (fun a q =>
           issueRemote 8 true t.node 0 q.1 q.2 (slice bs (q.1 - leAt t.body 96 8) q.2) (.press 8 (nodeAddr t.node q.1)) a) s
         if rangeReady s1 out bs.length then thirdAnswer t p s1
         else setThird t.node (leAt t.body 0 8) (fun y => { y with st := .output }) s1
       else thirdAnswer t p s
     | none => thirdAnswer t p s)
  | .output => if rangeReady s out 1048576 then thirdAnswer t p s else s
  | _ => s

/-! What follows at once -/

/-- A replay's plan was handed back, or refused at load (R160, R163). -/
def followPlan (s : State) (c : Capsule) : State :=
  match c.planId.bind (planOf s) with
  | some p =>
    if p.st = .aborted then toQueued c s
    else if p.st = .fault && p.refused then refuseCap true c s
    else s
  | none => s

/-- A peer that can no longer be reached is passed over (R165). -/
def followPeer (s : State) (c : Capsule) : State :=
  match c.req with
  | some (_, n) => if c.st = .peerWait && !reachable s n then passPeer c s else s
  | none => s

/-- The images and darns in tray DRAM are lost with it: entries are STALE, slots are empty (R184, R211). -/
def loseImages (s : State) : State :=
  if islandOn 11 s || (s.assure.filled.isEmpty && s.assure.registry.all (fun e => entStale e || dramSize ≤ entAddr e)) then s
  else { s with
    assure.filled := []
    assure.wanted := []
    assure.registry := s.assure.registry.map (fun e =>
      if entAddr e < dramSize then e.take 76 ++ [e.getD 76 0 ||| 2#8] ++ e.drop 77 else e) }

/-- What an event elsewhere means for the capsules (R163): accelerators drained or powered down, SEQUENCING-DOWN, a
hardware trip, plans handed back or refused, peers lost. -/
def settleCaps (s : State) : State :=
  let s1 := if s.chip.tray = .sequencingDown then withdraw (fun _ => true) s
    else withdraw (fun c => match c.src with
      | .acc a => (accB s a).drained || (!accPowered s a && !s.chip.tripForce)
      | .node _ => false) s
  let s2 := if s1.chip.tripForce then
      (s1.assure.caps.filter (fun c => c.st == .fetching || c.st == .replaying)).foldl (fun a c => toQueued c a) s1
    else (s1.assure.caps.filter (fun c => c.st == .replaying)).foldl followPlan s1
  (s2.assure.caps.filter (fun c => c.st == .peerWait)).foldl followPeer s2

/-- Assurance follows the rest of the tray. -/
def settleAssure (s : State) : State :=
  let s0 := if s.torus.lost.isEmpty then s
    else s.torus.lost.foldl (fun a t => requestLost t a) { s with torus.lost := [] }
  let s1 := loseImages s0
  if s1.assure.caps.isEmpty then s1 else settleCaps s1

end Sys2Proof.Machine
end

