-- ==== Sys2Proof/Machine/DarnOps.lean ====
section
/-! DEFINITION. Darns (05): the bytes of a darn, the library and its index, offers to the neighbours, preparation, and
screening of the accelerators.
Log entries coded here: 97 (DESIGN CHOICE), 99 (DEDUCED), 100 (DESIGN CHOICE), 104 (DEDUCED), 105 (DEDUCED), 106
(DEDUCED), 111 (DEDUCED), 220 (DEDUCED), 222 (DEDUCED). -/

namespace Sys2Proof.Machine

/-! Bytes of a darn (R178) -/

/-- DARN_ID of a darn: the first 16 bytes of SHA-512 over bytes 32 to LENGTH − 65. -/
def darnHash (d : Bytes) : Bytes := (sha512 (slice d 32 (d.length - 96))).take 16

/-- What the signature covers: DARN_ID, LENGTH and ORIGIN. -/
def darnSigned (d : Bytes) : Bytes := slice d 8 16 ++ slice d 24 4 ++ slice d 28 2

/-- Bytes 32 to LENGTH − 65 of a captured darn. -/
def darnBody (s : State) (k : Capture) (digest out : Bytes) : Bytes :=
  fix 64 k.graph ++ leBytes 8 (taiNow s) ++ fix 16 (Config.accPart k.acc) ++ leBytes 4 256 ++ leBytes 4 k.frag.length
    ++ leBytes 4 (256 + k.frag.length) ++ leBytes 4 (k.data.length + out.length) ++ leBytes 2 k.outT ++ zeros 6
    ++ fix 64 digest ++ zeros 48 ++ k.frag ++ k.data ++ out

/-- The darn that a capture makes, signed with the attestation key. -/
def makeDarn (s : State) (k : Capture) (digest out : Bytes) : Bytes :=
  let b := darnBody s k digest out
  let n := b.length + 96
  let h := leBytes 4 0x4E524144 ++ [1#8, 3#8, 0#8, 0#8] ++ (sha512 b).take 16 ++ leBytes 4 n ++ leBytes 2 (nodeId s) ++ zeros 2
  h ++ b ++ signWith s 1 (darnSigned h)

/-- DARN_ID of bytes as a number. -/
def darnNum (id : Bytes) : Nat := leAt id 0 16

/-- Fields of a darn. -/
abbrev darnKind (d : Bytes) : Nat := leAt d 6 1
abbrev darnOrigin (d : Bytes) : Nat := leAt d 28 2
abbrev darnOutT (d : Bytes) : Nat := leAt d 136 2
abbrev darnExpect (d : Bytes) : Bytes := slice d 144 64
def darnPlan (d : Bytes) : Bytes := slice d (leAt d 120 4) (leAt d 124 4)
def darnData (d : Bytes) : Bytes := slice d (leAt d 128 4) (leAt d 132 4)

/-- Attestation keys that the cache holds for a node; a flooded pair names no node. -/
def originKeys (s : State) (node : Nat) : List Bytes :=
  if node = nodeId s then [keyPublic s 1]
  else (s.sec.keyCache.filter (fun e => e.1 == node || e.1 == 0xFFFF)).map (fun e => slice e.2 40 32)

/-- The checks of a fetched darn (R181): it is the darn offered, its identity is that of its bytes, and its signature
verifies under its origin's attestation key. -/
def darnOk (s : State) (w : DarnWork) (d : Bytes) : Bool :=
  leAt d 0 4 == 0x4E524144 && leAt d 4 1 == 1 && leAt d 5 1 == 3 && d.length == w.len && leAt d 24 4 == w.len
    && 320 ≤ w.len && w.len ≤ 1048576 && darnOrigin d == w.origin
    && darnNum (slice d 8 16) == w.id && darnHash d == slice d 8 16
    && leAt d 120 4 + leAt d 124 4 ≤ w.len - 64 && leAt d 128 4 + leAt d 132 4 ≤ w.len - 64
    && (originKeys s w.origin).any (fun k => Config.edVerify k (darnSigned d) (d.drop (w.len - 64)))

/-! The library (R180) -/

/-- A darn of the index. -/
def darnOf (s : State) (id : Nat) : Option Darn := s.assure.darns.find? (fun d => d.id == id)

/-- Change a darn of the index. -/
def setDarn (id : Nat) (f : Darn → Darn) (s : State) : State :=
  { s with assure.darns := s.assure.darns.map (fun d => if d.id = id then f d else d) }

/-- Slots of the library: 1 MiB each. -/
def libSlots (s : State) : Nat := min 65536 (areaSize s R.LIB_AREA / 2 ^ 20)
def slotAddr (s : State) (slot : Nat) : Nat := areaBase s R.LIB_AREA + slot * 2 ^ 20

/-- The slot holds its darn. -/
def darnHeld (s : State) (d : Darn) : Bool := s.assure.filled.contains d.slot && d.slot < libSlots s

/-- The non-local darn with HITS zero that was accepted longest ago. -/
def darnVictim (s : State) : Option Darn :=
  (s.assure.darns.filter (fun d => !d.isLocal && d.hits == 0)).foldl (fun o d => match o with
    | none => some d
    | some b => if d.order < b.order then some d else some b) none

/-- The order of acceptance of the next darn. -/
def nextOrder (s : State) : Nat := s.assure.darns.foldl (fun n d => max n (d.order + 1)) 1

/-- A darn's bytes take their place in the library. -/
def fillSlot (d : Darn) (bs : Bytes) (s : State) : State :=
  let s1 := engineWrite (slotAddr s d.slot) bs s
  { s1 with assure.filled := d.slot :: s1.assure.filled.filter (fun x => x != d.slot)
            assure.wanted := s1.assure.wanted.filter (fun x => x != d.id)
            assure.libFull := false }

/-- Enter a darn into the library: a free slot, or that of the darn it replaces; otherwise it is refused, with an event. -/
def enterDarn (d : Darn) (bs : Bytes) (s : State) : State :=
  let slot := firstFree s.assure.darns.length 0 (s.assure.darns.map (fun x => x.slot))
  let put (n : Nat) (t : State) : State :=
    let e := { d with slot := n, order := nextOrder t }
    fillSlot e bs { t with assure.darns := t.assure.darns.concat e }
  if slot < libSlots s then put slot s
  else match darnVictim s with
    | some v =>
      if libSlots s ≤ v.slot then raise 9 5 noInst (leBytes 16 d.id) { s with assure.libFull := true }
      else put v.slot { s with assure.darns := s.assure.darns.filter (fun x => x.id != v.id) }
    | none => raise 9 5 noInst (leBytes 16 d.id) { s with assure.libFull := true }

/-- A newly prepared KIND 0 darn goes to the front of every accelerator's cycle (R183). -/
def frontDarn (id : Nat) (s : State) : State :=
  { s with assure.front := (List.range 8).foldl (fun m a => SMap.upd [] m a (fun l => id :: l)) s.assure.front }

/-! Offers (R181, R184) -/

/-- Send a message straight to the neighbour of seam k. -/
def sendSeam (k : Nat) (rsp : Bool) (m : Msg) (s : State) : State :=
  sendFlits (8 + k) (msgFlits { m with src := nodeId s, dst := seamNeighbour s k, hops := 1 } (vcOf false rsp (crossesDateline s k))) s

/-- The trained seams, one for each neighbour. -/
def trainedSeams (s : State) : List Nat :=
  (List.range 4).filter (fun k => (port s (8 + k)).st == .up && seamNeighbour s k != nodeId s
    && !(List.range k).any (fun j => (port s (8 + j)).st == .up && seamNeighbour s j == seamNeighbour s k))

/-- DARN_OFFER: DARN_ID, ORIGIN, LENGTH and the darn's address here. -/
def offerMsg (s : State) (d : Darn) : Msg :=
  let len := leAt (dramRead s (slotAddr s d.slot + 24) 4) 0 4
  { cls := 1, typ := 0x12, len := 30,
    payload := leBytes 16 d.id ++ leBytes 2 d.origin ++ leBytes 4 len ++ leBytes 8 (slotAddr s d.slot) }

/-- Offer a held darn on seams. -/
def offerOn (id : Nat) (ks : List Nat) (s : State) : State :=
  match darnOf s id with
  | some d =>
    if darnHeld s d && !d.quarantined then ks.foldl (fun a k => sendSeam k false (offerMsg s d) a) s else s
  | none => s

/-- Offer a darn once to each trained neighbour, while OFFER_EN is set. -/
def offerAll (id : Nat) (s : State) : State := if rdBit s R.AS_CTRL 3 then offerOn id (trainedSeams s) s else s

/-- Indexed darns whose slot is empty: each is asked for once of every trained neighbour (R184). -/
def emptyDarns (s : State) : List Darn :=
  s.assure.darns.filter (fun d => !s.assure.filled.contains d.slot && d.slot < libSlots s && !s.assure.wanted.contains d.id)

/-- Ask the neighbours for the darns that the library has lost. -/
def wantDarns (s : State) : State :=
  if rdBit s R.AS_CTRL 3 && memReady s && !(trainedSeams s).isEmpty then
    (emptyDarns s).foldl (fun a d =>
      (trainedSeams a).foldl (fun b k => sendSeam k false { cls := 1, typ := 0x13, len := 16, payload := leBytes 16 d.id } b)
        { a with assure.wanted := a.assure.wanted.concat d.id }) s
  else s

/-! Preparation (R181, R182) -/

/-- Change a darn on its way. -/
def setFetch (id : Nat) (f : DarnWork → DarnWork) (s : State) : State :=
  { s with assure.fetches := s.assure.fetches.map (fun w => if w.id = id then f w else w) }

/-- Forget a darn on its way. -/
def dropFetch (w : DarnWork) (s : State) : State :=
  let s1 := workDrop w.slot s
  let s2 := { s1 with press.ext := s1.press.ext.keep (fun k =>
    !(extKey 8 (nodeAddr w.node w.addr) ≤ k && k < extKey 8 (nodeAddr w.node (w.addr + w.len)))) }
  { s2 with assure.fetches := s2.assure.fetches.filter (fun x => x.id != w.id) }

/-- The bytes of a darn that has been fetched. -/
def fetchedDarn (s : State) (w : DarnWork) : Bytes := regionBytes s (nodeAddr w.node w.addr) w.len

/-- Submit the preparation of a fetched darn, on a fixed cluster for a second run. -/
def submitPrep (w : DarnWork) (d : Bytes) (home : Option Nat) (s : State) : State :=
  let img := fragmentPlan (darnPlan d) (darnOutT d) w.slot
  let s1 := workWrite w.slot workData (darnData d) (workWrite w.slot 0 img s)
  setFetch w.id (fun x => { x with planId := some s1.press.nextPlan })
    (submitSelf (.prep w.id) 3 (workAddr w.slot 0) img.length home s1)

/-- Another cluster than those of a mask: an idle one before a busy one, a usable one before a suspended one. -/
def otherCluster (s : State) (mask : Nat) : Nat :=
  let cs := (List.range 8).filter (fun c => !mask.testBit c)
  let good := cs.filter (fun c => !(cluster s c).susp && (cluster s c).st != .suspended)
  ((good.filter (fun c => (cluster s c).st == .idle)).head?.orElse (fun _ => good.head?.orElse (fun _ => cs.head?))).getD 0

/-- A prepared darn is entered and offered onward (R181). -/
def fxPrepared (w : DarnWork) (d : Bytes) (s : State) : State :=
  let e : Darn := { id := w.id, origin := w.origin, kind := darnKind d, prepared := true, slot := 0 }
  let s1 := enterDarn e d (dropFetch w s)
  if (darnOf s1 w.id).isSome then offerAll w.id (if e.kind = 0 then frontDarn w.id s1 else s1) else s1

/-- A darn that two clusters contradict is quarantined, with an event (R182). -/
def fxQuarantine (w : DarnWork) (d : Bytes) (s : State) : State :=
  let e : Darn := { id := w.id, origin := w.origin, kind := darnKind d, quarantined := true, slot := 0 }
  raise 9 5 noInst (leBytes 16 w.id) (enterDarn e d (dropFetch w s))

/-- A preparation ends (R182). -/
def fxPrepEnd (w : DarnWork) (p : Plan) (s : State) : State :=
  let d := fetchedDarn s w
  let s1 := dropPlan p.id s
  if p.st = .done then
    if reportBytes p (nStages p.image - 1) = darnExpect d then
      fxPrepared w d (match w.firstOn with
        | some m => faultySelf m s1
        | none => s1)
    else match w.firstOn with
      | none => submitPrep { w with firstOn := some (planMask p) } d (some (otherCluster s1 (planMask p)))
                  (setFetch w.id (fun x => { x with firstOn := some (planMask p) }) s1)
      | some _ => fxQuarantine w d s1
  else if p.st = .aborted then submitPrep w d none s1
  else dropFetch w s1

/-! Capture (R179) -/

/-- DARN_ID and the captured flag enter the verdict record of a capture. -/
def patchRecord (seq : Nat) (id : Bytes) (s : State) : State :=
  let f (r : Bytes) : Bytes :=
    if leAt r 0 8 = seq then
      r.take 54 ++ leBytes 1 (leAt r 54 1 ||| 2) ++ (r.drop 55).take 329 ++ fix 16 id ++ r.drop 400
    else r
  { s with assure.vlog := s.assure.vlog.map f }

/-- A capture is over: its working slot is free. -/
def dropCapture (k : Capture) (s : State) : State :=
  let s1 := dropPlan k.planId (workDrop k.slot s)
  { s1 with assure.captures := s1.assure.captures.filter (fun x => x.planId != k.planId) }

/-- The capture plan ends: the darn is signed, entered as a local darn, and offered (R178 to R181). -/
def fxCaptured (k : Capture) (p : Plan) (s : State) : State :=
  let n := nStages p.image - 1
  if p.st = .done then
    let out := ((reportInput p n 0).map rowsBytes).getD []
    let d := makeDarn s k (reportBytes p n) out
    let id := slice d 8 16
    let e : Darn := { id := darnNum id, origin := nodeId s, isLocal := true, prepared := true, slot := 0 }
    let s1 := enterDarn e d (countSign (dropCapture k s))
    if (darnOf s1 e.id).isSome then
      offerAll e.id (raise 9 5 k.src.code id (patchRecord k.seq id (frontDarn e.id s1)))
    else s1
  else raise 9 5 k.src.code (zeros 16) (dropCapture k s)

/-! Screening (R183, R367) -/

/-- Prepared KIND 0 darns that the library holds, in slot order. -/
def screenable (s : State) : List Darn :=
  sortBy (fun a b => a.slot ≤ b.slot)
    (s.assure.darns.filter (fun d => d.prepared && !d.quarantined && d.kind == 0 && darnHeld s d))

/-- The next darn for accelerator a: the front of its cycle, else the next slot after the last one screened. -/
def nextScreen (s : State) (a : Nat) : Option Darn :=
  let ds := screenable s
  match (s.assure.front.get [] a).find? (fun id => ds.any (fun d => d.id == id)) with
  | some id => ds.find? (fun d => d.id == id)
  | none => (ds.find? (fun d => s.assure.cycle.get 0 a ≤ d.slot)).orElse (fun _ => ds.head?)

/-- SCREEN to an accelerator: DARN_ID and the darn's address. -/
def sendScreen (a : Nat) (d : Darn) (s : State) : State :=
  let first := (s.assure.front.get [] a).contains d.id
  sendAcc a false { cls := 1, typ := 6, len := 24, payload := leBytes 16 d.id ++ leBytes 8 (slotAddr s d.slot) }
    { s with
      assure.screening := SMap.set none s.assure.screening a (some d.id)
      assure.front := SMap.upd [] s.assure.front a (fun l => l.filter (fun x => x != d.id))
      assure.cycle := if first then s.assure.cycle else SMap.set 0 s.assure.cycle a (d.slot + 1) }

/-- A screening result (R183): another digest is FAULTY-ACC with MODE 2, and HITS counts it. -/
def fxScreened (a : Nat) (d : Darn) (digest : Bytes) (s : State) : State :=
  let s0 := (dramLoad 4 (slotAddr s d.slot + 144) 64 s).1
  let s1 := bump R.AS_CNT_SCREEN_RUNS { s0 with assure.screening := SMap.set none s0.assure.screening a none }
  let want := dramRead s0 (slotAddr s d.slot + 144) 64
  if digest = want then s1
  else
    let s2 := beginDrain a (bump R.AS_CNT_FAULTY_ACC (setDarn d.id (fun x => { x with hits := x.hits + 1 }) s1))
    let c : Capsule := { src := .acc a, id := 0, body := zeros 1 ++ [2#8] ++ zeros 270, pressDigest := want, accDigest := digest
                         darnId := leBytes 16 d.id }
    accFaulty a 2 (leBytes 16 d.id) (logVerdict a Vd.FAULTY_ACC (fun n => verdictRecord s2 n c Vd.FAULTY_ACC) s2)

end Sys2Proof.Machine
end

