-- ==== Sys2Proof/Machine/Settle.lean ====
section
/-! DEFINITION. What follows from any command at once: the islands that the rails supply, the degrade causes (R20) and
the move between READY and DEGRADED that they make.
Log entries coded here: 3 (DESIGN CHOICE), 9 (DEDUCED), 10 (DEDUCED), 35 (DEDUCED), 38 (DEDUCED), 39 (DEDUCED), 41
(DEDUCED), 42 (DEDUCED), 138 (DEDUCED), 155 (DEDUCED), 244 (DEDUCED), 254 (DEDUCED). -/

namespace Sys2Proof.Machine

/-! Degrade causes -/

/-- RAIL_FAULT: a rail is FAILED (R304). -/
def railFault (s : State) : Bool := s.st.rails.any (fun e => e.2.st == .failed)

/-- A port carries traffic, or is in a fast retrain of it. -/
def portTrained (s : State) (k : Nat) : Bool := (port s k).st == .up || (port s k).st == .retrain

/-- The bits that ports set stand for their conditions from the moment the boot ROM starts: the register reads as zero at reset,
when no port has trained (01). DEDUCED: the field table names the conditions, and the register map the reset value. -/
def portBitsAct (s : State) : Bool := s.chip.boot != .held

/-- ACC_DOWN: drained, or its port not trained, as it is while a fault keeps the accelerator powered down (01). -/
def accDown (s : State) (a : Nat) : Bool := (accB s a).drained || (portBitsAct s && !portTrained s a)

/-- CLUSTER_SUSP (R105). -/
def clusterSusp (s : State) (c : Nat) : Bool := (cluster s c).susp || (cluster s c).st == .suspended

/-- SEAM_DOWN: the seam port does not forward (01, R248). -/
def seamDown (s : State) (k : Nat) : Bool := portBitsAct s && ((port s (8 + k)).st != .up || !rdBit s R.ROUTE_CTRL 0)

/-- LEAK_RELAXED: a relaxed loop is LOST (R398). -/
def leakRelaxed (s : State) : Bool := s.heat.loops.any (fun e => e.2.relaxed.isSome && e.2.cls == .lost)

/-- DEGRADE_CAUSE (R20, 01): each bit is set while its condition holds. -/
def degradeCause (s : State) : Nat :=
  bitsOf 8 (accDown s) + 2 ^ 8 * bitsOf 8 (clusterSusp s) + 2 ^ 16 * bitsOf 4 (seamDown s)
    + 2 ^ 20 * b2n (anyBroken s) + 2 ^ 21 * b2n (leakRelaxed s) + 2 ^ 22 * b2n s.assure.selfTag
    + 2 ^ 23 * b2n (railFault s)

/-- READY becomes DEGRADED when a degrade cause is set, and DEGRADED becomes READY when the last one clears
(R20, R21). -/
def settleTray (s : State) : State :=
  if s.chip.tray = .ready && degradeCause s ≠ 0 then setTray .degraded s
  else if s.chip.tray = .degraded && degradeCause s = 0 then setTray .ready s
  else s

/-! Islands -/

/-- Every rail of group 9 is ON. -/
def ownRailsOn (s : State) : Bool :=
  let rs := (presentRails s.st.image).filter (fun r => railGroup s.st.image r == 9)
  !rs.isEmpty && rs.all (fun r => (rail s r).st == .on)

/-- The tray is raising or running what a hardware trip would lower. -/
def raised (s : State) : Bool :=
  (s.chip.tray == .sequencingUp || s.chip.tray == .ready || s.chip.tray == .degraded) && !s.chip.tripForce

/-- An island is on, or still shutting down: a re-enable waits for that (R21). -/
def islandBusy (i : Nat) (s : State) : Bool := islandOn i s || s.chip.draining.getLsbD i

/-- A supplies check of one A port: its island follows its accelerator's rails (R218). -/
def settleAcc (a : Nat) (s : State) : State :=
  if accPowered s a && !s.chip.tripForce then (if islandBusy (12 + a) s then s else portPowerUp a s)
  else if islandAnswers (12 + a) s then portPowerDown a s else s

/-- Seam and Suorta islands, which the standby part raises: the Suorta link trains as soon as strand 0 has reported VSER good
(R251), the seams from STANDBY on (01). -/
def settleLinks (s : State) : State :=
  if standbyUp s then
    let s1 := if islandBusy 24 s then s else suPowerUp s
    if s1.chip.tray = .off then s1
    else [8, 9, 10, 11].foldl (fun a k => if islandBusy (12 + k) a || a.chip.tripForce then a else portPowerUp k a) s1
  else s

/-- The data plane and the MEM island, and the clusters: raised with the TAL8's own rails, lowered in
SEQUENCING-DOWN after their crossings have drained (R17, R18, R209). -/
def settleCore (s : State) : State :=
  if raised s then
    let s1 := if vcoreOn s && !islandBusy 25 s then { s with chip.islands := s.chip.islands ||| (1#26 <<< 25) } else s
    if ownRailsOn s1 && !islandBusy 11 s1 then memPowerUp s1 else s1
  else if coreUpIslands s && !vcoreStands s then coreIslandsOff s
  else if s.chip.tray = .sequencingDown then
    let lower : BitVec 26 := s.chip.islands &&& 0x2000FF8#26
    { s with chip.draining := s.chip.draining ||| lower }
  else s

/-- The islands follow their supplies. -/
def settleIslands (s : State) : State :=
  if s.st.image.isEmpty then s
  else (List.range 8).foldl (fun a k => settleAcc k a) (settleLinks (settleCore s))

/-- An enable of the host-line cache that waited for plans goes on when the last of them has ended (R259). -/
def settleHlc (s : State) : State :=
  if s.su.hlcEnableWaits && !s.su.hlcHolders.any (fun id => (s.press.clusters.any (fun e => e.2.plan == some id))) then
    finishLong .hlcCtrl St.DONE [] (setHlcActive true { s with su.hlcEnableWaits := false, su.hlcHolders := [] })
  else s

/-! Accelerator power (R311) -/

/-- Rails of accelerator a's group in the slot table. -/
def groupSlots (s : State) (a : Nat) : List Nat :=
  (slotRails s.st.image).filter (fun r => railGroup s.st.image r == a + 1)

/-- A shut-down of accelerator a's group is in progress. -/
def groupClosing (s : State) (a : Nat) : Bool :=
  s.st.downs.any (fun d => d.why == .accOff a
    || (d.cur.toList ++ d.rails).any (fun r => railGroup s.st.image r == a + 1))

/-- ACC_POWER ON is carried out: the group's FAILED marks clear, and strand 1 + a starts, or the group's slots in MODE 1
(R306, R311). -/
def startAcc (a : Nat) (s : State) : State :=
  let s1 := clearMarks (fun r => railGroup s.st.image r == a + 1) { s with st.accWait := s.st.accWait.erase a }
  if slotMode s1 then { s1 with st.slotUp := s1.st.slotUp ++ groupSlots s1 a }
  else startStrand (1 + a) (imgAccEntry s1.st.image a) s1

/-- Enables that wait for a shut-down of their group go on once it has completed (09, collisions). -/
def settleAccStart (s : State) : State :=
  s.st.accWait.foldl (fun t a => if groupClosing t a then t else startAcc a t) s

/-- The sequence of an ACC_POWER ON has come to its end. -/
def accUpOver (s : State) (a : Nat) : Bool :=
  !s.st.accWait.contains a &&
    (if slotMode s then
      (groupSlots s a).all (fun r => !s.st.slotUp.contains r && !s.st.slotWait.contains r && (rail s r).st != .rising)
     else (strand s (1 + a)).run == 0)

/-- Every rail of an accelerator's group is ON. -/
def groupOn (s : State) (a : Nat) : Bool :=
  (presentRails s.st.image).all (fun r => railGroup s.st.image r != a + 1 || (rail s r).st == .on)

/-- An ACC_POWER order in progress: its final status, once it has one. -/
def accPowerEnd (s : State) (a : Nat) (on : Bool) : Option Nat :=
  if on then (if accUpOver s a then some (if groupOn s a then St.DONE else St.FAULT) else none)
  else if s.st.downs.any (fun d => d.why == .accOff a) then none else some St.FAULT

/-- ACC_POWER orders end with their sequences (R273, R311). -/
def settleAccPower (s : State) : State :=
  s.longs.foldl (fun t l =>
    match l.kind with
    | .accPower a on =>
      (match accPowerEnd t a on with
       | some st => finishLong (.accPower a on) st (if st = St.DONE then [] else detail noDetail 0) t
       | none => t)
    | _ => t) (settleAccStart s)

/-! Two-wire ports -/

/-- A request that meets a STUCK port ends at once (R413, R414). -/
def settleStuck (s : State) : State :=
  (s.tw.filter (fun e => !e.2.queue.isEmpty && twState e.1 s == 5)).foldl (fun a e => failQueued e.1 a) s

/-! The Press -/

/-- Reads that waited for room go out, words that no longer wait have passed, and causes of waiting that have ceased are shown no
longer (R84, R93, R106). -/
def settlePress (s : State) : State :=
  let s1 := if s.press.readQueue.isEmpty then s else pumpReads s.press.readQueue s
  let s2 := if s1.press.lanes.isEmpty then s1 else drainLanes s1
  stallNow s2

/-- What follows from a command at once: sequences, islands, assurance, the tray, tickets and the host-line cache move on as
far as the new state lets them. -/
def settled (s : State) : State :=
  settlePress (settleHlc (settleMeter (settleTime (settleTray (settleAssure (settleIslands (settleAccPower (settleRails (settleStuck s)))))))))

/-- A command's outcome: its effect, and what follows from it at once. -/
def done (s : State) : Host.Outcome State Fault Refusal := .next (settled s)

end Sys2Proof.Machine
end

