-- ==== Sys2Proof/Machine/Heat.lean ====
section
/-! DEFINITION. Meanings of temperature, cooling and leaks (12). Temperatures are in 0.1 °C.
Log entries coded here: 182 (DEDUCED), 183 (DEDUCED), 184 (DESIGN CHOICE), 185 (DEDUCED), 191 (DEDUCED), 195
(DEDUCED). -/

namespace Sys2Proof.Machine

/-! Ring-oscillator sensors (R371, R376, R382) -/

def setRo (n : Nat) (f : Ro → Ro) (s : State) : State := { s with heat.ro := SMap.upd {} s.heat.ro n f }

/-- Twice the median of readings, the mean of the two middle ones where they are even in number (R376). -/
def median2 (xs : List Int) : Int :=
  let ys := sortBy (fun a b => a ≤ b) xs
  ys.getD ((ys.length - 1) / 2) 0 + ys.getD (ys.length / 2) 0

/-- The other healthy sensors of a sensor's zone. -/
def zoneOf (n : Nat) : Nat :=
  if n < 40 then n / 5 else if n < 72 then 8 + (n - 40) / 8 else if n < 76 then 12 else if n < 84 then 13
  else if n < 89 then 14 else 15

/-- A conversion of one sensor that is not broken: its counts of the conditions of R376, but NEIGHBOUR's. -/
def Ro.convert (r : Ro) (count : Nat) (t : Int) (at_ : Nat) : Ro :=
  let jump := match r.temp with
    | some p => decide (30 < (t - p).natAbs)
    | none => false
  { r with
    temp := some t
    count := count
    same := if r.temp.isSome && r.count == count then r.same + 1 else 1
    outside := if t < -400 || 1500 < t then r.outside + 1 else 0
    jumps := r.jumps.filter (fun j => at_ ≤ j + 488) ++ (if jump then [at_] else []) }

/-- Cause of a sensor that is broken, in the order of R376; 0 none. -/
def Ro.broken (r : Ro) : Nat :=
  if 256 ≤ r.same then 1
  else if 4 ≤ r.outside then 2
  else if 4 ≤ r.jumps.length then 3
  else if 490 ≤ r.away then 4
  else 0

/-- Every healthy sensor converts. -/
def convertAll (counts : List Nat) (temps : List Int) (s : State) : State :=
  (List.range 96).foldl (fun a n =>
    if (ro a n).cause ≠ 0 then a
    else setRo n (fun r => r.convert (counts.getD n 0) (temps.getD n 0) a.heat.convs) a)
    { s with heat.convs := s.heat.convs + 1 }

/-- How far a sensor has stood away from the median of at least two other healthy sensors of its zone. -/
def neighbours (s : State) (n : Nat) : State :=
  let r := ro s n
  let others := ((healthy s (zoneOf n)).filter (fun m => m != n)).map (fun m => (ro s m).temp.getD 0)
  let far := 2 ≤ others.length && decide (300 < (2 * r.temp.getD 0 - median2 others).natAbs)
  if r.cause ≠ 0 then s else setRo n (fun x => { x with away := if far then x.away + 1 else 0 }) s

/-- Declare a sensor broken: it stays so until cold reset, and one event records it (R377). -/
def breakSensor (s : State) (n : Nat) : State :=
  let c := (ro s n).broken
  if (ro s n).cause ≠ 0 || c = 0 then s
  else
    let s1 := setRo n (fun r => { r with cause := c }) s
    raise 1 4 n (regData (roWord s1 n)) s1

/-- A zone votes at a threshold in 0.1 °C: two of its healthy sensors, or its only one, at two consecutive conversions;
without a healthy sensor at once. `before` is the state of the conversion before. -/
def votes (before s : State) (z : Nat) (limit : Int) : Bool :=
  let hs := healthy s z
  let hot := hs.filter (fun n =>
    limit ≤ roActs s n && (ro before n).temp.isSome && limit ≤ (ro before n).temp.getD 0 + roBias before)
  hs.isEmpty || (hs.length == 1 && hot.length == 1) || 2 ≤ hot.length

/-- Every zone is below 90 °C over its healthy sensors, of which it has one (R385). -/
def restartCool (s : State) : Bool :=
  (List.range 16).all (fun z => !(healthy s z).isEmpty && (healthy s z).all (fun n => decide (roActs s n < 900)))

/-- The restart count of R385. -/
def countCool (s : State) : State :=
  if !s.chip.tripForce || !restartCool s then { s with heat.coolSince := none }
  else match s.heat.coolSince with
    | some _ => s
    | none => { s with heat.coolSince := some (now s) }

/-- A conversion of all sensors: broken ones are declared, zones vote, and a vote is a trip (R371, R376, R382, R383). -/
def fxRingConversion (counts : List Nat) (temps : List Int) (s : State) : State :=
  let s1 := (List.range 96).foldl neighbours (convertAll counts temps s)
  let s2 := (List.range 96).foldl breakSensor s1
  let vs := (List.range 16).filter (fun z => votes s s2 z (10 * (tripC s2 : Int)))
  let s3 := countCool { s2 with
    heat.voting := BitVec.ofNat 16 (bitsOf 16 vs.contains)
    heat.zoneLast := vs.getLast?.getD s2.heat.zoneLast }
  if votes s s2 12 1300 then aonTrip 12 s3
  else match vs with
    | [] => s3
    | z :: _ => hwTrip z s3

def execRingSensorConversion (counts : List Nat) (temps : List Int) (s : State) : Host.Outcome State Fault Refusal :=
  done (if aonRuns s then fxRingConversion counts temps s else s)

/-! Diodes and thermistors (R372, R373, R378, R386) -/

def setDiode (d : Nat) (f : Sens → Sens) (s : State) : State :=
  { s with heat.diodes := SMap.upd {} s.heat.diodes d f }
def setTherm (t : Nat) (f : Sens → Sens) (s : State) : State :=
  { s with heat.therms := SMap.upd {} s.heat.therms t f }

/-- One conversion: a reading, or a fault that is recorded once. -/
def Sens.takes (x : Sens) (r : Option Int) : Sens :=
  match r with
  | some t => { x with temp := t, ok := true }
  | none => { x with fault := true, ok := false }

/-- A remote diode converts; a healthy one at or above its limit sets SAFETY for its accelerator. -/
def fxDiode (d : Nat) (r : Option Int) (s : State) : State :=
  let x := s.heat.diodes.get {} d
  let s1 := setDiode d (fun x => x.takes r) s
  let y := s1.heat.diodes.get {} d
  let a := rdFld s (R.RD_CFG d) 27 24
  if y.fault then
    (if x.fault then s1 else raise 1 5 d (regData (sensWord (diodeRead s1 d) true)) s1)
  else if a < 8 && 10 * (rdFld s (R.RD_CFG d) 23 16 : Int) ≤ y.temp then
    { s1 with heat.diodeHot := s1.heat.diodeHot ||| (1#8 <<< a) }
  else s1

def execRemoteDiodeConversion (diode : Fin 16) (reading : Option Int) (s : State) : Host.Outcome State Fault Refusal :=
  done (if rdBit s (R.RD_CFG diode) 31 then fxDiode diode reading s else s)

/-- Every diode of an accelerator reads at or below its limit less 5 K (R386). -/
def diodesCool (s : State) (a : Nat) : Bool :=
  (diodesOf s a).all (fun d => decide (diodeRead s d ≤ 10 * ((rdFld s (R.RD_CFG d) 23 16 : Int) - 5)))

def execDiodeSafetyClear (a : Fin 8) (s : State) : Host.Outcome State Fault Refusal :=
  done (if diodesCool s a then { s with heat.diodeHot := s.heat.diodeHot &&& ~~~(1#8 <<< a.val) } else s)

/-- T = 1 / (1 / 298.15 + ln(Rt / Rn) / β) − 273.15 °C, to the nearest 0.1 °C (R373); without a nominal resistance or a
β the spec states no value, and it is free. -/
def thermTemp (s : State) (t ohms : Nat) : Int :=
  let rn := 100 * rdFld s (R.TH_CFG t) 23 16
  let beta := rdFld s (R.TH_CFG t) 15 0
  if rn = 0 || beta = 0 then Config.unstated 373 (ohms * 32 + t)
  else
    let inv := fxOne * 100 / 29815 + (fxLogOf ohms 0 - fxLogOf rn 0) / beta
    (20 * (fxDiv fxOne inv) - 5463 * fxOne + fxOne) / (2 * fxOne)

/-- A thermistor converts; below 100 Ω or above 1 MΩ it is faulted. -/
def fxTherm (t ohms : Nat) (s : State) : State :=
  let x := s.heat.therms.get {} t
  let r := if ohms < 100 || 1000000 < ohms then none else some (thermTemp s t ohms)
  let s1 := setTherm t (fun x => x.takes r) s
  if r.isNone && !x.fault then raise 1 5 t (regData (sensWord (thermRead s1 t) true)) s1 else s1

def execThermistorConversion (input : Fin 32) (ohms : Nat) (s : State) : Host.Outcome State Fault Refusal :=
  done (if rdBit s (R.TH_CFG input) 31 then fxTherm input ohms s else s)

/-- A faulted input has converted within range for 1 s (R378). -/
def fxInputClear (thermistor : Bool) (i : Nat) (s : State) : State :=
  let clear (x : Sens) : Sens := if x.ok then { x with fault := false } else x
  if thermistor then setTherm i clear s else setDiode i clear s

def execInputFaultClear (thermistor : Bool) (input : Fin 32) (s : State) : Host.Outcome State Fault Refusal :=
  done (if thermistor || input.val < 16 then fxInputClear thermistor input s else s)

/-! Trims (R379) -/

/-- Local sensors of the islands (R374). -/
def localSensors : List Nat :=
  (List.range 8).map (fun c => 5 * c) ++ (List.range 4).map (fun q => 40 + 8 * q)
    ++ (List.range 4).map (fun i => 72 + i) ++ (List.range 8).map (fun a => 76 + a)
    ++ (List.range 5).map (fun k => 84 + k) ++ [89]

/-- Twice the reading that an island compensates against; none where its zone has no healthy sensor. -/
def trimTemp (s : State) (n : Nat) : Option Int :=
  if (ro s n).cause = 0 then some (2 * (ro s n).temp.getD 0)
  else match (healthy s (zoneOf n)).map (fun m => (ro s m).temp.getD 0) with
    | [] => none
    | xs => some (median2 xs)

/-- A table at twice a reading: linear between its points, two-hundredfold; beyond the table the end point. -/
def trimAt (table : Nat → Int) (t : Int) : Int :=
  if t ≤ -800 then 200 * table 0
  else if 3000 ≤ t then 200 * table 19
  else
    let i := ((t + 800) / 200).toNat
    200 * table i + (table (i + 1) - table i) * ((t + 800) % 200)

/-- Each island's trims are set from its local sensor. -/
def fxTrim (s : State) (n : Nat) : State :=
  match trimTemp s n with
  | none => s
  | some t => { s with heat.oscTrim := SMap.set none s.heat.oscTrim n (some (trimAt (Config.oscTrim n) t))
                       heat.gapTrim := SMap.set none s.heat.gapTrim n (some (trimAt (Config.gapTrim n) t)) }

def execTrimUpdate (s : State) : Host.Outcome State Fault Refusal :=
  done (if aonRuns s then localSensors.foldl fxTrim s else s)

/-! The thermal limit (R381) -/

/-- One step of a cluster's thermal limit. -/
def thermStep (s : State) (c : Nat) : State :=
  let t := maxInt 0 ((zonesOfCluster c).map (zoneActs s))
  let w := (s.heat.raiseIn.get 0 c) - 1
  let keep (n : Nat) (a : State) : State := { a with heat.raiseIn := SMap.set 0 a.heat.raiseIn c n }
  if (cluster s c).st = .off then s
  else if leakHolds s 8 then keep w (setCl c (fun k => { k with thermMhz := 400 }) s)
  else if thrEff s ≤ t then keep w (setCl c (fun k => { k with thermMhz := max 400 (k.thermMhz - 50) }) s)
  else if t + 20 ≤ thrEff s && s.heat.raiseIn.get 0 c = 0 then
    keep 9 (setCl c (fun k => { k with thermMhz := min 1600 (k.thermMhz + 25) }) s)
  else keep w s

def execThermalLimitStep (s : State) : Host.Outcome State Fault Refusal :=
  done (if aonRuns s then (List.range 8).foldl thermStep s else s)

/-! Cooling (R388 to R395) -/

/-- One millisecond of an override passes; 0xFF_FFFF lasts until the next order. -/
def ageOverride (s : State) (c : Nat) : State :=
  let n := rdFld s (R.CH_OVR c) 31 8
  if n = 0 || n = 0xFFFFFF then s else wrFld (R.CH_OVR c) 31 8 (n - 1) s

def execCoolingOutputUpdate (s : State) : Host.Outcome State Fault Refusal :=
  done (if aonRuns s then setOutputs ((List.range 56).foldl ageOverride s) else s)

/-- WDG_MS as it acts. -/
def coolWdg (s : State) : Nat := max 10 (min 100 (rdFld s R.WDG_CTRL 7 0))

/-- RELEASE: outputs leave full, if a kick came in the preceding WDG_MS. -/
def fxRelease (s : State) : State :=
  match s.heat.lastKick with
  | some k => if now s ≤ k + coolWdg s then setOutputs { s with heat.wdgFired := false } else s
  | none => s

/-- Writing WDG_CTRL: WDG_MS, a kick, a release (R392). -/
def fxWdgWrite (v : W32) (s : State) : State :=
  let s1 := wrFld R.WDG_CTRL 7 0 (fld v 7 0) s
  let s2 := if bitAt v 31 then { s1 with heat.lastKick := some (now s1) } else s1
  if bitAt v 30 then fxRelease s2 else s2

/-- A write of a register block of the PMC island; held state answers while the island is down (R402, R426). -/
def execKick (value : W32) (s : State) : Host.Outcome State Fault Refusal := done (fxWdgWrite value s)

def execWdgRelease (s : State) : Host.Outcome State Fault Refusal := done (fxRelease s)

/-- WDG_MS has passed since the last kick, or since the block was loaded. -/
def wdgDue (s : State) : Bool :=
  s.heat.cfgLoaded && !s.heat.wdgFired
    && max s.heat.cfgAt (s.heat.lastKick.getD 0) + coolWdg s ≤ now s

def execCoolingWatchdogFire (s : State) : Host.Outcome State Fault Refusal :=
  done (if wdgDue s then raise 1 6 noInst [] (setOutputs { s with heat.wdgFired := true }) else s)

/-- A fan or pump below MIN_RPM for 2 s at a duty of 30 % or more fails (R393). -/
def chFails (s : State) (c rpm : Nat) : Bool :=
  c < 40 && 30 ≤ rdFld s (R.CH_DUTY c) 15 8 && rpm < 100 * rdFld s (R.CH_CFG c) 15 8 && !chFailing s c

def fxChFail (c rpm : Nat) (s : State) : State :=
  let s1 := setBits (R.CH_STAT c) 3 (wrFld (R.CH_SPEED c) 15 0 rpm s)
  setOutputs (raise 1 7 c (regData (rd s1 (R.CH_STAT c))) s1)

def execFanPumpFailure (channel : Fin 56) (rpm : Nat) (s : State) : Host.Outcome State Fault Refusal :=
  done (if chFails s channel rpm then fxChFail channel rpm s else s)

/-- The flow of an input. -/
def setRate (f rate : Nat) (s : State) : State := wrFld (R.FLOW_RATE f) 15 0 rate s

/-- A loop stands below its MIN for 1 s: its inputs are low (R393). -/
def fxFlowLow (f : Nat) (s : State) : State :=
  let s1 := (loopFlows s (rdFld s (R.FLOW_CFG f) 26 24)).foldl (fun a g => setBits (R.FLOW_STAT g) 3 a) s
  setOutputs (raise 1 7 f (regData (rd s1 (R.FLOW_STAT f))) s1)

def execFlowLow (f : Fin 16) (rate : Nat) (s : State) : Host.Outcome State Fault Refusal :=
  let s1 := setRate f rate s
  let k := rdFld s (R.FLOW_CFG f) 26 24
  done (if rdBit s (R.FLOW_CFG f) 31 && loopRate s1 k < loopMin s1 k && !loopLow s k then fxFlowLow f s1 else s1)

/-- A failed channel or a low loop has recovered for 10 s (R393). -/
def fxRecover (isFlow : Bool) (i speed : Nat) (s : State) : State :=
  if isFlow then
    let s1 := setRate i speed s
    let k := rdFld s (R.FLOW_CFG i) 26 24
    if loopMin s1 k ≤ loopRate s1 k then
      setOutputs ((loopFlows s1 k).foldl (fun a g => clrBits (R.FLOW_STAT g) 2 a) s1)
    else s1
  else
    let s1 := wrFld (R.CH_SPEED i) 15 0 speed s
    if 100 * rdFld s (R.CH_CFG i) 15 8 < speed then setOutputs (clrBits (R.CH_STAT i) 2 s1) else s1

def execCoolingFailureRecovery (isFlow : Bool) (index : Fin 56) (speed : Nat) (s : State) :
    Host.Outcome State Fault Refusal :=
  done (if (if isFlow then index.val < 16 else index.val < 40) then fxRecover isFlow index speed s else s)

/-- Speeds and flows are reported (R389). -/
def fxTach (rpm rates : List Nat) (s : State) : State :=
  let s1 := (List.range (min 40 rpm.length)).foldl (fun a c => wrFld (R.CH_SPEED c) 15 0 (rpm.getD c 0) a) s
  (List.range (min 16 rates.length)).foldl (fun a f => setRate f (rates.getD f 0) a) s1

def execTachReport (rpm rates : List Nat) (s : State) : Host.Outcome State Fault Refusal :=
  done (if aonRuns s then fxTach rpm rates s else s)

/-- Supply thermistors in use of a loop, and Ts_k. -/
def supplyTherms (s : State) (k : Nat) : List Nat :=
  (List.range 32).filter (fun t => rdBit s (R.TH_CFG t) 31 && rdFld s (R.TH_CFG t) 29 28 == 1
    && rdFld s (R.TH_CFG t) 26 24 == k)

/-- What one loop can carry, in 10^−4 W (R395). -/
def loopHeat (s : State) (k : Nat) : Nat :=
  match (supplyTherms s k).map (thermRead s) with
  | [] => 0
  | x :: t => rdFld s R.CO_CP 15 0 * loopRate s k
      * (10 * (rdFld s R.CO_TRET 7 0 : Int) - t.foldl max x).toNat

/-- QCAP_W (R395). -/
def qcapOf (s : State) : Nat :=
  if (List.range 16).all (fun f => !rdBit s (R.FLOW_CFG f) 31) then
    (if rdN s R.CO_AIRCAP = 0 then 0xFFFFFFFF else rdN s R.CO_AIRCAP)
  else min 0xFFFFFFFF ((List.range 8).foldl (fun a k => a + loopHeat s k) 0 / 10000)

def execQcapReport (s : State) : Host.Outcome State Fault Refusal :=
  done (if coreUp 1 s then wr R.QCAP (BitVec.ofNat 32 (qcapOf s)) s else s)

/-- An override's HOLD_MS has ended (R394). -/
def overrideOver (s : State) (c : Nat) : Bool := rdFld s (R.CH_OVR c) 31 8 == 0 && rdFld s (R.CH_OVR c) 7 0 != 0

def execOverrideExpiry (channel : Fin 56) (s : State) : Host.Outcome State Fault Refusal :=
  done (if overrideOver s channel then setOutput (wr (R.CH_OVR channel) 0 s) channel else s)

/-! Leaks (R396 to R399) -/

/-- Class of one measurement: resistance between the conductors and the larger continuity, in Ω. -/
def leakClass (s : State) (ins cont : Nat) : LeakClass :=
  if max 500 (min 5000 (rdFld s R.LK_TH 31 16)) < cont || ins < 100 then .lost
  else if ins < 1000 * max 10 (min 1000 (rdFld s R.LK_TH 15 0)) then .leak
  else .dry

/-- LK_MEAS of a loop. -/
def leakMeas (s : State) (l : Nat) : W32 :=
  let x := leakLoop s l
  BitVec.ofNat 32 (65536 * min 65535 x.cont + min 65535 (x.ins / 1000))

/-- What a zone of the mask does at once: outputs follow the valve, and the TAL8's clusters fall to 400 MHz. -/
def leakActs (z : Nat) (s : State) : State :=
  let s1 := if rdBit s (R.LZ_CFG z) 8 then
      (List.range 8).foldl (fun a c => setCl c (fun k => { k with thermMhz := min 400 k.thermMhz }) a) s else s
  setOutput s1 (40 + z)

/-- An enabled loop's class acts: LEAK, and LOST without RELAX, raise the full response; LOST with RELAX is
warn-and-throttle (R397, R398). A response that is raised already needs its LEAK_RESET anew. -/
def leakRespond (l : Nat) (s : State) : State :=
  let x := leakLoop s l
  let z := rdFld s (R.LK_CFG l) 3 0
  let relax := rdBit s (R.LK_CFG l) 4
  if !rdBit s (R.LK_CFG l) 31 || x.cls = .dry then s
  else if x.cls = .lost && relax then
    (if x.relaxed.isSome then s
     else leakActs z (raise 1 9 l (regData (leakMeas s l)) (setLoop l (fun y => { y with relaxed := some z }) s)))
  else if x.raised.isSome then setLoop l (fun y => { y with named := false }) s
  else leakActs z (raise 1 8 l (regData (leakMeas s l)) (setLoop l (fun y => { y with raised := some z, named := false }) s))

/-- A measurement: a class takes effect after three that agree (R396). -/
def fxLeakMeasure (l ins cont : Nat) (s : State) : State :=
  let c := leakClass s ins cont
  leakRespond l (setLoop l (fun x =>
    let n := if x.cand = c then min 3 (x.agree + 1) else 1
    { x with ins := ins, cont := cont, cand := c, agree := n, cls := if 3 ≤ n then c else x.cls }) s)

def execLeakMeasurement (l : Fin 48) (ins cont : Nat) (s : State) : Host.Outcome State Fault Refusal :=
  done (if aonRuns s then fxLeakMeasure l ins cont s else s)

/-- A warn-and-throttle loop has read DRY for 10 s (R399). -/
def fxRelaxedEnd (l : Nat) (s : State) : State := setLoop l (fun x => { x with relaxed := none }) s

def execRelaxedResponseEnd (l : Fin 48) (s : State) : Host.Outcome State Fault Refusal :=
  done (if (leakLoop s l).cls = .dry then fxRelaxedEnd l s else s)

end Sys2Proof.Machine
end

