-- ==== Sys2Proof/Machine/Links.lean ====
section
/-! DEFINITION. The Gheplane ports and the seam torus (07), and the training of the Suorta link, which uses the same
port states (R251): training, identity, flits, retries, the link table, routing, time exchange and test modes.
Port 12 names the Suorta link.
Log entries coded here: 119 (PRESUMED), 120 (DEDUCED), 121 (DESIGN CHOICE), 122 (DESIGN CHOICE), 123 (DEDUCED), 124
(DEDUCED), 125 (DEDUCED), 126 (DEDUCED), 127 (DEDUCED), 128 (DEDUCED), 245 (DEDUCED), 247 (DEDUCED), 248 (DEDUCED),
249 (DEDUCED), 250 (DEDUCED), 251 (DEDUCED). -/

namespace Sys2Proof.Machine

/-- The island of port k; the Suorta link's is 24. -/
def portIsland (k : Nat) : Nat := if k = 12 then 24 else 12 + k

/-- State of port k, the Suorta link being port 12. -/
def linkSt (k : Nat) (s : State) : PortSt := if k = 12 then s.su.st else (port s k).st

/-- Move port k to a state. -/
def linkGo (k : Nat) (st : PortSt) (s : State) : State := if k = 12 then suGo st s else portGo k st s

/-- PORT_CTRL or SU_CTRL, and PORT_ERR or SU_ERR. -/
def ctrlReg (k : Nat) : Nat := if k = 12 then R.SU_CTRL else R.PORT_CTRL k
def errReg (k : Nat) : Nat := if k = 12 then R.SU_ERR else R.PORT_ERR k

/-- MODE in force on port k, as it stood at the last enable: 0 normal, 1 near-end loopback, 2 far-end loopback, 3 mirror (R244,
R245, R251, 07). -/
def linkMode (k : Nat) (s : State) : Nat := if k = 12 then s.su.mode else (port s k).mode

/-- An A port leaves DOWN only while its accelerator is powered (R218): its island is powered with it. -/
def linkPowered (k : Nat) (s : State) : Bool := islandAnswers (portIsland k) s

/-- DOWN with an event (R218, R469). -/
def linkDown (k : Nat) (s : State) : State :=
  let s1 := if k = 12 then suLeave .down s else portDown k s
  raise 7 2 k (regData (rd s1 (errReg k))) s1

/-! Enable, disable, retrain -/

/-- Leave OFF: HOLD or TRAINING. -/
def linkStart (k : Nat) (s : State) : State := if k = 12 then suStart s else portStart k s

/-- EN is set: the enable waits for a shut-down in progress, otherwise OFF becomes HOLD or TRAINING (R218). -/
def fxPortEnable (k : Nat) (s : State) : State :=
  let s1 := setBits (ctrlReg k) 1 s
  if s1.chip.draining.getLsbD (portIsland k) then
    { s1 with chip.reenable := s1.chip.reenable ||| (1#26 <<< portIsland k) }
  else if linkPowered k s1 && linkSt k s1 == .off then linkStart k s1
  else s1

def execPortEnable (k : Fin 13) (s : State) : Host.Outcome State Fault Refusal := done (fxPortEnable k s)

/-- EN is cleared: the port shuts down to OFF (R218). -/
def fxPortDisable (k : Nat) (s : State) : State :=
  let s1 := clrBits (ctrlReg k) 1 s
  if k = 12 then suLeave .off s1 else portLose k (portGo k .off (seamFails k s1))

def execPortDisable (k : Fin 13) (s : State) : Host.Outcome State Fault Refusal := done (fxPortDisable k s)

/-- Enter RETRAIN: counted, and a seam's link counts as down from now on (R225, R226). -/
def fxRetrain (k : Nat) (s : State) : State :=
  if k = 12 then bump R.SU_CNT_RETRAIN (suGo .retrain s)
  else bump (R.GH_CNT_RETRAIN k) (setPort k (fun p => { p with upSince := none }) (portGo k .retrain (seamFails k s)))

def execPortRetrainRequest (k : Fin 13) (s : State) : Host.Outcome State Fault Refusal :=
  done (if linkSt k s = .up then fxRetrain k s else s)

/-- All lanes reach the training error ratio: LOCKED; polarity is corrected lane by lane (R216, R218). The
signal-to-noise ratio shown is a free value. -/
def fxLanesTrained (k inv : Nat) (s : State) : State :=
  let n := if k = 12 then 16 else 4
  let s1 := (List.range n).foldl (fun a l =>
    wr (if k = 12 then R.SU_LANE_STAT l else R.GH_LANE_STAT k l)
      (BitVec.ofNat 32 (1 + 256 * (Config.unstated 7 (a.fresh + l) % 256) + 65536 * b2n (inv.testBit l))) a) s
  let s2 := linkGo k .locked { s1 with fresh := s1.fresh + n }
  if k = 12 then { s2 with su.lanes := 0xFFFF } else setPort k (fun p => { p with lanes := 0xF }) s2

def execLanesTrained (k : Fin 13) (inv : Nat) (s : State) : Host.Outcome State Fault Refusal :=
  done (if linkSt k s = .training then fxLanesTrained k inv s else s)

/-- PART of LINK_ID: the part number, 16 bytes. -/
def partNumber : Bytes :=
  [0x54, 0x41, 0x4C, 0x38, 0x2D, 0x41, 0x33, 0x38, 0x34, 0x2D, 0x42, 0x31, 0, 0, 0, 0]

/-- Initial credits that port k offers, by virtual channel (R227). -/
def offeredCredits (k : Nat) : Bytes :=
  (List.range 8).flatMap (fun v =>
    leBytes 2 (if k < 8 then (if v = 0 || v = 2 then 256 else 0) else 64))

/-- LINK_ID payload of port k (R223). -/
def linkIdBytes (s : State) (k : Nat) : Bytes :=
  leBytes 1 0 ++ leBytes 1 k ++ leBytes 2 (nodeId s) ++ leBytes 1 1 ++ leBytes 1 (if k < 8 then 2 else 8) ++ zeros 2
    ++ offeredCredits k ++ partNumber ++ (if k < 8 then [] else leBytes 4 (rdN s R.TORUS_DIM))

/-- LINK_ID of the Suorta link: initial credits by channel (R254). -/
def suLinkIdBytes (s : State) : Bytes :=
  leBytes 1 0 ++ leBytes 1 12 ++ leBytes 2 (nodeId s) ++ leBytes 1 1 ++ leBytes 1 5 ++ zeros 2
    ++ ([2048, 128, 8192, 0, 2048, 0, 0, 0] : List Nat).flatMap (leBytes 2) ++ partNumber

/-- The link table in parts: COUNT, then entries as in LINK_NOTICE, at most 44 in one flit. -/
def linkMapFlits (fuel : Nat) (ls : List Nat) (s : State) : List Flit :=
  match fuel with
  | 0 => []
  | n + 1 =>
    if ls.isEmpty then []
    else ctrlFlit 0x05 (leBytes 1 (ls.take 44).length ++ (ls.take 44).flatMap (fun l => linkNoticeBytes l (linkOf s l)))
      :: linkMapFlits n (ls.drop 44) s

/-- The certificates of the identity and attestation keys that this part sends (R448, R449). -/
def certBytes (kind epoch : Nat) (issuerKey subject : Bytes) (sig : Bytes → Bytes) : Bytes :=
  let body := leBytes 4 0x54434B54 ++ [1] ++ leBytes 1 kind ++ zeros 2 ++ leBytes 4 epoch ++ leBytes 4 0xC1A508B1
    ++ fix 16 Config.serialNumber ++ (sha512 issuerKey).take 8 ++ fix 32 subject
  body ++ fix 64 (sig body)

/-- FEC and flit alignment complete: IDENT, in which LINK_ID goes out, on a seam with the link table and the key
certificates; near-end loopback needs no partner and is in TEST (R218, R244). -/
def fxFlitAligned (certs : Bytes × Bytes) (k : Nat) (s : State) : State :=
  if linkMode k s = 1 then linkGo k .test s
  else if k = 12 then
    sendFrame { ch := 5, op := 0x63, len := (suLinkIdBytes s).length, data := suLinkIdBytes s } (suGo .ident s)
  else
    let s1 := portGo k .ident s
    let s2 := sendCtrl k 0x03 (linkIdBytes s1 k) s1
    if k < 8 then s2
    else
      let known := s2.torus.links.map (fun e => e.1)
      let s3 := sendFlits k (linkMapFlits (known.length + 1) known s2) s2
      sendCtrl k 0x08 (leBytes 1 1 ++ zeros 7 ++ certs.2) (sendCtrl k 0x08 (leBytes 1 0 ++ zeros 7 ++ certs.1) s3)

/-! Identity -/

/-- Credits that a LINK_ID grants, by virtual channel or Suorta channel. -/
def linkCredits (p : Bytes) : SMap Nat :=
  (List.range 8).foldl (fun m v => SMap.set 0 m v (leAt p (8 + 2 * v) 2)) []

/-- Whether the partner's LINK_ID passes: R219 on a seam, R220 on an A port, R251 on the Suorta link, and in mirror
mode that each end sees the other (R245). -/
def identMatches (k : Nat) (p : Bytes) (s : State) : Bool :=
  let kind := leAt p 0 1
  let prt := leAt p 1 1
  let node := leAt p 2 2
  let ver := leAt p 4 1
  if k = 12 then kind == 2 && ver == 1
  else if linkMode k s = 3 then
    kind == 0 && node == nodeId s && prt == rdFld s (R.MIRROR_PORT k) 3 0
      && prt < 12 && rdFld s (R.MIRROR_PORT prt) 3 0 == k
  else if k < 8 then kind == 1 && ver == 1
  else kind == 0 && node == seamNeighbour s (k - 8) && prt == seamPartner (k - 8)
    && leAt p 40 4 == rdN s R.TORUS_DIM

/-- The port is UP: its queue goes out, and a seam starts its 100 ms (R237). -/
def fxPortUp (k : Nat) (s : State) : State :=
  if k = 12 then sendPending [1, 2, 3, 4, 5, 6, 7, 8] { s with su := suPump { s.su with st := .up } }
  else setPort k (fun p => portPump { p with st := .up, upSince := some (now s), naks := [] }) s

/-- What a passed check leads to: UP, or TEST in the far-end loopback and mirror modes (R244, R245). A seam waits for
its partner's certificates (R449). -/
def identGo (k : Nat) (s : State) : State :=
  if linkMode k s = 2 && k < 12 then portGo k .test (sendCtrl k 0x06 [] s)
  else if linkMode k s = 3 then portGo k .test s
  else if 8 ≤ k && k < 12 && !(port s k).certOk then s
  else fxPortUp k s

/-- MISMATCH, with one event (R219). -/
def identMismatch (k : Nat) (s : State) : State :=
  if k = 12 then s
  else if rdBit s (R.PORT_ERR k) 3 then s
  else raise 7 1 k (regData (rd s (R.PARTNER k))) (setBits (R.PORT_ERR k) 8 s)

/-- The partner's LINK_ID (R219, R220, R251). -/
def fxLinkId (k : Nat) (p : Bytes) (s : State) : State :=
  let s1 := if k = 12 then { s with su.credit := linkCredits p }
    else wr (R.PARTNER k) (BitVec.ofNat 32 (leAt p 2 2 % 2048 + leAt p 1 1 * 65536 + leAt p 0 1 * 16777216))
      (setPort k (fun q => { q with credit := linkCredits p, linkId := p }) s)
  if identMatches k p s then
    identGo k (if k = 12 then s1 else setPort k (fun q => { q with identOk := true }) s1)
  else identMismatch k s1

def execLinkId (k : Fin 13) (p : Bytes) (s : State) : Host.Outcome State Fault Refusal :=
  done (if linkSt k s = .ident then fxLinkId k p s else s)

/-- Every 1 s a seam held in IDENT checks again: it sends its LINK_ID, and passes where the partner's LINK_ID now agrees with the
registers of R214 and with the torus size (R219). -/
def fxIdentRecheck (j : Nat) (s : State) : State :=
  let k := 8 + j
  let s1 := sendCtrl k 0x03 (linkIdBytes s k) s
  if (port s k).identOk then identGo k s1
  else if !(port s k).linkId.isEmpty && identMatches k (port s k).linkId s then
    identGo k (setPort k (fun q => { q with identOk := true }) s1)
  else s1

def execIdentRecheck (j : Fin 4) (s : State) : Host.Outcome State Fault Refusal :=
  done (if (port s (8 + j)).st = .ident && rdBit s (R.PORT_ERR (8 + j)) 3 then fxIdentRecheck j s else s)

/-! Training failures -/

/-- A training attempt has not reached IDENT in 60 ms: counted, TRAIN_FAIL, DOWN (R218). -/
def fxTrainingTimeout (k : Nat) (s : State) : State :=
  linkDown k (setBits (errReg k) 1 (bump (if k = 12 then R.SU_CNT_RETRAIN else R.GH_CNT_RETRAIN k) s))

def execTrainingTimeout (k : Fin 13) (s : State) : Host.Outcome State Fault Refusal :=
  done (if linkSt k s = .training || linkSt k s = .locked then fxTrainingTimeout k s else s)

/-- Every 1 s a DOWN port retries training, an A port only while its accelerator is powered (R218). -/
def execDownRetry (k : Fin 13) (s : State) : Host.Outcome State Fault Refusal :=
  done (if linkSt k s = .down && linkPowered k s then linkGo k .training s else s)

/-- FEC alignment is lost, or no good flit passed for 1 µs: RETRAIN (R226). -/
def fxPortFailure (k : Nat) (align : Bool) (s : State) : State :=
  fxRetrain k (if align then setBits (errReg k) 2 s else s)

def execPortFailure (k : Fin 13) (align : Bool) (s : State) : Host.Outcome State Fault Refusal :=
  done (if linkSt k s = .up then fxPortFailure k align s else s)

/-- A fast retrain ends: on success the sequence state stands and everything unacknowledged goes out again in order;
otherwise DOWN (R225). -/
def fxRetrainComplete (k : Nat) (ok : Bool) (s : State) : State :=
  if !ok then linkDown k s
  else if k = 12 then
    { s with su := suPump { s.su with st := .up, retry := s.su.retry.map (fun x => { x with replays := 0 }) } }
  else setPort k (fun p => portPump { p with st := .up, upSince := some (now s), naks := []
                                             retry := p.retry.map (fun x => { x with replays := 0 }) }) s

def execRetrainComplete (k : Fin 13) (ok : Bool) (s : State) : Host.Outcome State Fault Refusal :=
  done (if linkSt k s = .retrain then fxRetrainComplete k ok s else s)

/-! Flits -/

/-- An acknowledgement covers every sent entry up to its SEQ (R224). -/
def ackSent {α : Type} (seq : Nat) (q : List (Sent α)) : List (Sent α) :=
  if q.any (fun x => x.seq == seq) then (q.dropWhile (fun x => x.seq != seq)).drop 1 else q

/-- The link fields of a flit: ACK and credit return (R221). -/
def takeLinkFields (h : Bytes) (p : Port) : Port :=
  let ack := leAt h 4 2
  let cr := leAt h 6 1
  let p1 := if ack.testBit 15 then { p with retry := ackSent (ack % 4096) p.retry } else p
  portPump (if cr.testBit 7 then
    { p1 with credit := SMap.upd 0 p1.credit (cr % 8) (fun c => min 511 (c + leAt h 7 1)) } else p1)

/-- The own fields of a flit from its header bytes and payload (R221). -/
def parseFlit (h data : Bytes) : Flit :=
  { ftype := leAt h 0 1, vc := leAt h 1 1 % 8, turned := (leAt h 1 1).testBit 7, cls := leAt h 8 1, typ := leAt h 9 1
    first := (leAt h 10 1).testBit 0, last := (leAt h 10 1).testBit 1, poison := leAt h 11 1 % 128
    dst := leAt h 12 2 % 2048, loc := (leAt h 12 2).testBit 15, src := leAt h 14 2 % 2048, tag := leAt h 16 2 % 4096
    len := leAt h 18 2, hops := leAt h 20 1, endpoint := leAt h 21 1, hdr := fix 8 (slice h 24 8), data := fix 224 data }

/-- ACK and the credit return as header bytes 4 to 7 of a flit or a frame (R221, R252). -/
def Carried.bytes (c : Carried) : Bytes :=
  leBytes 2 (match c.ack with
    | some a => 0x8000 + a
    | none => 0) ++ leBytes 1 (if c.count = 0 then 0 else 0x80 + c.ch) ++ leBytes 1 c.count

/-- The 32 data bytes of word 0 of a sent flit (R221). -/
def flitHeader (x : Sent Flit) : Bytes :=
  let f := x.item
  leBytes 1 f.ftype ++ leBytes 1 (f.vc + 128 * b2n f.turned) ++ leBytes 2 x.seq ++ x.link.bytes ++ leBytes 1 f.cls
    ++ leBytes 1 f.typ ++ leBytes 1 (b2n f.first + 2 * b2n f.last) ++ leBytes 1 f.poison ++ leBytes 2 (f.dst + 0x8000 * b2n f.loc)
    ++ leBytes 2 f.src ++ leBytes 2 f.tag ++ leBytes 2 f.len ++ leBytes 1 f.hops ++ leBytes 1 f.endpoint ++ zeros 2 ++ fix 8 f.hdr

/-- A sent flit on the wire: eight tray-code words (R221). -/
def flitBytes (x : Sent Flit) : Bytes :=
  tcEncode (flitHeader x) ++ (List.range 7).flatMap (fun w => tcEncode (fix 32 (slice x.item.data (32 * w) 32)))

/-- An IDLE flit on the wire: the next SEQ, which the receiver ignores, and its link fields (R221, R223). -/
def idleBytes (p : Port) (c : Carried) : Bytes :=
  flitBytes ⟨p.txSeq, 0, { ftype := 0, data := zeros 224 }, c⟩

/-- The message that collected flits make, oldest first. -/
def joinFlits (fs : List Flit) : Msg :=
  match fs with
  | [] => {}
  | f :: _ =>
    { cls := f.cls, typ := f.typ, dst := f.dst, loc := f.loc, src := f.src, tag := f.tag, len := f.len
      endpoint := f.endpoint, hdr := f.hdr, hops := f.hops
      payload := (fs.flatMap (fun g => g.data)).take (if f.cls = 6 && f.typ = 1 then 0 else f.len)
      poison := (fs.zipIdx).flatMap (fun gi =>
        ((List.range 7).filter (fun w => gi.1.poison.testBit w)).map (fun w => 7 * gi.2 + w)) }

/-- A DATA flit that this node takes: collected by virtual channel, a whole message goes to the inbox; its buffer is
freed (R227, R236). -/
def takeFlit (f : Flit) (p : Port) : Port :=
  let have_ := (if f.first then [] else p.asm.get [] f.vc) ++ [f]
  let p1 := { p with owed := SMap.upd 0 p.owed f.vc (fun c => c + 1) }
  if !f.first && (p.asm.get [] f.vc).isEmpty then p1
  else if f.last then
    { p1 with asm := SMap.set [] p1.asm f.vc [], inbox := p1.inbox ++ [joinFlits have_] }
  else { p1 with asm := SMap.set [] p1.asm f.vc have_ }

/-- A message that a first flit interrupts on its virtual channel is incomplete: it is discarded, and its source gets ERR,
STATUS 3; the rest of a message whose first flit went another way is discarded alone (07, collisions). -/
def takeData (k : Nat) (f : Flit) (s : State) : State :=
  let s1 := match (port s k).asm.get [] f.vc with
    | g :: _ => if f.first && 8 ≤ k && foreign s g then unreachable g.src g.tag s else s
    | [] => s
  setPort k (takeFlit f) s1

/-- Payload of the test generator's flit number n on port k: output words of the counter generator with counter
(14 n + b, 0, 0, 0), key word k0 from TEST_CTRL, k1 the port (R244, R62). -/
def testPayload (s : State) (k n : Nat) : Bytes :=
  (List.range 14).flatMap (fun b =>
    (counterGen (BitVec.ofNat 32 (14 * n + b)) 0 0 0 (BitVec.ofNat 32 (rdFld s (R.TEST_CTRL k) 15 0))
      (BitVec.ofNat 32 k)).flatMap (fun w => leBytes 4 w.toNat))

/-- The port whose generator sent what port k receives in TEST: in mirror mode the other one (R245). -/
def testSource (k : Nat) (s : State) : Nat := if linkMode k s = 3 then rdFld s (R.MIRROR_PORT k) 3 0 else k

/-- A test flit is compared with what the generator sent, and counted in TEST_ERR where it differs (R244, R245). -/
def compareTest (k : Nat) (f : Flit) (s : State) : State :=
  let s1 := if f.data = testPayload s (testSource k s) (port s k).testCount then s else bump (R.TEST_ERR k) s
  setPort k (fun p => { p with testCount := p.testCount + 1 }) s1

/-- A NAK that names the expected SEQ, once until it arrives (R224). -/
def sendNak (k : Nat) (s : State) : State :=
  if (port s k).nakSent then s
  else sendCtrl k 0x01 (leBytes 2 (port s k).rxSeq) (setPort k (fun p => { p with nakSent := true }) s)

/-- A flit in sequence. CTRL flits wait in the inbox as class 0x80 + kind for the event that names them, but a KEEPALIVE, which
says nothing; a flit in TEST is compared; a flit for another node waits to be forwarded; another is taken (R221, R223, R236,
R244). -/
def acceptFlit (k : Nat) (f : Flit) (s : State) : State :=
  let s1 := setPort k (fun p => { p with rxSeq := (p.rxSeq + 1) % 4096, rxAny := true, nakSent := false }) s
  if f.ftype = 2 then
    (if f.cls = 7 then s1 else
      setPort k (fun p => { p with inbox := p.inbox ++ [{ cls := 0x80 + f.cls, payload := f.data.take f.len, len := f.len }] }) s1)
  else if (port s1 k).st = .test then compareTest k f s1
  else if 8 ≤ k && !f.loc && f.dst != nodeId s then
    setPort k (fun p => { p with transit := p.transit ++ [f], owed := SMap.upd 0 p.owed f.vc (fun c => c + 1) }) s1
  else takeData k f s1

/-- A word decoded: its corrected bytes, or none where it is uncorrectable. -/
def TcResult.word (w : Bytes) (r : TcResult) : Option Bytes :=
  match r with
  | .clean => some w
  | .corrected x _ => some x
  | .uncorrectable => none

/-- The eight words of a flit. -/
def flitWords (bytes : Bytes) : List Bytes := (List.range 8).map (fun i => fix 36 (slice bytes (36 * i) 36))

/-- Codewords that forward error correction corrected, or could not, on the way of a flit or a frame: the lanes decide, so the
numbers are free values (R217, R247). -/
def countFec (corr uncorr : Nat) (s : State) : State :=
  bumpBy uncorr (Config.unstated 217 (s.fresh + 1)) (bumpBy corr (Config.unstated 217 s.fresh) { s with fresh := s.fresh + 2 })

/-- In far-end loopback a flit that the partner returned acknowledges itself, and its payload is compared with what was sent
(R244). -/
def takeReturned (k : Nat) (h data : Bytes) (s : State) : State :=
  let q := (port s k).retry
  match q.find? (fun x => x.seq == leAt h 2 2 % 4096) with
  | some x =>
    let s1 := setPort k (fun p => portPump { p with retry := ackSent x.seq q }) s
    if x.item.ftype = 1 then
      setPort k (fun p => { p with testCount := p.testCount + 1 })
        (if fix 224 data = x.item.data then s1 else bump (R.TEST_ERR k) s1)
    else s1
  | none => s

/-- A flit is decoded, counted, checked for SEQ and accepted, or discarded whole with a NAK (R222, R224). The far end of a loopback
returns it as it came; the port that is looped compares what comes back (R244). -/
def fxFlitReceived (k : Nat) (bytes : Bytes) (s : State) : State :=
  let ws := flitWords bytes
  let rs := ws.map (fun w => (tcDecode (rdBit s R.TC_MODE 0) w, w))
  let fixed := (rs.filter (fun r => match r.1 with
    | .corrected _ _ => true
    | _ => false)).length
  let s0 := countFec (R.GH_CNT_FEC_CORR k) (R.GH_CNT_FEC_UNCORR k) s
  let s1 := if fixed = 0 then s0 else bumpBy (R.GH_CNT_TC_CORR k) fixed s0
  let bad := rs.any (fun r => r.1 == .uncorrectable)
  let s2 := if bad then bump (R.GH_CNT_TC_UNCORR k) s1 else s1
  let looped := (port s k).st == .test && linkMode k s == 2
  if (port s k).farLoop then setPort k (fun p => { p with looped := fix 288 bytes }) s2
  else if bad then (if looped then s2 else sendNak k s2)
  else
    let ds := rs.filterMap (fun r => (r.1.word r.2).map (fun w => w.take 32))
    let h := ds.getD 0 []
    let data := (ds.drop 1).flatMap (fun d => d)
    let f := parseFlit h data
    if looped then takeReturned k h data s2
    else if f.ftype = 0 then setPort k (takeLinkFields h) s2
    else if leAt h 2 2 % 4096 ≠ (port s2 k).rxSeq then sendNak k s2
    else acceptFlit k f (setPort k (takeLinkFields h) s2)

/-- A flit of the partner reaches port k: not in near-end loopback, whose receiver sees the port's own stream (R244). -/
def execFlitReceived (k : Fin 12) (bytes : Bytes) (s : State) : Host.Outcome State Fault Refusal :=
  done (if [PortSt.ident, .up, .test].contains (port s k).st && !((port s k).st == .test && linkMode k s == 1 && !(port s k).farLoop)
    then fxFlitReceived k bytes s else s)

/-- What a NAK leaves in the retry buffer: entries before the named SEQ have arrived, the named one and its followers go out again;
the SEQ to be sent next names none of them; another SEQ is none that the transmitter holds (R224). -/
def replayFrom {α : Type} (seq next : Nat) (q : List (Sent α)) : List (Sent α) :=
  if q.any (fun x => x.seq == seq) then
    (q.dropWhile (fun x => x.seq != seq)).map (fun x => { x with replays := x.replays + 1 })
  else if seq = next then []
  else q

/-- A NAK: earlier flits are acknowledged, the named one and its followers are replayed in order; the eighth replay
of one flit leads to RETRAIN with REPLAY_LIMIT; sixteen within 1 ms are a replay storm (R224, R225, R237). -/
def fxNak (k seq : Nat) (s : State) : State :=
  let q := (port s k).retry
  let replayed := replayFrom seq (port s k).txSeq q
  let t := now s
  let recent := ((port s k).naks.filter (fun u => t < u + 1)) ++ [t]
  let s1 := bump (R.GH_CNT_REPLAY k) (takeCtrl k 0x01 (leBytes 2 seq) s)
  let s2 := setPort k (fun p => portPump { p with retry := replayed, naks := recent
                                                  upSince := if 16 ≤ recent.length then some t else p.upSince }) s1
  if replayed.any (fun x => 8 ≤ x.replays) && (port s2 k).st = .up then
    fxRetrain k (setBits (R.PORT_ERR k) 4 s2)
  else s2

def execNak (k : Fin 12) (seq : Nat) (s : State) : Host.Outcome State Fault Refusal :=
  done (if [PortSt.ident, .up, .test].contains (port s k).st then fxNak k seq s else s)

/-- IDLE flits of the slots until the next CTRL flit is due: they carry the credits still owed (R223, R227). -/
def idleFlits (fuel : Nat) (p : Port) : List Carried :=
  match fuel with
  | 0 => []
  | n + 1 =>
    if p.owed.isEmpty then []
    else
      let c := carriedNow p.rxAny p.rxSeq p.owed
      c :: idleFlits n { p with owed := c.settle p.owed }

/-- In near-end loopback every flit that was sent comes back to the port's own receiver, in sequence (R244). -/
def loopBack (k : Nat) (s : State) : State :=
  (port s k).retry.foldl (fun a x => acceptFlit k x.item a) (setPort k (fun p => { p with retry := [] }) s)

/-- In TEST the generator sends one flit, while RUN is one (R244). -/
def generate (k : Nat) (s : State) : State :=
  if (port s k).st = .test && rdBit s (R.TEST_CTRL k) 31 then
    let n := (port s k).testSent
    sendFlits k [{ ftype := 1, vc := 0, cls := 0, len := 224, data := testPayload s k n }]
      (setPort k (fun p => { p with testSent := n + 1 }) s)
  else s

/-- A slot in 28 carries a CTRL flit: a KEEPALIVE where no other is due, with ACK and a credit return; credits that are still owed
go in the IDLE flits that follow (R223, R227). In TEST the generator sends one flit of its own as well. The far end of a loopback
sends what it receives and nothing of its own (R244). -/
def fxCtrlSlot (k : Nat) (s : State) : State :=
  if k = 12 then sendFrame { ch := 5, op := 0x64 } s
  else if (port s k).farLoop then s
  else
    let s1 := generate k (sendCtrl k 0x07 [] s)
    let s2 := setPort k (fun p => { p with idles := idleFlits 16 p, owed := [] }) s1
    if (port s k).st = .test && linkMode k s = 1 then loopBack k s2 else s2

def execCtrlSlotDue (k : Fin 13) (s : State) : Host.Outcome State Fault Refusal :=
  done (if linkSt k s = .up || (k.val < 12 && (linkSt k s = .ident || linkSt k s = .test)) then fxCtrlSlot k s else s)

/-! Telemetry (R234) -/

/-- TRAY_STATUS payload. -/
def trayStatusBytes (s : State) : Bytes :=
  leBytes 2 (nodeId s) ++ leBytes 1 s.chip.tray.code ++ leBytes 1 (b2n (degradeCause s ≠ 0))
    ++ leBytes 2 (s.assure.accTag.toNat + 256 * b2n s.assure.selfTag) ++ zeros 2 ++ leBytes 8 (taiNow s)

/-- TRAY_STATUS on every UP port. -/
def fxTrayStatus (s : State) : State :=
  ((List.range 12).filter (fun k => (port s k).st == .up)).foldl (fun a k =>
    let m : Msg := { cls := 4, typ := 1, len := 16, payload := trayStatusBytes s, src := nodeId s }
    if k < 8 then sendAcc k true m a
    else sendFlits k (msgFlits { m with dst := seamNeighbour s (k - 8) } (vcOf false true (crossesDateline s (k - 8)))) a) s

def execTrayStatusSend (s : State) : Host.Outcome State Fault Refusal := done (fxTrayStatus s)

/-! Routing (R236 to R242) -/

/-- A message from its header bytes (word 0 of a flit) and its payload. -/
def msgOf (h payload : Bytes) : Msg :=
  { cls := leAt h 8 1, typ := leAt h 9 1, dst := leAt h 12 2 % 2048, loc := (leAt h 12 2).testBit 15
    src := leAt h 14 2 % 2048, tag := leAt h 16 2 % 4096, len := leAt h 18 2, hops := leAt h 20 1
    endpoint := leAt h 21 1, hdr := fix 8 (slice h 24 8), payload := payload.take 4096 }

/-- Whether a class and type travel as RSP (R228). -/
def isRsp (cls typ : Nat) : Bool :=
  match cls, typ with
  | 1, t => [0x02, 0x04, 0x05, 0x07, 0x11, 0x15].contains t
  | 2, _ => true
  | 3, _ => true
  | 4, _ => true
  | 5, t => t == 0x11
  | 6, t => t != 1 && t != 3
  | _, _ => false

/-- A node injects a message: XY, YX, or ERR STATUS 3 to its own requester (R238). -/
def fxInject (m : Msg) (s : State) : State :=
  match sendNode (isRsp m.cls m.typ) m s with
  | some t => t
  | none =>
    let s1 := bump R.CNT_UNREACH s
    match s1.torus.remotes.find? (fun r => r.tag == m.tag && 8 ≤ r.port) with
    | some r => if m.cls = 6 && (m.typ = 1 || m.typ = 3) then remoteAbsent r 3 s1 else s1
    | none => if isRsp m.cls m.typ then s1 else ownFails m.cls m.tag s1

def execMessageInject (header payload : Bytes) (s : State) : Host.Outcome State Fault Refusal :=
  done (fxInject (msgOf header payload) s)

/-- The key under which a message is kept that this node turned or dropped: tag and class. -/
def turnKey (f : Flit) : Nat := f.tag + 4096 * b2n f.rsp

/-- A message that this node has turned: the seam it was turned to, or 4 where it was dropped. -/
def turnedSeam (s : State) (f : Flit) : Option Nat :=
  (s.torus.turnedMsgs.find? (fun t => t.1 == f.src && t.2.1 == turnKey f)).map (fun t => t.2.2)

/-- Remember where the later flits of a message go, until its last. -/
def keepTurn (f : Flit) (j : Nat) (s : State) : State :=
  let rest := s.torus.turnedMsgs.filter (fun t => !(t.1 == f.src && t.2.1 == turnKey f))
  { s with torus.turnedMsgs := if f.last then rest else rest ++ [(f.src, turnKey f, j)] }

/-- A flit in transit is dropped, and with it the rest of its message: the source is answered ERR STATUS 3 once (R239, R242). -/
def dropFlit (f : Flit) (s : State) : State :=
  let told := turnedSeam s f == some 4
  let s1 := keepTurn f 4 s
  if told then s1 else unreachable f.src f.tag s1

/-- The seam a flit goes on to, keeping the direction with which it entered its dimension: a flit that arrived over a
seam of the same dimension goes straight on (R236). -/
def onwardSeam (s : State) (from_ : Nat) (f : Flit) : Nat :=
  let yx := 4 ≤ f.vc
  let k := firstSeam s yx (nodeId s) f.dst
  let straight := seamPartner (from_ - 8) - 8
  if k / 2 = straight / 2 then straight else k

/-- Remaining links of a route from here that goes over seam k first. -/
def routeOver (s : State) (yx : Bool) (k dst : Nat) : List Nat :=
  let n := nodeId s
  if k < 2 then
    linksX s (k == 0) (nodeY n) (nodeX n) (nodeX dst)
      ++ (if yx then [] else linksY s (goesPlus (nodeY n) (nodeY dst) (sizeY s)) (nodeX dst) (nodeY n) (nodeY dst))
  else
    linksY s (k == 2) (nodeX n) (nodeY n) (nodeY dst)
      ++ (if yx then linksX s (goesPlus (nodeX n) (nodeX dst) (sizeX s)) (nodeY dst) (nodeX n) (nodeX dst) else [])

/-- The opposite direction of the same dimension. -/
def oppositeSeam (k : Nat) : Nat := if k % 2 = 0 then k + 1 else k - 1

/-- A message is in its first dimension: both coordinates are still to be corrected. -/
def inFirstDim (s : State) (dst : Nat) : Bool :=
  nodeX (nodeId s) != nodeX dst && nodeY (nodeId s) != nodeY dst

/-- The link of seam k stands and its port carries traffic. -/
def seamGoes (s : State) (k : Nat) : Bool := linkUp s (seamLink s k) && (port s (8 + k)).st == .up

/-- Where a flit whose next link is DOWN is turned to (R239): seam and order, or none; the other order is none where its first link
is blocked as well. -/
def turnTo (s : State) (f : Flit) (k : Nat) : Option (Nat × Bool) :=
  let yx := decide (4 ≤ f.vc)
  let o := oppositeSeam k
  let b := firstSeam s (!yx) (nodeId s) f.dst
  if f.turned then none
  else if allUp s (routeOver s yx o f.dst) && seamGoes s o then some (o, yx)
  else if inFirstDim s f.dst && seamGoes s b then some (b, !yx)
  else none

/-- Send a turned flit over seam k: TURNED and D are set (R239). -/
def forwardOn (k : Nat) (yx : Bool) (f : Flit) (s : State) : State :=
  sendFlits (8 + k) [{ f with vc := vcOf yx f.rsp true, turned := true, hops := f.hops + 1 }] s

/-- D of a flit that goes straight on is kept; a flit that enters its second dimension starts with D = 0, turned or not (R236). -/
def forwardStraight (k from_ : Nat) (f : Flit) (s : State) : State :=
  let keep := decide (k / 2 = (from_ - 8) / 2) && f.vc % 2 == 1
  let d := keep || crossesDateline s k
  sendFlits (8 + k) [{ f with vc := vcOf (4 ≤ f.vc) f.rsp d, hops := f.hops + 1 }] s

/-- A flit whose message this node turned to seam j goes after it, or is dropped where that seam has failed too (R239). -/
def followTurn (k j : Nat) (f : Flit) (s : State) : State :=
  if j < 4 && (port s (8 + j)).st == .up then
    forwardOn j (if j / 2 = onwardSeam s k f / 2 then 4 ≤ f.vc else !(4 ≤ f.vc)) f (keepTurn f j s)
  else dropFlit f s

/-- A flit for another node: forwarded, turned, or dropped; HOPS that reach 127 drop it (R236, R239, R242, R248). -/
def fxForward (k : Nat) (f : Flit) (s : State) : State :=
  let s1 := setPort k (fun p => { p with transit := p.transit.erase f }) s
  let g := { f with via := some k }
  if !rdBit s1 R.ROUTE_CTRL 0 || 127 ≤ f.hops + 1 then bump R.CNT_DROP (dropFlit g s1)
  else
    match turnedSeam s1 g with
    | some j => followTurn k j g s1
    | none =>
      let j := onwardSeam s1 k g
      if seamGoes s1 j then forwardStraight j k g s1
      else
        match turnTo s1 g j with
        | some (j', yx) => forwardOn j' yx g (keepTurn g j' (bump R.CNT_TURNED s1))
        | none => dropFlit g s1

/-- A flit in transit goes on; it has passed its checks, so it does though the port it came in on has failed since. -/
def execFlitForward (k : Fin 12) (header payload : Bytes) (s : State) : Host.Outcome State Fault Refusal :=
  let f := parseFlit header payload
  done (if 8 ≤ k.val && ((port s k).st == .up || (port s k).transit.contains f) && f.dst != nodeId s && !f.loc
    then fxForward k f s else s)

/-- A link-state notice: applied if newer, and then flooded on (R237). -/
def fxLinkNotice (j : Nat) (p : Bytes) (s : State) : State :=
  let s1 := takeCtrl (8 + j) 0x04 (p.take 5) s
  let l := leAt p 0 2
  let e : LinkEntry := ⟨leAt p 2 1 == 1, leAt p 3 2⟩
  if noticeApplies (linkOf s1 l) e then flood j l (setLink l e s1) else s1

def execLinkNotice (j : Fin 4) (p : Bytes) (s : State) : Host.Outcome State Fault Refusal :=
  done (if (port s (8 + j)).st = .up then fxLinkNotice j p s else s)

/-- Part of a neighbour's link table in IDENT fills this node's table (R237). -/
def fxLinkMap (j : Nat) (p : Bytes) (s : State) : State :=
  let s1 := takeCtrl (8 + j) 0x05 p s
  (List.range (min 44 (leAt p 0 1))).foldl (fun a i =>
    let q := slice p (1 + 5 * i) 5
    let l := leAt q 0 2
    let e : LinkEntry := ⟨leAt q 2 1 == 1, leAt q 3 2⟩
    if noticeApplies (linkOf a l) e then flood j l (setLink l e a) else a) s1

def execLinkMap (j : Fin 4) (p : Bytes) (s : State) : Host.Outcome State Fault Refusal :=
  done (if (port s (8 + j)).st = .ident then fxLinkMap j p s else s)

/-- The owner declares a link UP after its port has stayed UP for 100 ms without a replay storm (R237). -/
def execLinkUpDeclare (j : Fin 4) (s : State) : Host.Outcome State Fault Refusal :=
  done (if ownsLink j && (port s (8 + j)).st == .up && rdBit s R.ROUTE_CTRL 0
      && (match (port s (8 + j)).upSince with
          | some t => decide (t + 100 ≤ now s)
          | none => false) then ownLink j true s else s)

/-! Time exchange (R243) -/

/-- Every 1 ms a seam port sends a TIME flit with the stamps of the previous exchange: the time at which it sent its
previous TIME flit, and the time at which it received the partner's. -/
def fxTimeExchange (j : Nat) (s : State) : State :=
  let k := 8 + j
  let p := port s k
  setPort k (fun q => { q with stampSent := taiNow s, stampsPast := (p.stampSent :: p.stampsPast).take 3 })
    (sendCtrl k 0x02 (leBytes 8 p.stampSent ++ leBytes 8 p.stampRx) s)

def execTimeExchange (j : Fin 4) (s : State) : Host.Outcome State Fault Refusal :=
  done (if (port s (8 + j)).st = .up then fxTimeExchange j s else s)

/-- Our transmit stamp of the exchange that the partner's receive stamp belongs to: the newest from which the round trip, t4 − t1
less the turnaround t3 − t2, is not negative; a TIME flit that crosses ours on the cable does not answer it (R243). -/
def ownStamp (p : Port) (t2 t3 t4 : Int) : Nat :=
  ((p.stampSent :: p.stampsPast).find? (fun (t : Nat) => t != 0 && decide (0 ≤ (t4 - (t : Int)) - (t3 - t2)))).getD 0

/-- A partner's TIME flit at local time `arrival`. With t1 our transmit stamp of the previous exchange, t2 the
partner's receive stamp of it, t3 the partner's transmit stamp and t4 our receive stamp of that, the delay is half the
round trip less the turnaround; towards the parent in SEAM mode the offset is measured (R243, R328, R330). -/
def fxTimeFlit (j : Nat) (payload : Bytes) (arrival : Nat) (s : State) : State :=
  let k := 8 + j
  let p := port s k
  let t2 : Int := leAt payload 8 8
  let t3 : Int := leAt payload 0 8
  let t4 : Int := p.stampRx
  let t1 : Int := ownStamp p t2 t3 t4
  let s1 := setPort k (fun p => { p with stampRx := arrival }) (takeCtrl k 0x02 payload s)
  if t1 = 0 || t2 = 0 || t3 = 0 || t4 = 0 then s1
  else
    let delay := ((t4 - t1) - (t3 - t2)) / 2
    let s2 := wr (R.LINK_DELAY k) (BitVec.ofNat 32 (min 0xFFFF (max 0 delay).toNat)) s1
    if seamMode s2 && timeParent s2 == some j then correctTime (((t1 - t2) + (t4 - t3)) / 2) s2 else s2

def execTimeFlit (j : Fin 4) (payload : Bytes) (arrival : Nat) (s : State) : Host.Outcome State Fault Refusal :=
  done (if (port s (8 + j)).st = .up then fxTimeFlit j payload arrival s else s)

/-! Test modes, windows, service -/

/-- A far-end loopback request: the link counts as DOWN first, what the port holds is answered as on a port that goes down, then it
returns every flit (R244). -/
def fxLoopReq (k : Nat) (payload : Bytes) (s : State) : State :=
  setPort k (fun p => { p with farLoop := true }) (portGo k .test (portLose k (seamFails k (takeCtrl k 0x06 payload s))))

def execLoopReq (k : Fin 12) (payload : Bytes) (s : State) : Host.Outcome State Fault Refusal :=
  done (if (port s k).st = .up || (port s k).st = .ident then fxLoopReq k payload s else s)

/-- The entries of WINDOW_DECL (R220). -/
def parseWindows (n : Nat) (p : Bytes) : List AccWin :=
  match n with
  | 0 => []
  | k + 1 => if p.isEmpty then [] else
    ⟨leAt p 0 1 % 16, (leAt p 1 1).testBit 0, (leAt p 1 1).testBit 1, leAt p 8 8⟩ :: parseWindows k (p.drop 16)

/-- An accelerator declares its memory windows; a second declaration holds for later reads (R220). -/
def execWindowDecl (a : Fin 8) (payload : Bytes) (s : State) : Host.Outcome State Fault Refusal :=
  done (if (port s a).st = .up then
    setPort a (fun p => { p with windows := some (parseWindows 16 payload) }) (takeInbox a 5 1 payload s) else s)

/-- Clearing FWD_EN makes the node refuse every flit in transit, and its seam links count as DOWN; setting it lets its
ports be declared again (R248). -/
def fxRouteCtrl (v : W32) (s : State) : State :=
  let s1 := wr R.ROUTE_CTRL (v &&& 1#32) s
  if bitAt v 0 then
    [8, 9, 10, 11].foldl (fun a k => if (port a k).st = .up then setPort k (fun p => { p with upSince := some (now a) }) a else a) s1
  else [0, 1, 2, 3].foldl (fun a j => ownLink j false a) s1

def execRouteCtrlWrite (v : W32) (s : State) : Host.Outcome State Fault Refusal := done (fxRouteCtrl v s)

end Sys2Proof.Machine
end

