-- ==== Sys2Proof/Machine/Memory.lean ====
section
/-! DEFINITION. Meanings of tray memory (06): reads and writes, scrubbing, die sensors and refresh bands, training.
Log entries coded here: 113 (DESIGN CHOICE), 115 (DEDUCED), 116 (DEDUCED), 117 (DEDUCED), 243 (DEDUCED), 256
(DEDUCED). -/

namespace Sys2Proof.Machine

/-! Reads and writes (R201, R202) -/

/-- A master whose word came with POISON handles it in its own way: the Press reloads it (R95). -/
def poisonTo (m a : Nat) (s : State) : State :=
  if 15 ≤ m && m ≤ 22 then
    let h := ((runsOn s (m - 15)).map (fun p => p.home)).getD (m - 15)
    setCl (m - 15) (fun k => { k with poison := true })
      { s with press.poisoned := s.press.poisoned ++ [(h, a / 32 * 32, 32)] }
  else s

/-- A read of the word that holds an address. -/
def fxDramRead (a m : Nat) (e1 e2 : Bytes) (s : State) : State :=
  let r := readWord (a / 32 * 32) (readerCode m) e1 e2 s
  if r.2 then poisonTo m a r.1 else r.1

/-- A write, word by word; where a part of it was refused, the writer receives one error. -/
def fxDramWrite (a m : Nat) (data err : Bytes) (s : State) : State :=
  let r := writeWords (data.length / 32 + 2) a data err s
  if r.2 then writeError m r.1 else r.1

/-- An access of tray DRAM: beyond its region DECODE, before READY and while the controllers power down ABSENT; one of the
host-cacheable range is claimed first, except the host's own (R29, R209, R211, R261). -/
def onDram (a n m : Nat) (write : Bool) (data : Bytes) (f : State → State) (s : State) : State :=
  if dramSize < a + n then decodeError a s
  else if !dramOpen s then (if write then absentWrite m a s else absentError a s)
  else if m ≠ 35 && inHcr s a n then hostRequest (if write then Op.CLAIM_E else Op.CLAIM_S) a n data (.mem m) s
  else f s

def execDramRead (addr : Nat) (master : Fin 37) (err1 err2 : Bytes) (s : State) : Host.Outcome State Fault Refusal :=
  done (onDram addr 1 master false (fix 36 err1 ++ fix 36 err2) (fxDramRead addr master err1 err2) s)

def execDramWrite (addr : Nat) (store : MasterWrite) (err : Bytes) (s : State) : Host.Outcome State Fault Refusal :=
  done (onDram addr store.bytes.length store.master true (store.bytes ++ err)
    (fxDramWrite addr store.master store.bytes err) s)

/-! Scrubbing (R203 to R205) -/

/-- Words of a stack. -/
abbrev stackWords : Nat := 0xC0000000

/-- The patrol has a period, or an immediate pass runs. -/
def scrubRuns (s : State) (q : Nat) : Bool :=
  memReady s && ((stack s q).immediate.isSome || rdFld s R.SCRUB_CTRL 7 0 != 0)

/-- The patrol's position moves on; after the last word a pass is complete, and the corrections of R203 start anew. -/
def patrolOn (q : Nat) (s : State) : State :=
  let p := rdN s (R.SCRUB_POS q) + 1
  if p < stackWords then wr (R.SCRUB_POS q) (BitVec.ofNat 32 p) s
  else setStack q (fun k => { k with lanes := [] }) (bump (R.SCRUB_PASSES q) (wr (R.SCRUB_POS q) 0 s))

/-- The scrubber reads and corrects its next word: of the immediate pass while one runs, else of the patrol. -/
def fxScrubRead (q : Nat) (e1 e2 : Bytes) (s : State) : State :=
  match (stack s q).immediate with
  | some p =>
    setStack q (fun k => { k with immediate := some ((p + 1) % stackWords) })
      (readWord (addrOf s q (32 * p)) 0 e1 e2 s).1
  | none => patrolOn q (readWord (addrOf s q (32 * rdN s (R.SCRUB_POS q))) 0 e1 e2 s).1

def execPatrolScrubRead (q : Fin 4) (err1 err2 : Bytes) (s : State) : Host.Outcome State Fault Refusal :=
  done (if scrubRuns s q then fxScrubRead q err1 err2 s else s)

/-- Start an immediate pass in every stack. -/
def startPass (s : State) : State :=
  (List.range 4).foldl (fun a q => setStack q (fun k => { k with immediate := some 0 }) a)
    { s with mem.nowWaits := false }

/-- An immediate pass runs. -/
def passRuns (s : State) : Bool := (List.range 4).any (fun q => (stack s q).immediate.isSome)

/-- Writing NOW: a pass starts in every stack, at READY at the latest; while one runs it has no effect (R205). -/
def fxScrubNow (s : State) : State :=
  let s1 := setBits R.SCRUB_CTRL (2 ^ 31) s
  if passRuns s then s else if memReady s then startPass s1 else { s1 with mem.nowWaits := true }

/-- A write of a register of the MEM island, which answers ABSENT while that is down (R31). -/
def onMemReg (off : Nat) (f : State → State) (s : State) : State :=
  if islandAnswers 11 s then f s else absentWrite 37 (regBase + off) s

def execScrubNow (s : State) : Host.Outcome State Fault Refusal := done (onMemReg R.SCRUB_CTRL fxScrubNow s)

/-- Writing SCRUB_CTRL: PERIOD_H re-spreads the patrol, and 0 stops it and is recorded; NOW acts too (R204, R205). -/
def fxScrubPeriod (v : W32) (s : State) : State :=
  let s1 := wrFld R.SCRUB_CTRL 7 0 (fld v 7 0) s
  let s2 := if fld v 7 0 = 0 then raise 6 5 noInst [] s1 else s1
  if bitAt v 31 then fxScrubNow s2 else s2

def execScrubPeriodWrite (value : W32) (s : State) : Host.Outcome State Fault Refusal :=
  done (onMemReg R.SCRUB_CTRL (fxScrubPeriod value) s)

/-- A stack's immediate pass ends; with the last one NOW clears, and the patrols resume (R205). -/
def fxPassEnd (q : Nat) (s : State) : State :=
  let s1 := setStack q (fun k => { k with immediate := none }) s
  if passRuns s1 then s1 else clrBits R.SCRUB_CTRL (2 ^ 31) s1

def execScrubPassComplete (q : Fin 4) (s : State) : Host.Outcome State Fault Refusal :=
  done (if (stack s q).immediate.isSome then fxPassEnd q s else s)

/-- TC_MODE is held: it answers while the MEM island is down (R200). -/
def execTcModeWrite (value : W32) (s : State) : Host.Outcome State Fault Refusal :=
  done (wr R.TC_MODE (value &&& 1) s)

/-! Die sensors and refresh bands (R193 to R195) -/

/-- Die sensor d of stack q. -/
def die (s : State) (q d : Nat) : DieSens := s.mem.dies.get {} (16 * q + d)
def setDie (q d : Nat) (f : DieSens → DieSens) (s : State) : State :=
  { s with mem.dies := SMap.upd {} s.mem.dies (16 * q + d) f }

/-- Whether a reading jumps by more than 5 K. -/
def DieSens.jumps5 (x : DieSens) (t : Int) : Bool :=
  match x.last with
  | some l => decide (50 < (t - l).natAbs)
  | none => false

/-- One reading of a healthy die sensor, in 0.1 °C, against the temperature of the logic beneath (R195). -/
def DieSens.reads (x : DieSens) (t zone : Int) (others : Bool) (at_ : Nat) : DieSens :=
  let eq_ := x.last == some t
  { x with
    last := some t
    same := if eq_ then x.same + 1 else 1
    moved := if eq_ then x.moved || others else false
    outside := if t < -200 || 1500 < t then x.outside + 1 else 0
    jumps := (x.jumps.filter (fun u => at_ ≤ u + 100)) ++ (if x.jumps5 t then [at_] else [])
    away := if zone + 50 < t || t < zone - 450 then x.away + 1 else 0 }

/-- Cause of a die sensor that is broken, in the order of R195; 0 none. -/
def DieSens.cause (x : DieSens) : Nat :=
  if 1024 ≤ x.same && x.moved then 1
  else if 4 ≤ x.outside then 2
  else if 4 ≤ x.jumps.length then 3
  else if 11 ≤ x.away then 4
  else 0

/-- One die's reading of this round; `s0` holds every die as the round before left it, and so what changes in this one (R195). -/
def dieRead (q : Nat) (temps : List Int) (s0 s : State) (d : Nat) : State :=
  let x := die s q d
  if x.broken then s
  else
    let others := (List.range 16).any (fun e => e != d
      && (die s0 q e).last.isSome && (die s0 q e).last != some (10 * temps.getD e 0))
    let y := x.reads (10 * temps.getD d 0) (zoneT s (8 + q)) others (now s)
    if y.cause = 0 then setDie q d (fun _ => y) s
    else raise 6 6 q (leBytes 1 q ++ leBytes 1 d ++ leBytes 1 y.cause)
      (setBits (R.DIE_BROKEN q) (2 ^ d) (setDie q d (fun _ => { y with broken := true }) s))

/-- What a die reads as: a broken sensor as the temperature of the logic beneath. -/
def dieT (s : State) (q d : Nat) : Int :=
  if (die s q d).broken then zoneT s (8 + q) else (die s q d).last.getD 0

/-- Band of a DRAM die temperature, and a band's lower boundary, in 0.1 °C (R193). -/
def bandOf (t : Int) : Nat := if t ≤ 850 then 0 else if t ≤ 950 then 1 else if t ≤ 1050 then 2 else if t ≤ 1150 then 3 else 4
def bandFloor (b : Nat) : Int := 750 + 100 * b

/-- Put a stack into a band: HOT follows, and entry into band 4 is recorded (R194). -/
def enterBand (q b : Nat) (s : State) : State :=
  let s1 := setStack q (fun k => { k with band := b, below := 0 }) s
  let s2 := if 3 ≤ b then setBits R.MEM_STATE (2 ^ (8 + q)) s1 else clrBits R.MEM_STATE (2 ^ (8 + q)) s1
  if b = 4 then raise 6 2 q [] s2 else s2

/-- The 16 die sensors of a stack are read: the hottest gives its temperature, and a higher band is entered at once. -/
def fxDieTemps (q : Nat) (temps : List Int) (s : State) : State :=
  let s1 := (List.range 16).foldl (dieRead q temps s) s
  let ts := (List.range 16).map (dieT s1 q)
  let t := maxInt 0 ts
  let hot := ((List.range 16).find? (fun d => ts.getD d 0 == t)).getD 0
  let k := stack s1 q
  let s2 := setStack q (fun x => { x with
    tmax := t, hotDie := hot
    below := if k.band ≠ 0 && t + 20 ≤ bandFloor k.band then k.below + 1 else 0 }) s1
  if k.band < bandOf t then enterBand q (bandOf t) s2 else s2

def execDramTempRead (q : Fin 4) (temps : List Int) (s : State) : Host.Outcome State Fault Refusal :=
  done (if islandOn 11 s then fxDieTemps q temps s else s)

def execRefreshBandLower (q : Fin 4) (s : State) : Host.Outcome State Fault Refusal :=
  done (if (stack s q).band ≠ 0 && 100 ≤ (stack s q).below then enterBand q ((stack s q).band - 1) s else s)

/-! Training (R209, R210) -/

/-- STATE of MEM_STATE. -/
def memStateOf (s : State) : Nat := rdFld s R.MEM_STATE 2 0

/-- A controller's training ends: with all four trained the fill begins; the third failure ends in FAILED, a Keep event
and the suspension of every cluster. -/
def fxTraining (q : Nat) (ok : Bool) (s : State) : State :=
  let s1 := setStack q (fun k => { k with tries := k.tries + 1, trained := ok }) s
  if ok then
    (if (List.range 4).all (fun r => (stack s1 r).trained) then wrFld R.MEM_STATE 2 0 2 s1 else s1)
  else if 3 ≤ (stack s1 q).tries then
    (List.range 8).foldl (fun a c => suspendCluster c a) (raise 6 4 q [] (wrFld R.MEM_STATE 2 0 4 s1))
  else s1

def execMemTrainingComplete (q : Fin 4) (ok : Bool) (s : State) : Host.Outcome State Fault Refusal :=
  done (if memStateOf s = 1 && !(stack s q).trained then fxTraining q ok s else s)

/-- A stack is zero-filled; with all four STATE is READY, and an immediate pass that waited starts. -/
def fxZeroFill (q : Nat) (s : State) : State :=
  let s1 := setBits R.MEM_STATE (2 ^ (4 + q)) s
  if rdFld s1 R.MEM_STATE 7 4 = 15 then
    let s2 := wrFld R.MEM_STATE 2 0 3 { s1 with su.hcrLost := false }
    if s2.mem.nowWaits then startPass s2 else s2
  else s1

def execMemZeroFillComplete (q : Fin 4) (s : State) : Host.Outcome State Fault Refusal :=
  done (if memStateOf s = 2 then fxZeroFill q s else s)

end Sys2Proof.Machine
end

