-- ==== Sys2Proof/Machine/RailEvents.lean ====
section
/-! DEFINITION. What happens to rails and to the sequences over them (09): completions, power-good, falls, gaps,
failures, slot timing, and the start and end of SEQUENCING-UP.
Log entries coded here: 36 (DEDUCED), 102 (DEDUCED), 103 (DEDUCED), 160 (DEDUCED), 260 (DEDUCED), 273 (DEDUCED). -/

namespace Sys2Proof.Machine

/-- The last parent of a waiting rail is ON: the enable is issued, and the waiting strand waits for its action
(R301). The lowest of several strands issues it (R292). -/
def fxParentsOn (r : Nat) (s : State) : State :=
  if enableFinds s r = .issue then
    match (List.range 16).find? (fun n => (strand s n).run = 2 && (strand s n).wait == .parents r) with
    | some n => stitchWait n (.action r) (enableRail r s)
    | none =>
      if s.st.slotWait.contains r then enableRail r { s with st.slotWait := s.st.slotWait.erase r } else s
  else s

def execParentsOn (r : Fin 256) (s : State) : Host.Outcome State Fault Refusal := done (fxParentsOn r s)

/-- Whether a two-wire request is for rail r. -/
def TwReq.forRail (q : TwReq) (r : Nat) : Bool := q.what == .action r || q.what == .margin r

/-- The two-wire transaction of rail r is over: its port serves the next requester. -/
def twRailDone (r : Nat) (s : State) : State :=
  if railHasPmbus s.st.image r then
    let n := railPmPort s.st.image r
    let p := twPort s n
    let s1 := setTw n (fun p => { p with queue := p.queue.filter (fun q => !q.forRail r) }) s
    match p.cur with
    | some q =>
      if q.forRail r then
        twFree n (bump (R.TW_CNT_NACK n) (setTw n (fun p => { p with cur := none }) s1)) else s1
    | none => s1
  else s

/-- As `twRailDone`, the transaction having been acknowledged. -/
def twRailAck (r : Nat) (s : State) : State :=
  if railHasPmbus s.st.image r then
    let n := railPmPort s.st.image r
    let p := twPort s n
    let s1 := setTw n (fun p => { p with queue := p.queue.filter (fun q => !q.forRail r) }) s
    match p.cur with
    | some q => if q.forRail r then twFree n (setTw n (fun p => { p with cur := none }) s1) else s1
    | none => s1
  else s

/-- An enable or disable action is complete at its pin, line or acknowledgement, and the stitch that waits for it
completes (R287). A margin write that is acknowledged completes in the same way (R296). -/
def fxActionComplete (r : Nat) (s : State) : State :=
  marginAck r (twRailAck r (setRail r (fun x => { x with act := .none }) s))

def execEnableActionComplete (r : Fin 256) (s : State) : Host.Outcome State Fault Refusal :=
  done (if (rail s r).act ≠ .none || (List.range 16).any (fun n => (strand s n).wait == .margin r)
    then fxActionComplete r s else s)

/-- A PMBus write that was not acknowledged is sent again 50 µs later; after three attempts the rail fails with
EN_FAIL (R287, R417). A port that is STUCK fails it at once (R414). -/
def fxAttemptRetry (r : Nat) (s : State) : State :=
  let n := railEnIndex s.st.image r
  let s1 := twRailDone r (setBits (R.TW_ERR n) 4 s)
  if 3 ≤ (rail s r).tries || twState n s = 5 then
    let s2 := railIsDown r (failRail r Cause.EN_FAIL {} s1)
    -- a sequence that runs may have begun to switch the rail off at once
    if (rail s r).act = .enabling && (rail s2 r).act = .disabling then s2 else setRail r (fun x => { x with act := .none }) s2
  else
    twEngine n (operationReq s.st.image r (operationValue s.st.image r (rail s r).driven))
      (setRail r (fun x => { x with tries := x.tries + 1 }) s1)

/-- The margin write of rail r that was not acknowledged. -/
def marginRefused (s : State) (r : Nat) : Option TwReq :=
  let p := twPort s (railPmPort s.st.image r)
  (p.again ++ p.cur.toList).find? (fun q => q.what == .margin r)

/-- A margin write is sent again 50 µs later, and after three attempts the rail fails with EN_FAIL (R287, R417). A margin has ended
where its rail has left ON (R297). -/
def fxMarginRetry (r : Nat) (q : TwReq) (s : State) : State :=
  let n := railPmPort s.st.image r
  let s1 := if (twPort s n).cur == some q then
      twFree n (bump (R.TW_CNT_NACK n) (setBits (R.TW_ERR n) 4 (setTw n (fun p => { p with cur := none }) s)))
    else setTw n (fun p => { p with again := p.again.erase q }) s
  if (rail s r).st ≠ .on then marginAck r s1
  else if 3 ≤ q.tries then marginAck r (failRail r Cause.EN_FAIL {} s1)
  else twEngine n { q with tries := q.tries + 1 } s1

def execPmbusAttemptRetry (r : Fin 256) (s : State) : Host.Outcome State Fault Refusal :=
  done (if railEnKind s.st.image r = 1 && (rail s r).act ≠ .none then fxAttemptRetry r s
    else match marginRefused s r with
      | some q => fxMarginRetry r q s
      | none => s)

/-- A rail's power-good source first reports good: the rail is ON (R290), which completes a WAITPG on it. -/
def fxPowerGood (r : Nat) (s : State) : State := setRail r (fun x => { x with st := .on, pg := true, votes := 0 }) s

def execPowerGood (r : Fin 256) (s : State) : Host.Outcome State Fault Refusal :=
  done (if (rail s r).st = .rising then fxPowerGood r s else s)

/-- A FALLING rail's voltage drops below OFF_MV: it is OFF (R290). A FAILED rail that was switched off keeps its
mark. -/
def fxBelowOff (r : Nat) (s : State) : State :=
  railIsDown r (setRail r (fun x =>
    { x with st := if x.st = .falling then .off else x.st, high := false }) s)

def execRailBelowOff (r : Fin 256) (s : State) : Host.Outcome State Fault Refusal :=
  done (if (rail s r).st = .falling || ((rail s r).st = .failed && !(rail s r).driven) then fxBelowOff r s else s)

/-- OFF_GAP_US passes, and the next rail of the sequence may be disabled (R304). -/
def fxGapElapsed (r : Nat) (s : State) : State :=
  { s with st.downs := s.st.downs.map (fun d =>
      if d.cur = some r && d.gap then { d with cur := none, gap := false } else d) }

def execOffGapElapsed (r : Fin 256) (s : State) : Host.Outcome State Fault Refusal := done (fxGapElapsed r s)

/-- A rail has been switched off and its voltage is not known to have fallen (R290, R304). -/
def stillHigh (s : State) (r : Nat) : Bool :=
  (rail s r).st == .falling || ((rail s r).st == .failed && !(rail s r).driven && (rail s r).high)

/-- A rail is still at or above OFF_MV after FALL_TMO: it fails with NO_FALL (R291), and its sequence goes on. A FAILED rail that an
isolation or a sequence has switched off is held to its FALL_TMO too (R304). -/
def fxFallTimeout (r : Nat) (a : FailAt) (s : State) : State := railIsDown r (failRail r Cause.NO_FALL a s)

def execFallTimeout (r : Fin 256) (mv da tUs : Nat) (s : State) : Host.Outcome State Fault Refusal :=
  done (if stillHigh s r && (rail s r).cause ≠ Cause.NO_FALL && railOffMv s.st.image r ≤ mv && !(reversing s && s.st.pfailMode)
    then fxFallTimeout r { mv := mv, da := da, tUs := tUs } s else s)

/-- The nominal voltage of a rail in 1/1000 mV: moved by the margin in force; the VCORE rail follows the set-point
the power-management core commands (R290). -/
def railNominal (s : State) (r : Nat) : Int :=
  let v : Int := if railIsVcore s.st.image r && s.aon.setMv ≠ 0 then s.aon.setMv else railVnom s.st.image r
  v * (1000 + (rail s r).margin)

/-- Below or above the window (R290). -/
def belowWindow (s : State) (r mv : Nat) : Bool :=
  (mv : Int) * 200000 < railNominal s r * (200 - (descByte s.st.image r 10 : Int))
def aboveWindow (s : State) (r mv : Nat) : Bool :=
  railNominal s r * (200 + (descByte s.st.image r 11 : Int)) < (mv : Int) * 200000

/-- Whether the condition of a failure holds, in the states in which it is detected (R291): 0 UV, 1 OV, 2 OC,
3 PG_LOST. The event says that it has held for DEB samples, after BLANK where that applies. -/
def failureHolds (s : State) (r k mv da : Nat) : Bool :=
  let img := s.st.image
  let st := (rail s r).st
  match k with
  | 0 => st == .on && descByte img r 10 != 0 && belowWindow s r mv
  | 1 => (st == .rising || st == .on) && descByte img r 11 != 0 && aboveWindow s r mv
  | 2 => (st == .rising || st == .on) && descHalf img r 12 != 0 && descHalf img r 12 < da
  | _ => st == .on

/-- UV, OV, OC or PG_LOST has held: the rail fails (R291, R304). -/
def execRailFailureDetected (r : Fin 256) (k : Fin 4) (mv da tUs : Nat) (s : State) :
    Host.Outcome State Fault Refusal :=
  done (if railPresent s.st.image r && failureHolds s r k mv da then
    failRail r (if k = 3 then Cause.PG_LOST else k.val + 2) { mv := mv, da := da, tUs := tUs }
      (setRail r (fun x => { x with pg := if k = 3 then false else x.pg }) s)
    else s)

/-- A rail's source now reads good or not good: RISING becomes ON; ON past BLANK fails with PG_LOST (R288). -/
def pgReading (r : Nat) (good pastBlank : Bool) (tUs : Nat) (s : State) : State :=
  if good then (if (rail s r).st = .rising then fxPowerGood r s else setRail r (fun x => { x with pg := true }) s)
  else
    let s1 := setRail r (fun x => { x with pg := false }) s
    if (rail s r).st = .on && pastBlank then failRail r Cause.PG_LOST { tUs := tUs } s1 else s1

/-- One STATUS_WORD poll of a PG_KIND 2 rail: DEB valid readings change the state, and ten polls without one count
as a reading of not good (R288). POWER_GOOD# is bit 11. -/
def fxPoll (r : Nat) (word : Option W32) (pastBlank : Bool) (tUs : Nat) (s : State) : State :=
  match word with
  | none =>
    if 10 ≤ (rail s r).misses + 1 then
      pgReading r false pastBlank tUs (setRail r (fun x => { x with misses := 0, votes := 0 }) s)
    else setRail r (fun x => { x with misses := x.misses + 1 }) s
  | some w =>
    let good := !bitAt w 11
    let differs := good != (rail s r).pg
    let votes := if differs then (rail s r).votes + 1 else 0
    if differs && railDeb s.st.image r ≤ votes then
      pgReading r good pastBlank tUs (setRail r (fun x => { x with misses := 0, votes := 0 }) s)
    else if !differs && !good && (rail s r).st = .on then
      -- the source still reads not good since before BLANK ended
      pgReading r false pastBlank tUs (setRail r (fun x => { x with misses := 0, votes := 0 }) s)
    else setRail r (fun x => { x with misses := 0, votes := votes }) s

def execStatusWordPoll (r : Fin 256) (word : Option W32) (pastBlank : Bool) (tUs : Nat) (s : State) :
    Host.Outcome State Fault Refusal :=
  done (if railPgKind s.st.image r = 2 && (rail s r).act ≠ .enabling
      && ((rail s r).st = .rising || (rail s r).st = .on) then fxPoll r word pastBlank tUs s else s)

/-- Nothing above STBY_MARK is left to disable, and the last gap is over. -/
def reverseOver (s : State) : Bool :=
  s.st.downs.any (fun d => d.why == .reverse) && s.st.downs.all (fun d => d.why == .reverse && d.cur.isNone)
    && (s.st.journal.drop s.st.stbyMark).isEmpty

/-- The last disable of a tray reverse sequence, or of the whole-journal one after an AON trip, has been made (R308, R310). -/
def disablesOver (s : State) : Bool :=
  reverseOver s || (s.st.phase == 4 && s.st.journal.isEmpty && s.st.downs.all (fun d => d.cur.isNone))

/-- The falls are checked together: every rail still at or above OFF_MV fails with NO_FALL (R308). -/
def fxPfailCheck (mv : List Nat) (tUs : Nat) (s : State) : State :=
  (List.range 256).foldl (fun a r =>
    if stillHigh a r && (rail a r).cause ≠ Cause.NO_FALL then
      (if railOffMv a.st.image r ≤ mv.getD r 0 then failRail r Cause.NO_FALL { mv := mv.getD r 0, tUs := tUs } a
       else fxBelowOff r a)
    else a) { s with st.fallsChecked := true }

def execPfailFallCheck (mv : List Nat) (tUs : Nat) (s : State) : Host.Outcome State Fault Refusal :=
  done (if s.st.pfailMode && disablesOver s then fxPfailCheck mv tUs s else s)

/-- A slot rail's on-delay is reached: it is enabled subject to its parents; one that must wait records one event
(R313). -/
def fxSlotEnable (r : Nat) (s : State) : State :=
  let s1 := { s with st.slotUp := s.st.slotUp.erase r }
  match enableFinds s1 r with
  | .complete => s1
  | .waits => raise 2 4 r [] { s1 with st.slotWait := s1.st.slotWait ++ [r] }
  | .parentFailed => markFailed r Cause.PARENT {} s1
  | .issue => enableRail r s1

def execSlotEnableTime (r : Fin 256) (s : State) : Host.Outcome State Fault Refusal :=
  done (if s.st.slotUp.contains r.val && strandsGo s then fxSlotEnable r s else s)

/-- A slot rail's off-delay is reached: the reverse sequence may take it when its turn comes (R313). -/
def execSlotDisableTime (r : Fin 256) (s : State) : Host.Outcome State Fault Refusal :=
  done { s with st.slotDown := s.st.slotDown.filter (fun x => x != r.val) }

/-- A slot rail's PG_TMO runs out without power-good: the rail fails with NO_PG (R313). -/
def execSlotPgTimeout (r : Fin 256) (mv da tUs : Nat) (s : State) : Host.Outcome State Fault Refusal :=
  done (if slotMode s && (slotRails s.st.image).contains r.val && (rail s r).st = .rising
    then failRail r Cause.NO_PG { mv := mv, da := da, tUs := tUs } s else s)

def execFirstFailureWritten (torn : Bool) (s : State) : Host.Outcome State Fault Refusal :=
  done (match s.st.latch with
    | some f => fxFirstFailure torn f s
    | none => s)

/-- Writing ST_GROUP_BLOCK blocks or unblocks groups (R302). -/
def fxGroupBlock (v : W32) (s : State) : State := wr R.ST_GROUP_BLOCK (v &&& 0x1FE#32) s

def execStGroupBlockWrite (v : W32) (s : State) : Host.Outcome State Fault Refusal := done (fxGroupBlock v s)

/-! Sequences -/

/-- Start the strands that have an entry; in MODE 1 strand 0 alone (R299, R312). -/
def startStrands (s : State) : State :=
  (List.range 16).foldl (fun a n =>
    let e := imgEntry a.st.image n
    if e = 0xFFFF || (slotMode a && n ≠ 0) then a else startStrand n e a) s

/-- The tray seed (R157): computed by the security core before the tray first leaves STANDBY, unchanged until the next
power cycle. -/
def traySeed (s : State) : Nat :=
  leAt (sha512 (keySeed s 3 ++ leBytes 4 (activeGen s) ++ leBytes 4 s.aon.powerCycles)) 0 8
def drawSeed (s : State) : State :=
  if s.assure.seed.isNone && secOperational s then
    let v := s.assure.seedHeld.getD (traySeed s)
    { s with assure.seed := some v, assure.seedHeld := some v }
  else s

/-- The serial numbers of tagged accelerators are read when their positions power up (R175). -/
def checkTags (s : State) : State := (List.range 8).foldl (fun t a => checkTag a t) s

/-- Enter SEQUENCING-UP: marks and signals cleared, the strands at their entries (R21, R295, R306). -/
def beginUp (s : State) : State :=
  let s1 := setTray .sequencingUp (drawSeed (checkTags { s with chip.onHeld := false }))
  startStrands (clearMarks (fun _ => true)
    { s1 with st.phase := 2, st.signals := 0, st.seqFailed := false, st.slotStarted := false, st.slotUp := [],
              st.slotWait := [], st.accWait := [], cfg.attempt := s1.cfg.probation })

/-- RACK_PERMIT as the AON island takes it: low while VSTBY lies below its threshold (R347, R500). -/
def permitHigh (s : State) : Bool := s.chip.permit && !s.chip.vstbyBad

/-- Nothing on the hard lines forbids power-on (R348). -/
def permitted (s : State) : Bool := permitHigh s && !s.chip.rackOff

/-- The power-management and scheduler cores have verified images: without them the tray does not leave STANDBY
(R437). -/
def managersReady (s : State) : Bool :=
  [1, 2].all (fun k => !((s.aon.cores.get {} k).image).isEmpty)

/-- What SEQUENCING-UP waits for in STANDBY (R21, R309). -/
def upMayStart (s : State) : Bool :=
  s.chip.tray == .standby && s.chip.onHeld && permitted s && managersReady s && progValid s && s.st.hswEn
    && (match s.chip.offEnd with
        | none => true
        | some t => t + rdFld s R.ST_CFG 31 16 ≤ now s)
    && (match s.chip.hswRise with
        | none => true
        | some t => t + 50 ≤ now s)

def execSequencingUpStart (s : State) : Host.Outcome State Fault Refusal :=
  done (if upMayStart s then beginUp { s with chip.hswRise := none } else s)

/-- An A port is trained, or recorded as down. -/
def aPortSettled (s : State) (k : Nat) : Bool :=
  match (port s k).st with
  | .up => true
  | .down => true
  | .off => !accPowered s k
  | .test => true
  | _ => false

/-- Every strand has reached END, every slot rail has had its turn, and every A port is trained or recorded as down
(R21). -/
def upMayEnd (s : State) : Bool :=
  s.chip.tray == .sequencingUp && s.st.phase == 2 && (List.range 16).all (fun n => (strand s n).run == 0)
    && (!slotMode s || (s.st.slotStarted && s.st.slotUp.isEmpty && s.st.slotWait.isEmpty))
    && (List.range 8).all (aPortSettled s)

/-- An attempt passes in READY, or in DEGRADED with RAIL_FAULT clear and every ACC_DOWN bit in a blocked group
(R487). -/
def attemptPasses (s : State) : Bool :=
  let c := degradeCause s
  c == 0 || (!c.testBit 23 && (List.range 8).all (fun a => !c.testBit a || groupBlocked s (a + 1)))

/-- The tray enters READY, or DEGRADED if any degrade cause is set (R21); the on order ends, and an attempt under
probation is judged. -/
def endUp (s : State) : State :=
  let s1 := { s with st.phase := 0, st.seqFailed := false }
  let s2 := setTray (if degradeCause s1 = 0 then .ready else .degraded) s1
  finishLong .trayOn St.DONE [] (judgeAttempt (attemptPasses s2) s2)

def execSequencingUpEnd (s : State) : Host.Outcome State Fault Refusal :=
  done (if upMayEnd s then endUp s else s)

/-- The engine's part of the end of a tray reverse sequence: HSW_EN goes low first if a rail failed to fall or to be
disabled (R309). -/
def endReverse (s : State) : State :=
  { s with
    st.downs := s.st.downs.filter (fun d => d.why != .reverse)
    st.phase := 0
    st.seqFailed := false
    st.slotDown := []
    st.hswEn := !s.st.noFallSeen && s.st.hswEn
    st.hswLatch := s.st.hswLatch || s.st.noFallSeen }

/-- The reverse sequence is over: its last entry is down, in PFAIL mode the falls have been checked, and every island that it
leaves off has drained (R18). -/
def reverseMayEnd (s : State) : Bool :=
  reverseOver s && (!s.st.pfailMode || s.st.fallsChecked) && !coreUpIslands s

end Sys2Proof.Machine
end

