-- ==== Sys2Proof/Machine/TwoWire.lean ====
section
/-! DEFINITION. The two-wire ports (13): core transactions and the VCORE gate, ends of transactions, recovery,
the target function, standby and self-test.
Log entries coded here: 18 (DESIGN CHOICE), 272 (DEDUCED). -/

namespace Sys2Proof.Machine

/-- Put a core's transaction past the gate (R443) and into the port's queue. -/
def queueCore (n : Nat) (q : TwReq) (s : State) : State :=
  match passGate n q s with
  | (none, t) => twCoreEnd n 2 0 t
  | (some r, t) => twServe n (setTw n (fun p => { p with queue := p.queue ++ [r] }) t)

/-- A rail with PG_KIND 2 is polled on port n (R420). -/
def portPolls (s : State) (n : Nat) : Bool :=
  (presentRails s.st.image).any (fun r => railPgKind s.st.image r == 2 && railPgIndex s.st.image r == n)

/-- The core transaction that TW_XFER describes (R423). -/
def coreReq (n : Nat) (v : W32) (s : State) : TwReq :=
  { what := .core, addr := fld v 6 0, w := regBytes s (R.TW_WBUF n 0) (fld v 15 8), rlen := fld v 23 16 }

/-- GO in TW_XFER: a core transaction (R405, R420, R423). -/
def fxGo (n : Nat) (v : W32) (s : State) : State :=
  let s1 := wr (R.TW_XFER n) ((v ||| 0x80000000#32) &&& 0xE0FFFF7F#32) s
  if twState n s = 0 || !twController n s then twCoreEnd n 7 0 s1
  else if twState n s = 5 then twCoreEnd n 5 0 s1
  else if portPolls s n && 4 < fld v 15 8 + fld v 23 16 then twCoreEnd n 8 0 s1
  else queueCore n (coreReq n v s1) (wr (R.TW_XSTAT n) 0x80000000#32 s1)

/-- Writing GO in TW_XFER queues a core transaction; a GO while BUSY is ignored. -/
def execGo (n : Fin 32) (v : W32) (s : State) : Host.Outcome State Fault Refusal :=
  done (if bitAt v 31 && !rdBit s (R.TW_XSTAT n) 31 then fxGo n v s else s)

/-- The latched error and the counter of a result (R411, R418, R423). -/
def twCount (n result : Nat) (s : State) : State :=
  match result with
  | 1 | 2 => bump (R.TW_CNT_NACK n) (setBits (R.TW_ERR n) 0x04 s)
  | 3 => bump (R.TW_CNT_ARB n) (setBits (R.TW_ERR n) 0x02 s)
  | 4 => bump (R.TW_CNT_TMO n) (setBits (R.TW_ERR n) 0x01 s)
  | 6 => bump (R.TW_CNT_PEC n) (setBits (R.TW_ERR n) 0x40 s)
  | _ => s

/-- The transaction in progress ends with its result (R405, R411): a core's goes to TW_XSTAT and TW_RBUF; an
action or a margin of the stitch engine that is acknowledged completes; one that lost arbitration is retried when
the bus is idle and counts as no attempt, and a margin write that is not acknowledged waits for its next attempt. -/
def endTransaction (n result : Nat) (data : Bytes) (q : TwReq) (s : State) : State :=
  let s1 := twCount n result (setTw n (fun p => { p with cur := none }) s)
  match q.what with
  | .core => wrBytes (R.TW_RBUF n 0) 0 (data.take 256) (twCoreEnd n result (q.w.length + data.length) s1)
  | .action r =>
    if result = 0 then marginAck r (setRail r (fun x => { x with act := .none }) s1)
    else if result = 3 then setTw n (fun p => { p with queue := q :: p.queue }) s1
    else s1
  | .margin r =>
    if result = 0 then marginAck r s1
    else if result = 3 then setTw n (fun p => { p with queue := q :: p.queue }) s1
    else setTw n (fun p => { p with again := p.again ++ [q] }) s1
  | .mode _ | .gate => if result = 3 then setTw n (fun p => { p with queue := q :: p.queue }) s1 else s1
  | what =>
    if result = 0 then fruDone what data s1
    else if result = 3 then setTw n (fun p => { p with queue := q :: p.queue }) s1
    else s1

def execTwTransactionEnd (n : Fin 32) (result : Fin 16) (data : Bytes) (s : State) :
    Host.Outcome State Fault Refusal :=
  done (match (twPort s n).cur with
    | some q => twFree n (endTransaction n result data q s)
    | none => s)

/-- SCL and SDA have been high for 50 µs, and the bus is idle (R408); a recovery that freed the lines ends so
(R413). -/
def execBusIdleDetect (n : Fin 32) (s : State) : Host.Outcome State Fault Refusal :=
  done (if twState n s = 1 || twState n s = 3 || twState n s = 4 then twFree n (twLines n true true false s) else s)

/-- A START by another controller, not addressed to this port, makes the bus busy (R408). -/
def execBusStartSeen (n : Fin 32) (s : State) : Host.Outcome State Fault Refusal :=
  done (if twState n s = 1 then twGo n 3 s else s)

/-- A STOP makes the bus idle (R408). -/
def execBusStopSeen (n : Fin 32) (s : State) : Host.Outcome State Fault Refusal :=
  done (if twState n s = 3 then twFree n s else s)

/-- SCL has been held low longer than TMO_MS (R412): as controller the transaction ends with TIMEOUT and recovery
starts; as target the partial transaction is discarded. -/
def fxSclTimeout (n : Nat) (s : State) : State :=
  match (twPort s n).cur with
  | some q => twRecover n (endTransaction n 4 [] q s)
  | none => twGo n 1 s

def execSclLowTimeout (n : Fin 32) (s : State) : Host.Outcome State Fault Refusal :=
  done (if twState n s = 2 || twState n s = 3 then fxSclTimeout n s else s)

/-- SDA low with SCL high for 50 µs without START starts recovery (R413). -/
def execStuckSdaDetect (n : Fin 32) (s : State) : Host.Outcome State Fault Refusal :=
  done (if twState n s = 1 || twState n s = 3 then twRecover n (twLines n true false false s) else s)

/-- The port is STUCK: latched, recorded (R413, R469). -/
def goStuck (n : Nat) (s : State) : State :=
  let s1 := setBits (R.TW_ERR n) 0x10 (twGo n 5 s)
  stuckEffects n (raise 5 1 n (regData (rd s1 (R.TW_STATE n))) s1)

/-- After the RST_N pulse and 1 ms the port checks the lines: idle, or STUCK (R413). -/
def fxResetRelease (n : Nat) (scl sda : Bool) (s : State) : State :=
  let s1 := twLines n scl sda false (bump (R.TW_CNT_RESET n) (setBits (R.TW_ERR n) 0x20 s))
  if scl && sda then twFree n s1 else goStuck n s1

def execResetLineRelease (n : Fin 32) (scl sda : Bool) (s : State) : Host.Outcome State Fault Refusal :=
  done (if twState n s = 4 then fxResetRelease n scl sda s else s)

/-- Every 1 s a STUCK port repeats recovery (R413). -/
def execStuckRetry (n : Fin 32) (scl sda : Bool) (s : State) : Host.Outcome State Fault Refusal :=
  done (if twState n s = 5 then
    (if scl && sda then twFree n (twLines n true true false (twRecover n s))
     else twGo n 5 (twLines n scl sda false (bump (R.TW_CNT_RESET n) (setBits (R.TW_ERR n) 0x20 (twRecover n s)))))
    else s)

/-- No transaction for STBY_MS: the target port enters STANDBY (R416). -/
def execTargetStandbyEntry (n : Fin 32) (s : State) : Host.Outcome State Fault Refusal :=
  done (if twState n s = 1 && twTarget n s && rdFld s (R.TW_TMO n) 31 16 ≠ 0 then twGo n 6 s else s)

/-- A STANDBY port sees its address: it refuses that transaction, counts it, and wakes (R416). -/
def execTargetWake (n : Fin 32) (s : State) : Host.Outcome State Fault Refusal :=
  done (if twState n s = 6 then twFree n (bump (R.TW_CNT_WAKE_NACK n) s) else s)

/-- A START or STOP where a bit was due, or a PEC error, discards the partial transaction (R418). -/
def fxProtocolError (n : Nat) (pecError : Bool) (s : State) : State :=
  let s1 := if pecError then bump (R.TW_CNT_PEC n) (setBits (R.TW_ERR n) 0x40 s)
    else bump (R.TW_CNT_PROTO n) (setBits (R.TW_ERR n) 0x08 s)
  if twState n s1 = 3 then twFree n s1 else s1

def execTargetProtocolError (n : Fin 32) (pecError : Bool) (s : State) : Host.Outcome State Fault Refusal :=
  done (if twTarget n s && (!pecError || rdBit s (R.TW_CTRL n) 6) then fxProtocolError n pecError s else s)

/-- A write to the port's target function completes into TW_TBUF (R405, R423). -/
def fxTargetWrite (n : Nat) (data : Bytes) (s : State) : State :=
  wr (R.TW_TSTAT n) (BitVec.ofNat 32 (0x10000 + min data.length 256))
    (wrBytes (R.TW_TBUF n 0) 0 (data.take 256) s)

def execTargetWriteReceived (n : Fin 32) (data : Bytes) (s : State) : Host.Outcome State Fault Refusal :=
  done (if n.val < 30 && twTarget n s && twState n s ≠ 0 && twState n s ≠ 6 then fxTargetWrite n data s else s)

/-- A read of the port's target function is served from TW_TSEND (R405, R423). -/
def execTargetReadReceived (n : Fin 32) (count : Nat) (s : State) : Host.Outcome State Fault Refusal :=
  done (if n.val < 30 && twTarget n s && twState n s ≠ 0 && twState n s ≠ 6 then
    setTw n (fun p => { p with sent := regBytes s (R.TW_TSEND n 0) (min count 256) }) s else s)

/-- A bus self-test: recovery, line checks, writes and reads; its result shows in STEST_DONE and STEST_PASS, and a
failure records one event (R421). -/
def fxSelfTest (n : Nat) (pass : Bool) (s : State) : State :=
  let s1 := wrFld (R.TW_STATE n) 17 16 (1 + 2 * b2n pass) (bump (R.TW_CNT_RECOVER n) s)
  if pass then s1 else raise 5 2 n [] s1

def execTwStestGo (n : Fin 32) (pass : Bool) (s : State) : Host.Outcome State Fault Refusal :=
  done (if twState n s = 1 then fxSelfTest n pass s else s)

/-- A write of TW_CTRL: an enable starts stuck-bus recovery; MODE 0 releases the lines after the current
transaction; an enable waits for a disable that has not completed (R413 and the collisions of 13). -/
def fxTwCtrl (n : Nat) (v : W32) (s : State) : State :=
  let s1 := wr (R.TW_CTRL n) (v &&& 0xEF#32) s
  if fld v 1 0 = 0 then
    (if twState n s = 0 then s1
     else if (twPort s n).cur.isSome then setTw n (fun p => { p with releasing := true, enableWaits := false }) s1
     else offRequests n (twLines n true true false (twGo n 0 s1)))
  else if (twPort s n).releasing then setTw n (fun p => { p with enableWaits := true }) s1
  else if twState n s = 0 && islandOn 1 s then twRecover n s1
  else s1

def execTwCtrlWrite (n : Fin 32) (v : W32) (s : State) : Host.Outcome State Fault Refusal := done (fxTwCtrl n v s)

end Sys2Proof.Machine
end

