-- ==== Sys2Proof/Machine/CfgLoad.lean ====
section
/-! DEFINITION. Configuration images (R475 to R482): their checks, and how a generation's sections apply (R478, R485).
Log entries coded here: 48 (DEDUCED), 199 (DEDUCED), 200 (DEDUCED), 201 (DEDUCED), 217 (DESIGN CHOICE). -/

namespace Sys2Proof.Machine

/-! Layout (R476, R477) -/

def cfgLength (img : Bytes) : Nat := leAt img 12 4
def cfgKind (img : Bytes) : Nat := leAt img 5 1
def cfgNsect (img : Bytes) : Nat := leAt img 6 2
def cfgSigner (img : Bytes) : Bytes := slice img 48 32

/-- The directory: type, offset and length of each section. -/
def cfgDir (img : Bytes) : List (Nat × Nat × Nat) :=
  (List.range (cfgNsect img)).map (fun i =>
    (leAt img (128 + 16 * i) 2, leAt img (132 + 16 * i) 4, leAt img (136 + 16 * i) 4))

/-- Offset and bytes of the section of a type; nothing where the image has none. -/
def cfgSect (img : Bytes) (ty : Nat) : Option (Nat × Bytes) :=
  ((cfgDir img).find? (fun e => e.1 == ty)).map (fun e => (e.2.1, slice img e.2.1 e.2.2))

def cfgBytes (img : Bytes) (ty : Nat) : Bytes := ((cfgSect img ty).getD (0, [])).2
def cfgOffset (img : Bytes) (ty : Nat) : Nat := ((cfgSect img ty).getD (0, [])).1

/-- The length that a section of a type may have (R477, R479, R480). -/
def sectLengthOk (ty n : Nat) : Bool :=
  match ty with
  | 1 => true
  | 3 => n % 12 == 0 && n ≤ 12 * 65536
  | 4 => n % 40 == 0 && n ≤ 640
  | 5 => n == 8
  | 6 => n == 80
  | 7 => n == 64
  | 8 => n == 32
  | _ => false

/-- The directory is valid (R476, R477). -/
def cfgDirOk (img : Bytes) : Bool :=
  let d := cfgDir img
  1 ≤ cfgNsect img && cfgNsect img ≤ 16
    && d.all (fun e => sectLengthOk e.1 e.2.2 && e.2.1 % 8 == 0 && 128 + 16 * cfgNsect img ≤ e.2.1
        && e.2.1 + e.2.2 + 64 ≤ cfgLength img)
    && (d.map (fun e => e.1)).eraseDups.length == d.length && d.any (fun e => e.1 == 1)

/-- Header, CHIP_ID, SERIAL and directory are valid for an image of a kind (R476). -/
def cfgHeaderOk (kind : Nat) (img : Bytes) : Bool :=
  leAt img 0 4 == 0x47464354 && leAt img 4 1 == 1 && cfgKind img == kind
    && (if kind = 0 then imageGen img != 0 else imageGen img == 0)
    && leAt img 17 3 == chipId / 256 && (leAt img 16 1 == chipId % 256 || leAt img 16 1 == 0)
    && (slice img 32 16 == zeros 16 || slice img 32 16 == fix 16 Config.serialNumber)
    && cfgDirOk img

/-- The signature over bytes 0 to LENGTH − 65. -/
def cfgSigned (key img : Bytes) : Bool :=
  Config.edVerify key (img.take (cfgLength img - 64)) (slice img (cfgLength img - 64) 64)

/-- REGS entries. -/
def regEntries (bs : Bytes) : List RegEntry :=
  (List.range (bs.length / 12)).map (fun i =>
    ⟨leAt bs (12 * i) 4, BitVec.ofNat 32 (leAt bs (12 * i + 4) 4), BitVec.ofNat 32 (leAt bs (12 * i + 8) 4)⟩)

/-- Blocks that a REGS entry may name: CHIP, METER, COOL, LEAK, TW, MEM, SUORTA, ASSURE, GHEP, FWALL (R478). -/
def cfgBlock (off : Nat) : Bool :=
  match off / 0x1000000 with
  | 0x00 | 0x03 | 0x04 | 0x05 | 0x06 | 0x0A | 0x0B => true
  | b => (0x20 ≤ b && b < 0x30) || b == 0x30 || b == 0x38

/-- An entry names fields of access RW or RWL (R478). -/
def regEntryOk (e : RegEntry) : Bool :=
  cfgBlock e.off &&
    match regRow e.off with
    | none => false
    | some r =>
      (r.acc == .rw || r.acc == .rwl) && e.mask &&& BitVec.ofNat 32 r.wmask != 0
        && e.mask &&& ~~~(BitVec.ofNat 32 (r.wmask ||| r.rsv)) == 0

/-- A register as the image sets it from its reset value. -/
def imgReg (img : Bytes) (off : Nat) : W32 :=
  (regEntries (cfgBytes img 3)).foldl (fun v e =>
    if e.off = off then (v &&& ~~~e.mask) ||| (e.val &&& e.mask) else v) (regReset off)

/-- Two ranges in GiB meet. -/
def gibOverlap (a n b m : Nat) : Bool := n != 0 && m != 0 && a < b + m && b < a + n

/-- PRESS obeys R479. -/
def pressOk (img p : Bytes) : Bool :=
  let b := leAt p 0 2
  let n := leAt p 2 2
  let area (r : Nat) : Nat × Nat := (fld (imgReg img r) 8 0, fld (imgReg img r) 24 16)
  let ev := area R.EVID_AREA
  let li := area R.LIB_AREA
  let hcr := imgReg img R.SU_HCR
  b + n ≤ 384 && !gibOverlap b n ev.1 ev.2 && !gibOverlap b n li.1 li.2
    && !gibOverlap b n (fld hcr 8 0) (fld hcr 22 16)
    && leAt p 4 2 + leAt p 6 2 ≤ fld (imgReg img R.HWIN_SIZE) 11 0

/-- The offset of the first section entry that breaks its rules (R482 step 5). -/
def cfgBreak (img : Bytes) : Option Nat :=
  let st := cfgBytes img 1
  let rs := regEntries (cfgBytes img 3)
  let sx := cfgBytes img 5
  if imageStatus (fun n => fld (imgReg img (R.TW_CTRL n)) 3 2) st ≠ St.DONE then some (cfgOffset img 1)
  else match rs.findIdx? (fun e => !regEntryOk e) with
    | some i => some (cfgOffset img 3 + 12 * i)
    | none =>
      if !starchRange (leAt sx 0 2) (leAt sx 2 2) (leAt sx 4 1) then some (cfgOffset img 5)
      else if (cfgSect img 6).isSome && !pressOk img (cfgBytes img 6) then some (cfgOffset img 6)
      else none

/-- The SIGNER of an owner image has authority (R481). -/
def signerOk (s : State) (img : Bytes) : Bool := s.cfg.ownerRef == 0 || s.cfg.ownerRef == keyRef (cfgSigner img)

/-- The status of the first check of R482 that an image fails: status, DETAIL, REASON. -/
def cfgStatus (s : State) (len : Nat) (img : Bytes) : Nat × Nat × Nat :=
  if len ≠ cfgLength img || 33554432 < len then (St.BAD_LENGTH, noDetail, 0)
  else if !cfgHeaderOk 0 img then (St.BAD_PARAM, noDetail, 1)
  else if !cfgSigned (cfgSigner img) img || !signerOk s img then (St.DENIED_AUTH, noDetail, 0)
  else if imageGen img ≤ slotGen s 0 || imageGen img ≤ slotGen s 1 then (St.BAD_PARAM, noDetail, 4)
  else match cfgBreak img with
    | some o => (St.BAD_PARAM, o, 3)
    | none => (St.DONE, noDetail, 0)

/-- An owner image in a slot verifies: at an activation with the signer's authority (R482, R485), at boot without (R486). -/
def ownerImageOk (s : State) (img : Bytes) : Bool :=
  img.length == cfgLength img && cfgHeaderOk 0 img && cfgSigned (cfgSigner img) img && (cfgBreak img).isNone
    && (s.chip.boot != .complete || signerOk s img)

/-- A factory image verifies against its vendor key (R481). -/
def factoryImageOk (img : Bytes) : Bool :=
  img.length == cfgLength img && cfgHeaderOk 1 img && leAt img 80 1 < 4 && !Config.vendorRevoked (leAt img 80 1)
    && cfgSigned (Config.vendorKey (leAt img 80 1)) img && (cfgBreak img).isNone

/-- The slot that CONFIG_STAGE writes (R482). -/
def stageSlot (s : State) : Nat :=
  if s.cfg.active = 0 then 1
  else if s.cfg.active = 1 then 0
  else if s.cfg.state0 = 0 then 0
  else if s.cfg.state1 = 0 then 1
  else if s.cfg.state0 = 4 then 0
  else if s.cfg.state1 = 4 then 1
  else if imageGen s.cfg.image0 ≤ imageGen s.cfg.image1 then 0 else 1

/-! Sections that apply (R485) -/

/-- Enrol keys: those that leave become the last unenrolled; the store of SEQUENCEs keeps 256 (R450). -/
def enrol (ks : List AuthKey) (s : State) : State :=
  let now := ks.map (fun k => keyRef k.pub)
  let was := s.sec.keys.map (fun k => keyRef k.pub)
  let gone := s.sec.seqs.filter (fun e => !was.contains e.1 && !now.contains e.1)
  let left := s.sec.seqs.filter (fun e => was.contains e.1 && !now.contains e.1)
  let cur := now.eraseDups.map (fun r => (r, ((s.sec.seqs.find? (fun e => e.1 == r)).map (fun e => e.2)).getD 0))
  let all := gone ++ left ++ cur
  { s with sec.keys := ks, sec.seqs := all.drop (all.length - 256) }

/-- Entries of AUTH (R477). -/
def authKeys (bs : Bytes) : List AuthKey :=
  (List.range (bs.length / 40)).map (fun i => ⟨slice bs (40 * i) 32, leAt bs (40 * i + 32) 1 % 8⟩)

/-- Every RW or RWL field of the blocks of R478 takes its reset value; the entries then apply in order. -/
def resetField (off : Nat) (s : State) : State :=
  match regRow off with
  | some r =>
    if cfgBlock off && (r.acc == .rw || r.acc == .rwl) then
      wr off ((rd s off &&& ~~~(BitVec.ofNat 32 r.wmask)) ||| (regReset off &&& BitVec.ofNat 32 r.wmask)) s
    else s
  | none => s

/-- The words of a generation, stored. -/
def loadRegSection (es : List RegEntry) (s : State) : State :=
  let s1 := s.regs.foldl (fun a e => resetField e.1 a) s
  loadRegs (fun _ => true) { s1 with cfg.regs := es }

/-- Run `fx` with the new value of a register whose value has changed, the old one standing until then. -/
def onChange (old : State) (off : Nat) (fx : W32 → State → State) (s : State) : State :=
  let v := rd s off
  if v = rd old off then s else fx v (wr off (rd old off) s)

/-- EN of a port has changed. -/
def onEnable (old : State) (k : Nat) (s : State) : State :=
  if rdBit s (ctrlReg k) 0 = rdBit old (ctrlReg k) 0 then s
  else if rdBit s (ctrlReg k) 0 then fxPortEnable k s else fxPortDisable k s

/-- An identity that is out of range records one event (R32). -/
def identityEvent (s : State) : State :=
  if rdBit s R.NODE_ID 31 && rdBit s R.TORUS_DIM 31 && !identityOk s then
    raise 0 2 noInst (regData (rd s R.NODE_ID) ++ regData (rd s R.TORUS_DIM)) s
  else s

/-- An area that extends beyond 384 GiB, or overlaps the other one, records an event (R189). -/
def areaEvent (s : State) (r : Nat) : State :=
  if areasOverlap s || 384 < rdFld s r 8 0 + rdFld s r 24 16 then raise 0 4 noInst (leBytes 4 r) s else s

/-- The first programmable window that would extend beyond 2^48 (R462). -/
def badWindow (s : State) : Option Nat :=
  (List.range 592).find? (fun i => rdBit s (R.WIN_CTL i) 31
    && 2 ^ 48 < rdFld s (R.WIN_BASE_HI i) 15 0 * 2 ^ 32 + rdN s (R.WIN_BASE_LO i) / 4096 * 4096 + rdN s (R.WIN_PAGES i) * 4096)

/-- Windows that extend beyond 2^48 act as disabled; the load records one event (R462). -/
def windowEvent (s : State) : State :=
  match badWindow s with
  | some i => raise 0 4 noInst (leBytes 4 (R.WIN_BASE_LO i)) s
  | none => s

/-- A ROLE 1 rail outside groups 1 to 8 acts as ROLE 0 and records one event at the load (R327); its CODE is not stated. -/
def roleEvents (s : State) : State :=
  (presentRails s.st.image).foldl (fun a r =>
    if rdFld a (R.RAIL_MCFG r) 1 0 = 1 && !(1 ≤ railGroup a.st.image r && railGroup a.st.image r ≤ 8) then
      raiseEvent ⟨3, Config.unstated 327 a.fresh % 65536, r, false, [], none⟩ (takeFresh a)
    else a) s

/-- What the new values of the registers set going. -/
def regsFollow (old s : State) : State :=
  let s1 := (List.range 32).foldl (fun a n => onChange old (R.TW_CTRL n) (fun v => fxTwCtrl n v) a) s
  let s2 := (List.range 13).foldl (fun a k => onEnable old k a) s1
  let s3 := onChange old R.ROUTE_CTRL fxRouteCtrl s2
  let s4 := if islandOn 11 s3 then onChange old R.SCRUB_CTRL fxScrubPeriod s3 else s3
  let s5 := releaseSeams (identityEvent s4)
  let s6 := windowEvent (areaEvent (areaEvent s5 R.EVID_AREA) R.LIB_AREA)
  setOutputs { s6 with heat.cfgLoaded := true, heat.cfgAt := now s6 }

/-- PRESS: its ranges, or none (R479). -/
def applyPress (p : Bytes) (s : State) : State :=
  { s with cfg.poolBase := leAt p 0 2, cfg.poolSize := leAt p 2 2, cfg.hostOff := leAt p 4 2, cfg.hostSize := leAt p 6 2,
           cfg.peerSlots := slice p 8 60 }

/-- FRU: one entry per accelerator, or none (R480). -/
def applyFru (f : Bytes) (s : State) : State :=
  let e (a : Nat) : Fru := ⟨leAt f (8 * a) 1, leAt f (8 * a + 1) 1, leAt f (8 * a + 2) 1, leAt f (8 * a + 3) 1,
    leAt f (8 * a + 4) 2, leAt f (8 * a + 6) 2⟩
  { s with cfg.fru := (List.range 8).foldl (fun m a => SMap.set {} m a (e a)) [] }

/-- OWNER_REF takes a value; a change records a Keep event (R481). -/
def setOwner (r : Nat) (s : State) : State :=
  if s.cfg.ownerRef = r then s else raise 12 7 noInst (leBytes 8 r) { s with cfg.ownerRef := r }

/-- The sections of a generation in the order STARCH, AUTH, REGS, PRESS, FRU, STITCH (R485). -/
def applySections (img : Bytes) (s : State) : State :=
  let sx := cfgBytes img 5
  let s1 := tighten (leAt sx 0 2) (leAt sx 2 2) (leAt sx 4 1) { s with cfg.loaded := img }
  let s2 := enrol (authKeys (cfgBytes img 4)) s1
  let s3 := regsFollow s2 (loadRegSection (regEntries (cfgBytes img 3)) s2)
  let s4 := applyFru (cfgBytes img 7) (applyPress (cfgBytes img 6) s3)
  roleEvents (loadProgram (cfgBytes img 1) s4)

/-- OWNER, and the first owner's reference (R481, R485). -/
def applyOwner (img : Bytes) (s : State) : State :=
  if cfgKind img ≠ 0 then s
  else
    let s1 := if s.cfg.ownerRef = 0 then setOwner (keyRef (cfgSigner img)) s else s
    match cfgSect img 8 with
    | some (_, o) => setOwner (keyRef o) s1
    | none => s1

end Sys2Proof.Machine
end

