-- ==== Sys2Proof/Machine/Meter.lean ====
section
/-! DEFINITION. Meanings of energy metering and tickets (10).
Log entries coded here: 169 (DEDUCED), 170 (DEDUCED), 172 (DEDUCED), 265 (DESIGN CHOICE), 266 (DEDUCED). -/

namespace Sys2Proof.Machine

/-! Samples and intervals (R326, R330) -/

/-- Add one sample of a rail: e = V × I, exactly. -/
def addSample (r : Nat) (vc ic : Int) (s : State) : State :=
  let v := convertCode s (2 * r) vc
  let i := convertCode s (2 * r + 1) ic
  let put (m : SMap Int) (x : Int) : SMap Int := SMap.upd 0 m r (fun y => y + x)
  { s with meter.acc := put s.meter.acc (v * i), meter.energy := put s.meter.energy (v * i),
           meter.sumV := put s.meter.sumV v, meter.sumI := put s.meter.sumI i }

/-- Tray time moves by the 1 µs of a sample, and a slew by 0.2 ns (R330); an interval that is over closes. -/
def tickMicro (s : State) : State :=
  let w := s.time.slew
  let s1 := { s with time.fifths := s.time.fifths + 5000
                     time.slew := if 0 < w then w - 1 else if w < 0 then w + 1 else 0
                     meter.samples := s.meter.samples + 1
                     meter.total := s.meter.total + 1 }
  if s1.meter.start + 10000 ≤ taiNow s1 then closeInterval s1 else s1

/-- Every 1 µs each present rail's sample energy is added, once VANA is good (R326, R327). -/
def fxMeterSample (volts amps : List Int) (s : State) : State :=
  tickMicro (if standbyUp s then
    (presentRails s.st.image).foldl (fun a r => addSample r (volts.getD r 0) (amps.getD r 0) a) s else s)

def execMeterSample (volts amps : List Int) (s : State) : Host.Outcome State Fault Refusal :=
  done (if islandOn 1 s then fxMeterSample volts amps s else s)

/-- A decided step is applied at the first sample of a 10 µs of tray time; the interval in progress closes, open
tickets take TIME_STEP, and VALID is set (R330). -/
def fxTimeStep (by_ : Int) (s : State) : State :=
  let t := (s.time.fifths : Int) + 5 * by_
  let s1 := mapOpens (fun o => { o with step := true })
    { s with time.fifths := t.toNat, time.stepBy := none, time.slew := 0, time.valid := true,
             time.stepped := some (now s) }
  if s1.meter.samples = 0 then { s1 with meter.start := max (tenMicros (taiNow s1)) s1.meter.start }
  else closeInterval s1

def execTimeStepApply (s : State) : Host.Outcome State Fault Refusal :=
  done (match s.time.stepBy with
    | some b => if taiNow s % 10000 < 1000 then fxTimeStep b s else s
    | none => s)

/-! Attribution (R332 to R335) -/

/-- ATTRIB_LAG in ns, as it acts. -/
def attribLag (s : State) : Nat := 1000 * max 20 (min 1000 (rdFld s R.TK_CFG 31 16))

/-- Entries of an INTERVAL: request, share, END. -/
def intervalEntries (p : Bytes) : List (Nat × Nat × Bool) :=
  (List.range (leAt p 8 1)).map (fun i =>
    (leAt p (16 + 20 * i) 16, leAt p (32 + 20 * i) 2, (leAt p (34 + 20 * i) 1).testBit 0))

/-- No request repeats. -/
def distinct (xs : List Nat) : Bool :=
  match xs with
  | [] => true
  | x :: t => !t.contains x && distinct t

/-- What makes an INTERVAL unusable beyond its lateness (R333). -/
def intervalOk (s : State) (p : Bytes) : Bool :=
  let es := intervalEntries p
  s.time.valid && leAt p 8 1 ≤ 64 && p.length == 16 + 20 * leAt p 8 1 && leAt p 0 8 % 10000 == 0
    && es.all (fun e => e.1 != 0) && distinct (es.map (fun e => e.1))
    && es.foldl (fun a e => a + e.2.1) 0 ≤ 65535

/-- An INTERVAL arrives: kept for its interval, or counted as late or bad (R333). -/
def fxAttribInterval (a : Nat) (p : Bytes) (s : State) : State :=
  let s1 := takeInbox a 3 1 p s
  let start := leAt p 0 8
  if start + 10000 + attribLag s1 ≤ taiNow s1 then bump R.CNT_ATTRIB_LATE s1
  else if !intervalOk s1 p then bump R.CNT_ATTRIB_BAD s1
  else { s1 with meter.reports :=
    s1.meter.reports.filter (fun r => !(r.acc == a && r.start == start)) ++ [⟨a, start, intervalEntries p⟩] }

def execAttribInterval (acc : Fin 8) (payload : Bytes) (s : State) : Host.Outcome State Fault Refusal :=
  done (if islandOn 1 s then fxAttribInterval acc payload s else s)

/-- What one request draws in an interval: its direct energy, the accelerators that carry it and those that send END
for it, and the share of their bounds that falls to it. -/
structure Draw where
  id : Nat
  direct : Int
  mask : BitVec 8
  ends : BitVec 8
  bound : Frac
  deriving DecidableEq, Repr

/-- Add one entry of an accelerator to the draws. -/
def addDraw (a : Nat) (e : Int) (b : Frac) (x : Nat × Nat × Bool) (ds : List Draw) : List Draw :=
  let d := e * x.2.1 / 65535
  let f := mkFrac (b.n * x.2.1) (b.d * 65535)
  let bit := 1#8 <<< a
  let en := if x.2.2 then bit else 0
  if ds.any (fun y => y.id == x.1) then
    ds.map (fun y => if y.id = x.1 then
      { y with direct := y.direct + d, mask := y.mask ||| bit, ends := y.ends ||| en, bound := y.bound.add f } else y)
  else ds ++ [⟨x.1, d, bit, en, f⟩]

/-- Span facts joined. -/
def Span.join (a b : Span) : Span := ⟨a.miss ||| b.miss, a.hold || b.hold, max a.unc b.unc⟩

/-- One interval enters an open entry's draw: sums, uncertainty with its end terms, span (R334, R335, R336). -/
def OpenReq.take (o : OpenReq) (iv : Interval) (d : Draw) (alloc : Int) (u : Frac) (t : Nat) : OpenReq :=
  let first := o.reopens || o.last ≤ o.start
  let term := mkFrac ((d.direct + alloc) * iv.unc) 10000
  { o with
    mask := o.mask ||| d.mask
    ended := o.ended ||| d.ends
    last := iv.start + 10000
    seenAt := t
    direct := o.direct + d.direct
    alloc := o.alloc + alloc
    unc := if first then (o.unc.add u).add term else o.unc.add u
    lastTerm := if first then {} else term
    span := o.span.join o.tail
    tail := {}
    reopens := false }

/-- Account one request's energy: to its entry, to a new one, or to UNTICKETED (R335). -/
def account (iv : Interval) (d : Draw) (alloc : Int) (u : Frac) (s : State) : State :=
  let lose (t : State) : State := { t with meter.unticketed := t.meter.unticketed + d.direct + alloc }
  if !rdBit s R.MT_CTRL 1 then lose s
  else if s.meter.opens.any (fun o => o.id == d.id) then
    mapOpens (fun o => if o.id = d.id then o.take iv d alloc u (now s) else o) s
  else if s.meter.opens.length < 65536 then
    let o : OpenReq := { id := d.id, start := iv.start, last := iv.start }
    { s with meter.opens := s.meter.opens ++ [o.take iv d alloc u (now s)]
             meter.noEntry := s.meter.noEntry.filter (fun x => x != d.id) }
  else if s.meter.noEntry.contains d.id then lose s
  else lose (bump R.CNT_UNTICKETED_REQ { s with meter.noEntry := s.meter.noEntry ++ [d.id] })

/-- Divide an interval's energy among requests, overhead and IDLE (R333, R334). -/
def divideInterval (iv : Interval) (s : State) : State :=
  let reps := if rdBit s R.MT_CTRL 0 then s.meter.reports.filter (fun r => r.start == iv.start) else []
  let energy (rs : List Nat) : Int := sumInt (rs.map (fun r => iv.energy.get 0 r))
  let bounds (rs : List Nat) : Frac := sumFrac (rs.map (railBound s iv.energy))
  let direct := (List.range 8).map (fun a => energy (directRails s a))
  let one := sumInt direct
  let input := roleRails s 3
  let raw := energy input - one
  let ovh := if input.isEmpty then energy (roleRails s 2) else max 0 raw
  let bigB := if input.isEmpty then bounds (roleRails s 2) else (bounds input).add (bounds (roleRails s 1))
  let draws := reps.foldl (fun ds r =>
    r.entries.foldl (fun es x => addDraw r.acc (direct.getD r.acc 0) (bounds (directRails s r.acc)) x es) ds) []
  let bigD := sumInt (draws.map (fun d => d.direct))
  let pool := ovh + (one - bigD)
  let alloc (d : Draw) : Int := if bigD = 0 then 0 else (pool * d.direct).fdiv bigD
  let u (d : Draw) : Frac :=
    if bigD = 0 then d.bound
    else d.bound.add (mkFrac (bigB.n * d.direct * (if bigD < 0 then -1 else 1)) (bigB.d * bigD.natAbs))
  let have_ : BitVec 8 := BitVec.ofNat 8 (bitsOf 8 (fun a => reps.any (fun r => r.acc == a)))
  let facts : Span := ⟨~~~have_, iv.hold, iv.unc⟩
  let s1 := if !input.isEmpty && raw < 0 then bump R.CNT_NEG_OVERHEAD s else s
  let s2 := mapOpens (fun o => { o with tail := o.tail.join facts }) s1
  let s3 := draws.foldl (fun a d => account iv d (alloc d) (u d) a) s2
  let ids := draws.map (fun d => d.id)
  let s4 := mapOpens (fun o => if ids.contains o.id then { o with span := o.span.join facts } else o) s3
  let s5 := { s4 with
    meter.idle := s4.meter.idle + pool - sumInt (draws.map alloc)
    meter.reports := s4.meter.reports.filter (fun r => r.start != iv.start) }
  let over_ := (s5.meter.opens.filter (fun o => ids.contains o.id && o.mask &&& ~~~o.ended == 0)).map (fun o => o.id)
  over_.foldl (fun a id => closeReq id .ended a) s5

/-- The oldest interval whose end, plus ATTRIB_LAG, has passed. -/
def intervalDue (s : State) (iv : Interval) : Bool :=
  iv.start + 10000 + attribLag s ≤ taiNow s || taiNow s < iv.start

def execIntervalAttribution (s : State) : Host.Outcome State Fault Refusal :=
  done (match s.meter.waiting with
    | iv :: t => if intervalDue s iv then divideInterval iv { s with meter.waiting := t } else s
    | [] => s)

/-! Closes (R335, R338) -/

/-- A request has appeared in no used INTERVAL for TICKET_IDLE_MS. -/
def idleDue (s : State) (o : OpenReq) : Bool := o.seenAt + max 1 (rdFld s R.TK_LIMITS 15 0) ≤ now s

def execTicketIdleClose (request : Nat) (s : State) : Host.Outcome State Fault Refusal :=
  done (match s.meter.opens.find? (fun o => o.id == request) with
    | some o => if idleDue s o then closeReq request .idle s else s
    | none => s)

/-- A request has reached TICKET_MAX_S. -/
def maxDue (s : State) (o : OpenReq) : Bool :=
  !o.reopens && o.start + 1000000000 * max 1 (rdFld s R.TK_LIMITS 31 16) ≤ taiNow s

def execTicketMaxClose (request : Nat) (s : State) : Host.Outcome State Fault Refusal :=
  done (match s.meter.opens.find? (fun o => o.id == request) with
    | some o => if maxDue s o then closeReq request .max s else s
    | none => s)

/-- BATCH_MS has passed since the first ticket of the open batch. -/
def batchDue (s : State) : Bool :=
  s.meter.batches.any (fun b => !b.closed && b.openAt + max 1 (min 1000 (rdFld s R.TK_CFG 15 0)) ≤ now s)

def execBatchTimeClose (s : State) : Host.Outcome State Fault Refusal :=
  done (if batchDue s then closeBatch true s else s)

/-- The Merkle root of a batch (R338). -/
def batchRoot (b : Batch) : Bytes :=
  digestGo b.tickets.length (b.tickets.map (fun t => sha512 (0 :: t)))

/-- The batch header (R339). -/
def batchHeader (s : State) (b : Batch) : Bytes :=
  leBytes 4 0x48435442 ++ leBytes 1 1 ++ leBytes 1 (b2n b.byTime + 2 * b2n b.delayed + 4 * b2n s.meter.firstBatch)
    ++ leBytes 2 (nodeId s) ++ leBytes 8 b.idx ++ leBytes 8 b.firstSeq ++ leBytes 2 b.tickets.length ++ zeros 2
    ++ leBytes 4 b.calId ++ leBytes 8 b.openTai ++ leBytes 8 b.closeTai ++ fix 64 (batchRoot b)
    ++ fix 16 (if s.meter.firstBatch then [] else s.meter.prevHash)

/-- The security core signs the oldest closed batch (R339, R341), and the host is told (R342). -/
def signBatch (b : Batch) (s : State) : State :=
  let h := batchHeader s b
  let rec_ := h ++ signWith s 2 h
  let s1 := countSign { s with
    meter.batches := s.meter.batches.map (fun x => if x.idx = b.idx then { x with record := rec_ } else x)
    meter.firstBatch := false
    meter.prevHash := (sha512 rec_).take 16
    meter.lastSigned := b.firstSeq + b.tickets.length - 1 }
  notice 6 0 0 b.idx s1

/-- The oldest closed batch that waits unsigned. -/
def unsigned (s : State) : Option Batch := s.meter.batches.find? (fun b => b.closed && b.record.isEmpty)

def execBatchSigned (s : State) : Host.Outcome State Fault Refusal :=
  done (match unsigned s with
    | some b => if coreUp 0 s && secOperational s then signBatch b s else s
    | none => s)

/-! Calibration (R323 to R325) -/

/-- Start a sweep of channels, or add them to the one that runs. -/
def startSweep (chs : List Nat) (s : State) : State :=
  match s.meter.sweep with
  | some w => { s with meter.sweep := some { w with todo := w.todo ++ chs.filter (fun c => !w.todo.contains c) } }
  | none => { s with meter.sweep := some { todo := chs } }

def execCalSweepStart (s : State) : Host.Outcome State Fault Refusal :=
  done (if standbyUp s then startSweep (List.range 512) s else s)

/-- A pair lies within ±0.2 % of the factory gain and ±0.05 % of full scale of the factory offset (R324). -/
def pairOkFor (s : State) (ch : Nat) (g o : W32) : Bool :=
  let m := if ch % 2 = 0 then vRange s (ch / 2) else iMode s (ch / 2)
  let gf := (Config.calGainFactory (ch + 512 * m)).toNat
  let of_ := (Config.calOffsetFactory (ch + 512 * m)).toInt
  1000 * ((g.toNat : Int) - gf).natAbs ≤ 2 * gf && 10000 * (o.toInt - of_).natAbs ≤ 5 * (32768 * 256)

/-- DACs that the sweep's check marks bad now: one event for each new one (R324). -/
def markDacs (dac : BitVec 16) (s : State) : State :=
  (List.range 16).foldl (fun a p =>
    if dac.getLsbD p && !s.meter.dacBad.getLsbD p then raise 3 3 p [] a else a) { s with meter.dacBad := dac }

/-- One channel's calibration ends: its pair is accepted, or refused and recorded (R324); a CALIBRATE that named it has
one channel fewer to wait for. -/
def fxChannelCal (w : Sweep) (ch : Nat) (g o : W32) (dac : Nat) (s : State) : State :=
  let s1 := markDacs (BitVec.ofNat 16 dac) s
  let ok := pairOkFor s1 ch g o
  let w' : Sweep := ⟨w.todo.erase ch, w.changed || (ok && coefOf s1 ch != (g, o))⟩
  let s2 := { s1 with meter.sweep := some w' }
  let s3 := if ok then { s2 with meter.coef := SMap.set none s2.meter.coef ch (some (g, o)) }
    else raise 3 2 ch (leBytes 2 ch) (bump R.CNT_CAL_SUSPECT s2)
  if s3.meter.calNamed.contains ch then
    let left := s3.meter.calNamed.filter (fun c => c != ch)
    let s4 := { s3 with meter.calNamed := left }
    if left.isEmpty then finishLong .calibrate St.DONE [] s4 else s4
  else s3

def execChannelCalComplete (channel : Fin 512) (gain offset : W32) (dac : Nat) (s : State) :
    Host.Outcome State Fault Refusal :=
  done (match s.meter.sweep with
    | some w => if w.todo.contains channel then fxChannelCal w channel gain offset dac s else s
    | none => s)

/-- The coefficient table in register order. -/
def coefTable (s : State) : Bytes :=
  (List.range 512).flatMap (fun ch => leBytes 4 (coefOf s ch).1.toNat ++ leBytes 4 (coefOf s ch).2.toNat)

/-- The sweep ends: CAL_ID moves where a coefficient changed, and open tickets take CAL_CHANGE (R325, R336). -/
def fxSweepEnd (w : Sweep) (s : State) : State :=
  let s1 := { s with meter.sweep := none }
  if w.changed then
    let s2 := mapOpens (fun o => { o with cal := true }) { s1 with meter.calGen := s1.meter.calGen + 1 }
    raise 3 1 noInst (leBytes 4 (calId s2) ++ (sha512 (coefTable s2)).take 16) s2
  else s1

def execCalSweepEnd (s : State) : Host.Outcome State Fault Refusal :=
  done (match s.meter.sweep with
    | some w => if w.todo.isEmpty then fxSweepEnd w s else s
    | none => s)

end Sys2Proof.Machine
end

