-- ==== Sys2Proof/Machine/Press.lean ====
section
/-! DEFINITION. The commands of the Press (03, 04): cluster control, loading and running plans, self-checks, stalls and
power.
Log entries coded here: 68 (DEDUCED), 69 (DEDUCED), 89 (DEDUCED), 240 (DESIGN CHOICE), 243 (DEDUCED). -/

namespace Sys2Proof.Machine

/-! Handing a plan to a span (R139) -/

/-- Bytes of a plan image; one in the host window has been fetched (R115). -/
def planBytes (s : State) (p : Plan) (n : Nat) : Bytes := regionBytes s p.addr n

/-- The image stands: no access to its bytes is outstanding. -/
def imageReady (s : State) (p : Plan) : Bool := rangeReady s p.addr p.len

/-- The clusters of a span take a plan: LOADING. -/
def handPlan (id home span : Nat) (s : State) : State :=
  let s1 := setPlan id (fun p => { p with st := .loading, home := home }) s
  (List.range span).foldl (fun a k =>
    setCl ((home + k) % 8) (fun x => { x with st := .loading, plan := some id, restarts := 0, flagsAny := 0 }) a) s1

/-- The bit of STALL_CAUSE for a level of memory: DRAM, HOST or PEER. -/
def levelBit (l : Nat) : Nat := if l ≤ 2 then 2 else if l = 3 then 4 else 8

/-- Allocate scratch and start the plan, or leave it LOADING until space is free, waiting on the highest level that it may use
(R143, R144). -/
def allocAndStart (id : Nat) (s : State) : State :=
  match planOf s id with
  | none => s
  | some p =>
    let pl := (placePlan p.image).getD []
    match allocScratch p.image (scratchLevels s p.image p.home pl) (scratchUsed s) with
    | .error ls => setPlan id (fun q => { q with spaceWaits := true, waitLevels := levelBit (ls.getLast?.getD 2) }) s
    | .ok parts =>
      enterPhase id (setPlan id (fun q => { q with
        st := .running, place := pl, phase := 0, stagesDone := 0, stored := false, spaceWaits := false, waitLevels := 0
        parts := parts, wrote := [] }) s)

/-- The plan may be rerun: by its STOREs and LOADs, or because it is a replay, which reads accelerator windows and writes only to
tray DRAM (R103). -/
def Plan.restarts (p : Plan) (img : Bytes) : Bool :=
  (match p.owner with
   | .replay _ _ => true
   | .third _ _ => true
   | _ => false) || planRestartable img

/-- The control core of the first cluster of the span checks the plan; it is refused, or phase 0 is bound and run
(R137); restartability is recorded (R103). -/
def fxPlanLoad (id : Nat) (s : State) : State :=
  match planOf s id with
  | none => s
  | some p =>
    let img := planBytes s p p.len
    let status := planStatus s p.isSelf img
    if status ≠ St.DONE then refusePlan id status s
    else
      let s1 := setPlan id (fun q => { q with image := img, flags := 0 }) s
      allocAndStart id ((List.range (planSpan img)).foldl (fun a k =>
        setCl ((p.home + k) % 8) (fun x => { x with restartable := p.restarts img }) a) s1)

/-- The plan whose span begins at a cluster, while it is LOADING. -/
def loadingPlan (s : State) (c : Nat) : Option Plan :=
  match (cluster s c).plan.bind (planOf s) with
  | some p => if p.home = c && p.st == .loading && (cluster s c).st == .loading && coreUp (3 + c) s then some p else none
  | none => none

def execPlanLoad (c : Fin 8) (s : State) : Host.Outcome State Fault Refusal :=
  done (match loadingPlan s c with
    | some p => if imageReady s p && !p.budgetWaits && !p.spaceWaits then fxPlanLoad p.id s else s
    | none => s)

def execScratchSpaceFreed (c : Fin 8) (s : State) : Host.Outcome State Fault Refusal :=
  done (match loadingPlan s c with
    | some p => if p.spaceWaits then allocAndStart p.id s else s
    | none => s)

/-! Running -/

/-- The plan whose span begins at a cluster and that runs on all its clusters, none of them frozen by a pin (R454). -/
def runningPlan (s : State) (c : Nat) : Option Plan :=
  match (cluster s c).plan.bind (planOf s) with
  | some p =>
    if p.home = c && p.st == .running
      && p.clusters.all (fun d => (cluster s d).st == .running && (cluster s d).failed.isNone && !(cluster s d).poison
        && !s.sec.pinned.getLsbD (15 + d))
    then some p else none
  | none => none

def execHashEngineGrant (s : State) : Host.Outcome State Fault Refusal := done (grantHash s.press.hashWait.length s)

def execStall1s (c : Fin 8) (s : State) : Host.Outcome State Fault Refusal :=
  done (if stallCause s c ≠ 0 && !(cluster s c).stallTold then
      raise 10 2 c (leBytes 4 (stallCause s c)) (setCl c (fun k => { k with stallTold := true }) s)
    else s)

/-- Stage i of a plan and every stage that depends on it through streams. -/
def dependents (img : Bytes) (ph i : Nat) : List Nat :=
  (topoOrder img ph).foldl (fun acc k =>
    if (List.range 4).any (fun q => (producerOf img ((stageRec img k).inRef q)).any acc.contains) then acc ++ [k] else acc) [i]

/-- The stage of the current phase that an iron runs. -/
def Plan.stageOn (p : Plan) (g : Nat) : Option Nat := (phaseStages p.image p.phase).find? (fun i => p.ironOf i == g)

/-- The record of a COMPARE that an input with POISON left undecided (R128). -/
def poisonRecord (k : StageRec) : Bytes :=
  [2#8] ++ leBytes 1 (k.par 0 1) ++ leBytes 2 (if k.par 0 1 = 1 then k.par 2 2 else 0) ++ zeros 4 ++ List.replicate 8 0xFF#8 ++ zeros 16

/-- A COMPARE delivers its record undecided: to its tensor, or to the plan of the TAL8 itself. -/
def undecided (id i : Nat) (s : State) : State :=
  match planOf s id with
  | none => s
  | some p =>
    let k := stageRec p.image i
    let r := byteTensor (poisonRecord k)
    if k.kind ≠ 12 then s
    else
      let s1 := if p.isSelf then setPlan id (fun q => { q with reports := q.reports.filter (fun x => x.1 != i) ++ [(i, [r])] }) s else s
      match k.outRef 0 with
      | .tensor t => storeTensor id (p.ironOf i) t r s1
      | _ => s1

/-- A result of iron g carries POISON: the stages that depend on it latch POISON_IN, and their results carry it too (R95). -/
def spreadPoison (id g : Nat) (s : State) : State :=
  match planOf s id with
  | none => s
  | some p =>
    match p.stageOn g with
    | none => s
    | some i =>
      (dependents p.image p.phase i).foldl (fun a k =>
        let h := p.ironOf k
        let a1 := setIron h (fun x => { x with poison := true }) a
        if h = g then a1 else setBits (R.IRON_ERR (h / 24) (h % 24)) 16 a1) s

/-- A word poisoned at its source outside the Press has arrived at an iron of the plan: it is reloaded once. If it is poisoned
again, the plan ends with FAULT, REASON 2, and the COMPARE stages that depend on it are undecided (R95, R128). -/
def fxSourcePoison (c i : Nat) (still : Bool) (id : Nat) (s : State) : State :=
  match planOf s id with
  | none => s
  | some p =>
    let h := p.home
    let g := 24 * c + i
    let s1 := setBits (R.IRON_ERR c i) 16 (latchFault c 3 6 i s)
    let mine := s.press.poisoned.filter (fun r => r.1 == h)
    if still || mine.any (fun r => s.press.reloads.contains (h, r.2.1)) then
      let s2 := spreadPoison id g s1
      let deps := match p.stageOn g with
        | some k => dependents p.image p.phase k
        | none => []
      endPlan id .fault 2 (deps.foldl (fun a k => undecided id k a) s2)
    else
      let s2 := setCl h (fun k => { k with poison := false }) (setCl c (fun k => { k with poison := false })
        { s1 with press.poisoned := s1.press.poisoned.filter (fun r => r.1 != h)
                  press.reloads := s1.press.reloads ++ mine.map (fun r => (h, r.2.1)) })
      mine.foldl (fun a r => pressReadPiece h (15 + c) r.2.1 r.2.2 a) s2

def execSourcePoisonReload (c : Fin 8) (i : Fin 24) (still : Bool) (s : State) : Host.Outcome State Fault Refusal :=
  done (match (cluster s c).plan with
    | some id => if (cluster s c).st = .running then fxSourcePoison c i still id s else s
    | none => s)

/-! Self-checks (R100 to R104) -/

/-- IRON of FAULT_LOC: 0xFE for a bridge, 0xFF for a hash engine. -/
def faultIron (unit i : Nat) : Nat := if unit = 7 then 0xFE else if unit = 9 then 0xFF else i

/-- A check fails: counted and latched, the result carries POISON, the iron halts, the other irons freeze at the end of their
beat (R101). -/
def fxCheckFailure (c i kind unit : Nat) (s : State) : State :=
  let s1 := latchFault c kind unit (faultIron unit i) s
  let s2 := bump (if kind = 0 then R.CL_CNT_RESIDUE c else if kind = 1 then R.CL_CNT_CHECKSUM c else R.CL_CNT_TC_UNCORR c) s1
  let s3 := setBits (R.IRON_ERR c i) (if kind = 0 then 1 else if kind = 1 then 2 else 8) s2
  let s4 := setIrons c (fun x => if x.st = .active then { x with st := .frozen } else x) s3
  let s5 := setIron (24 * c + i) (fun x => { x with st := .halted, poison := true }) (match (cluster s c).plan with
    | some id => spreadPoison id (24 * c + i) s4
    | none => s4)
  if (cluster s c).plan.isSome && ((cluster s c).st = .running || (cluster s c).st = .frozen) then
    setCl c (fun k => { k with st := .frozen, failed := some i }) s5
  else s5

def execCheckFailure (c : Fin 8) (i : Fin 24) (kind : Fin 3) (unit : Fin 16) (s : State) :
    Host.Outcome State Fault Refusal :=
  done (if (cluster s c).st = .off then s else fxCheckFailure c i kind unit s)

/-- The plan is rerun from its start on the same clusters (R102). -/
def rerunPlan (c id : Nat) (s : State) : State :=
  let s1 := raise 10 1 c [] (bump (R.CL_CNT_RERUN c) s)
  let s2 := setCl c (fun k => { k with failed := none, rerun := true, ctlFroze := false }) s1
  enterPhase id (setPlan id (fun p => { p with phase := 0, stagesDone := 0, stored := false, wrote := [] }) s2)

/-- The quick test of the failing iron has ended (R102). -/
def fxQuickTest (c : Nat) (pass : Bool) (id : Nat) (s : State) : State :=
  let k := cluster s c
  if pass && k.restartable && !k.rerun then rerunPlan c id s
  else
    let s1 := if pass then s else latchFault c 6 0 (k.failed.getD 0) s
    suspendCluster c (if k.restartable then s1 else endPlan id .fault 0 s1)

def execQuickTestComplete (c : Fin 8) (pass : Bool) (s : State) : Host.Outcome State Fault Refusal :=
  done (match (cluster s c).plan with
    | some id => if (cluster s c).failed.isSome && coreUp (3 + c.val) s then fxQuickTest c pass id s else s
    | none => s)

def execSelftest (c : Fin 8) (s : State) : Host.Outcome State Fault Refusal :=
  done (if (cluster s c).st = .idle || (cluster s c).st = .suspended then startSelftest c s else s)

/-- A scrub pass over an idle iron's SRAM (R82). -/
def fxSramScrub (c i corrected : Nat) (bad : Bool) (s : State) : State :=
  let s1 := if corrected = 0 then s else setBits (R.IRON_ERR c i) 4 (bumpBy (R.CL_CNT_TC_CORR c) corrected s)
  if bad then setBits (R.IRON_ERR c i) 8 (latchFault c 2 4 i (bump (R.CL_CNT_TC_UNCORR c) s1)) else s1

def execSramScrub (c : Fin 8) (i : Fin 24) (corrected : Nat) (bad : Bool) (s : State) :
    Host.Outcome State Fault Refusal :=
  done (if (cluster s c).st ≠ .off && ((iron s (24 * c + i)).st = .idle || (iron s (24 * c + i)).st = .bound)
    then fxSramScrub c i corrected bad s else s)

/-! Control -/

def execSuspend (c : Fin 8) (s : State) : Host.Outcome State Fault Refusal := done (suspendCluster c s)

/-- RESUME acts on a SUSPENDED cluster whose last self-test passed, not while the memory has FAILED (R210); during a suspension it
waits (R104, collisions). -/
def fxResume (c : Nat) (s : State) : State :=
  let k := cluster s c
  if k.st = .suspended && rdBit s (R.SELFTEST_RESULT c) 30 && !memFailed s then
    setCl c (fun x => { x with st := .idle, susp := false }) s
  else if k.st = .selftest then setCl c (fun x => { x with resumeWaits := true }) s
  else s

def execResume (c : Fin 8) (s : State) : Host.Outcome State Fault Refusal := done (fxResume c s)

/-- Discard the loaded plan and its held state; a FROZEN cluster is IDLE at once (R111, collisions). -/
def fxAbort (id : Nat) (s : State) : State :=
  let cs := (planOf s id).elim [] (fun p => p.clusters)
  cs.foldl (fun a c => setCl c (fun k => { k with st := if k.st = .frozen && k.plan.isNone then .idle else k.st }) a)
    (endPlan id .aborted 0 s)

def execAbort (c : Fin 8) (s : State) : Host.Outcome State Fault Refusal :=
  done (match (cluster s c).plan with
    | some id => fxAbort id s
    | none => s)

/-- A register write into a cluster whose island does not answer is ABSENT (R31, R33). -/
def clusterWrite (c off : Nat) (f : State → State) (s : State) : State :=
  if islandAnswers (clusterIsland c) s then f s else absentWrite 37 (regBase + off) s

def execClFreqWrite (c : Fin 8) (v : W32) (s : State) : Host.Outcome State Fault Refusal :=
  done (clusterWrite c (R.CL_FREQ c) (wr (R.CL_FREQ c) (v &&& 0x7FF)) s)

/-- Bridge enables; clearing one under bound streams stops the spanning plans (R113). -/
def fxBridgeCtrl (c : Nat) (v : W32) (s : State) : State :=
  let s1 := wr (R.BRIDGE_CTRL c) (v &&& 3) s
  let lost (b bit : Nat) : List Nat :=
    if rdBit s (R.BRIDGE_CTRL c) bit && !bitAt v bit && bridgeLanes s b != (0, 0) then plansOver s b else []
  (lost c 0 ++ lost ((c + 7) % 8) 1).foldl (fun a id => stopPlan id a) s1

def execBridgeCtrlWrite (c : Fin 8) (v : W32) (s : State) : Host.Outcome State Fault Refusal :=
  done (clusterWrite c (R.BRIDGE_CTRL c) (fxBridgeCtrl c v) s)

/-! Restarts of the control core, power -/

def execRestartTimeout (c : Fin 8) (s : State) : Host.Outcome State Fault Refusal :=
  done (if (cluster s c).st ≠ .off && !coreUp (3 + c.val) s then restartFailed c s else s)

/-- The supply of a cluster is good: its registers reset, its control core starts, and a self-test runs (R114). -/
def fxClusterPowerUp (c : Nat) (s : State) : State :=
  let s1 := clusterPower c true s
  let s2 := if s1.aon.coreHeld.getLsbD (3 + c) || isPinned s1 (3 + c) || ((s1.aon.cores.get {} (3 + c)).image).isEmpty then s1 else
    { s1 with aon.coreDown := s1.aon.coreDown &&& ~~~(1#11 <<< (3 + c)) }
  startSelftest c s2

def execClusterPowerUp (c : Fin 8) (s : State) : Host.Outcome State Fault Refusal :=
  done (if (cluster s c).st = .off && (s.chip.tray = .sequencingUp || s.chip.tray = .ready || s.chip.tray = .degraded)
    then fxClusterPowerUp c s else s)

/-- A cluster powers down in SEQUENCING-DOWN: its plan is aborted, its host-cache lines are dropped, its crossings
drain (R108, R258, R18). -/
def fxClusterPowerDown (c : Nat) (s : State) : State :=
  let s1 := match (cluster s c).plan with
    | some id => endPlan id .aborted 0 s
    | none => s
  let mine := (s1.su.hlc.filter (fun e => e.1 % 8 == c)).map (fun e => e.1)
  coreDownSet (3 + c) (clusterPower c false (mine.foldl (fun a l => dropLine l a) s1))

def execClusterPowerDown (c : Fin 8) (s : State) : Host.Outcome State Fault Refusal :=
  done (if (cluster s c).st ≠ .off && s.chip.tray = .sequencingDown then fxClusterPowerDown c s else s)

end Sys2Proof.Machine
end

