-- ==== Sys2Proof/Machine/Recorder.lean ====
section
/-! DEFINITION. The event recorder (R463 to R474): the writing of records into Tumble and Keep, and flushes.
Log entries coded here: 167 (DEDUCED), 202 (DEDUCED), 203 (DEDUCED), 205 (DEDUCED). -/

namespace Sys2Proof.Machine

/-- Event data as a record holds it: cut to 476 bytes, filled to a multiple of 4 (R465). -/
def recData (e : Ev) : Bytes :=
  let d := e.data.take 476
  fix ((d.length + 3) / 4 * 4) d

/-- LENGTH of a record (R465). -/
def recLength (e : Ev) : Nat := 36 + (recData e).length

/-- Bytes 0 to 23 of a record, which the CRC covers. -/
def recHead (r : EvRec) : Bytes :=
  leBytes 2 (recLength r.ev) ++ leBytes 1 r.ev.cls ++ leBytes 1 (b2n r.ev.keep + 4 * b2n (476 < r.ev.data.length))
    ++ leBytes 2 r.ev.code ++ leBytes 2 r.ev.inst ++ leBytes 6 r.optime ++ zeros 2 ++ leBytes 4 r.cycles ++ leBytes 4 r.seq

/-- CRC of a record: bytes 0 to 23 and 32 to LENGTH − 5. -/
def recCrc (r : EvRec) : Nat := (crc32c (recHead r ++ recData r.ev)).toNat

/-- A record as EVENT_READ returns it: REPEAT with REPEATED set once flushed, zero before (R472). The CRC is the stored
one. RCHK of a flushed record covers SEQ and REPEAT. -/
def recCopy (r : EvRec) : Bytes :=
  let h := recHead r
  let rep := r.rep.getD 0
  let flags := leAt h 3 1 + 2 * b2n r.rep.isSome
  h.take 3 ++ leBytes 1 flags ++ h.drop 4 ++ leBytes 4 rep
    ++ (match r.rep with
      | some n => leBytes 4 (crc32c (leBytes 4 r.seq ++ leBytes 4 n)).toNat
      | none => leBytes 4 0xFFFFFFFF)
    ++ recData r.ev ++ leBytes 4 (recCrc r)

/-- The next page of Tumble; with all 3,072 in use the oldest is reused, and entries that point into it are flushed first
(R466, R471). -/
def nextPage (r : Recorder) : Recorder :=
  if r.page + 1 < r.firstPage + 3072 then { r with page := r.page + 1, used := 0 }
  else
    let gone := (r.tumble.filter (fun x => x.page == r.firstPage)).map (fun x => x.seq)
    let hit := r.coal.filter (fun c => gone.contains c.seq)
    let r1 := hit.foldl (fun a c => flushEntry c a) r
    { r1 with coal := r1.coal.filter (fun c => !gone.contains c.seq)
              tumble := r1.tumble.filter (fun x => x.page != r.firstPage)
              firstPage := r.firstPage + 1, page := r.page + 1, used := 0 }

/-- Write a record and advance the commit pointer (R466, R467). A KEEP record goes to Keep while it holds fewer than 4,096. -/
def commitRecord (x : EvRec) (r : Recorder) : Recorder :=
  let n := recLength x.ev
  let r1 := if 4096 < r.used + n then nextPage r else r
  let y := { x with page := r1.page }
  { r1 with
    tumble := r1.tumble ++ [y]
    keep := if x.ev.keep && r1.keep.length < 4096 then r1.keep ++ [y] else r1.keep
    used := r1.used + n
    seq := (x.seq + 1) % 2 ^ 32 }

/-- The coalescer entry of an event's key learns the SEQ of its newest record (R470). -/
def noteSeq (e : Ev) (q : Nat) (rest : List Ev) (r : Recorder) : Recorder :=
  if rest.any (fun f => f.cls == e.cls && f.code == e.code && f.inst == e.inst) then r
  else { r with coal := r.coal.map (fun c => if c.keyOf e && c.seq = 0 then { c with seq := q } else c) }

/-- One LOST record once room has returned (R468). -/
def lostRecord (s : State) : State :=
  let e : Ev := ⟨13, 2, noInst, false, leBytes 4 s.rcd.lost, none⟩
  if s.rcd.lost = 0 then s
  else if eventRoom e s then { s with rcd.lost := 0, rcd.queue := s.rcd.queue ++ [e] } else s

/-- The event at the head of the queue is committed; a KEEP record is told to the host (R467, R474). -/
def fxCommit (e : Ev) (rest : List Ev) (s : State) : State :=
  let x : EvRec := { ev := { e with rep := none }, optime := now s, cycles := s.aon.powerCycles, seq := s.rcd.seq, rep := e.rep }
  let s1 := { s with rcd := noteSeq e s.rcd.seq rest (commitRecord x { s.rcd with queue := rest }) }
  let s2 := if e.keep then notice 5 0 0 x.seq s1 else s1
  lostRecord s2

/-- A flush that a quiet second or a flood of 10 s brings (R471). -/
def fxFlush (c : Coal) (s : State) : State :=
  if c.last + 1000 ≤ now s then
    let r := flushEntry c s.rcd
    { s with rcd := { r with coal := r.coal.erase c } }
  else if c.flushed + 10000 ≤ now s then
    let r := flushEntry c s.rcd
    { s with rcd := { r with coal := r.coal.map (fun d => if d = c then { d with flushed := now s } else d) } }
  else s

/-- Pages of Tumble in use, and the SEQ of its oldest record. -/
def tumblePages (s : State) : Nat := if s.rcd.tumble.isEmpty then 0 else s.rcd.page + 1 - s.rcd.firstPage
def tumbleFirst (s : State) : Nat := (s.rcd.tumble.head?.map (fun r => r.seq)).getD 0

/-- EV_STATE as it reads (R493). -/
def evStateWord (s : State) : W32 :=
  BitVec.ofNat 32 (2 ^ 30 * b2n (4096 ≤ s.rcd.keep.length) + 2 ^ 29 * b2n (!s.rcd.queue.isEmpty) + s.rcd.queue.length)

/-- CFG_STATE as it reads (R493). -/
def cfgPend (s : State) : Bool :=
  match s.cfg.job with
  | .pending _ _ _ _ => true
  | _ => false

def cfgStateWord (s : State) : W32 :=
  BitVec.ofNat 32 (2 ^ 31 * b2n (cfgPend s) + 2 ^ 30 * b2n s.cfg.rollbackDue + 2 ^ 29 * b2n s.cfg.probation
    + 2 ^ 28 * b2n s.cfg.fallback + 2 ^ 24 * s.cfg.active + 65536 * s.cfg.fails + 2048 * b2n s.cfg.passed1
    + 256 * s.cfg.state1 + 8 * b2n s.cfg.passed0 + s.cfg.state0)

end Sys2Proof.Machine
end

