-- ==== Sys2Proof/Machine/Boot.lean ====
section
/-! DEFINITION. Cold reset, start-up, supplies, clocks and hard lines (01, 11, 16), the ends of the tray reverse sequences
and the restart after a trip.
Log entries coded here: 8 (DESIGN CHOICE), 11 (DEDUCED), 24 (DESIGN CHOICE), 25 (DEDUCED), 26 (DESIGN CHOICE), 27
(DESIGN CHOICE), 28 (DEDUCED), 29 (DEDUCED), 30 (DEDUCED), 31 (DEDUCED), 32 (DEDUCED), 33 (DESIGN CHOICE), 61 (DESIGN
CHOICE), 103 (DEDUCED), 225 (DESIGN CHOICE), 262 (DEDUCED), 276 (DEDUCED). -/

namespace Sys2Proof.Machine

/-! Cold reset (R26, R502) -/

/-- The record that is being written when the AON island loses its reset (R467). -/
def halfRecord (s : State) : Option EvRec :=
  match s.rcd.queue with
  | [] => none
  | e :: _ => some { ev := e, optime := now s, cycles := s.aon.powerCycles, seq := s.rcd.seq }

/-- What non-volatile memory keeps through a cold reset. -/
def keptAon (s : State) : Aon :=
  { ({} : Aon) with
    optime := s.aon.optime
    powerCycles := s.aon.powerCycles
    svnFloor := s.aon.svnFloor
    cores := (List.range 11).foldl (fun m k =>
      SMap.set {} m k { ({} : CoreSt) with slot := (coreSt s k).slot, prevSlot := (coreSt s k).prevSlot }) [] }

def keptSec (s : State) : Sec :=
  { ({} : Sec) with epoch := s.sec.epoch, seqs := s.sec.seqs, challenge := s.sec.challenge }

def keptRecorder (s : State) : Recorder :=
  { ({} : Recorder) with
    keep := s.rcd.keep, tumble := s.rcd.tumble, page := s.rcd.page, used := s.rcd.used, firstPage := s.rcd.firstPage,
    seq := s.rcd.seq, clearCount := s.rcd.clearCount, halfway := halfRecord s }

def keptCfg (s : State) : Cfg :=
  { ({} : Cfg) with
    image0 := s.cfg.image0, image1 := s.cfg.image1, factory0 := s.cfg.factory0, factory1 := s.cfg.factory1,
    state0 := s.cfg.state0, state1 := s.cfg.state1, passed0 := s.cfg.passed0, passed1 := s.cfg.passed1,
    active := s.cfg.active, fails := s.cfg.fails, probation := s.cfg.probation, rollbackDue := s.cfg.rollbackDue,
    loaded := s.cfg.loaded, ownerRef := s.cfg.ownerRef }

/-- The levels of the lines and clocks, which a reset does not change. -/
def keptLines (s : State) : Chip :=
  { ({} : Chip) with
    sysrstLow := s.chip.sysrstLow, vaonOk := s.chip.vaonOk, permit := s.chip.permit, rackOff := s.chip.rackOff,
    rackThrottle := s.chip.rackThrottle, pfailPin := s.chip.pfailPin, vstbyBad := s.chip.vstbyBad,
    onBackupClock := s.chip.onBackupClock, onRc := s.chip.onRc }

/-- A firmware or a configuration activation is pending. -/
def activationPends (s : State) : Bool :=
  s.aon.pendAct.isSome || (match s.cfg.job with
    | .pending _ _ _ _ => true
    | _ => false)

/-- A cold reset: every island is reset, every latch cleared (R26); a pending activation is discarded and recorded (R440), and an
attempt of a generation on probation that the reset ends has failed (R487). -/
def coldReset (s : State) : State :=
  let t : State :=
    { State.reset with
      pending := s.pending, fresh := s.fresh, chip := keptLines s, aon := keptAon s, sec := keptSec s,
      rcd := keptRecorder s, cfg := keptCfg (judgeAttempt false s), flash := s.flash,
      st := { ({} : Stitch) with ring := s.st.ring, torn := s.st.torn },
      meter := { ({} : Meter) with resets := s.meter.resets },
      assure := s.assure.kept }
  let u := if s.cfg.attempt && s.cfg.probation then raise 12 3 noInst (leBytes 4 (activeGen s) ++ leBytes 1 1) t else t
  if activationPends s then raise 11 9 noInst [] u else u

/-- The xSPI lands are released, and the board path of R434 can rewrite the devices (R437, R486). -/
def xspiReleased (s : State) : Bool := s.chip.boot == .failed || s.chip.sysrstLow || !s.chip.vaonOk

/-- TRAY_SVC_N is driven low: a tag stands, or no image of the security core or of the configuration verified; SYSRST_N releases
it (R174, R175, R177, R437, R486, R502). -/
def traySvcLow (s : State) : Bool :=
  !s.chip.sysrstLow && s.chip.vaonOk && (s.assure.accTag != 0 || s.assure.selfTag || s.chip.boot == .failed)

/-- THERMTRIP_N is driven low: a trip is in force; SYSRST_N releases it (R502, R504). -/
def thermtripLow (s : State) : Bool := !s.chip.sysrstLow && s.chip.vaonOk && s.chip.tripForce

/-- What the board path programmed: firmware images by 2 × class + slot, 100 and 101 the configuration slots, 102 and 103
the factory copies. -/
def program (b : List (Nat × Bytes)) (s : State) : State :=
  b.foldl (fun a e =>
    match e.1 with
    | 100 => { a with cfg.image0 := e.2 }
    | 101 => { a with cfg.image1 := e.2 }
    | 102 => { a with cfg.factory0 := e.2 }
    | 103 => { a with cfg.factory1 := e.2 }
    | k => if k < 8 then { a with flash := SMap.set [] a.flash k e.2 } else a) s

/-- SYSRST_N is low: the reset is taken and the lines are held (R502). -/
def fxSysrstLow (board : List (Nat × Bytes)) (s : State) : State :=
  let s1 := if xspiReleased s then program board s else s
  coldReset { s1 with chip.sysrstLow := true }

/-- A pulse of 10 µs or more is a cold reset, one of 2 µs or less is ignored; between them either may happen (R502). -/
def pulseTaken (ns : Nat) (taken : Bool) : Bool := 10000 ≤ ns || (2000 < ns && taken)

def execSysrstNLow (pulseNs : Nat) (taken : Bool) (board : List (Nat × Bytes)) (s : State) :
    Host.Outcome State Fault Refusal :=
  done (if pulseTaken pulseNs taken then fxSysrstLow board s else s)

/-! Start-up (R25, R436) -/

/-- The recorder recovers: a record beyond the commit pointer that passes its CRC is adopted, otherwise it is torn and
overwritten (R467). -/
def recoverRecorder (adopt : Bool) (s : State) : State :=
  match s.rcd.halfway with
  | none => s
  | some r =>
    if adopt then
      { s with rcd := commitRecord r { s.rcd with halfway := none } }
    else raise 13 3 noInst (leBytes 4 1) (bump R.CNT_TORN { s with rcd.halfway := none })

/-- The self-tests of the module: 0 passed, otherwise the test that failed (R446, R461). -/
def moduleTest (t : Nat) (s : State) : State :=
  if t = 0 then { s with sec.state := 1, sec.err := 0 } else { s with sec.state := 3, sec.err := t }

/-- DBG_CHALLENGE is drawn once per power cycle (R456). -/
def drawChallenge (s : State) : State :=
  if s.sec.challenge.isEmpty then takeFresh { s with sec.challenge := fix 32 (Config.drbg s.fresh) } else s

/-- The first BATCH and TICKET_SEQ of a cold reset are recorded (R340). -/
def batchEvent (s : State) : State :=
  let r := s.meter.resets + 1
  let n := r % 2 ^ 24 * 2 ^ 40
  raise 3 4 noInst (leBytes 8 n ++ leBytes 8 n) { s with meter.resets := r, meter.seq := n, meter.batch := n }

/-- The boot ROM verifies the security core's image; with none the SEC island is off and the tray stays in OFF (R436,
R437). -/
def bootRom (s : State) : State :=
  let s1 := loadCore 0 s
  if (coreSt s1 0).image.isEmpty then { s1 with chip.boot := .failed, aon.coreHeld := s1.aon.coreHeld &&& ~~~1#11 }
  else { s1 with chip.boot := .rom, chip.islands := s1.chip.islands ||| 1#26 }

/-- The AON island leaves reset (R25, R436). -/
def aonStarts (selfTest : Nat) (adopt : Bool) (s : State) : State :=
  bootRom (drawChallenge (moduleTest selfTest (batchEvent (recoverRecorder adopt s))))

/-- SYSRST_N rises. -/
def fxSysrstRelease (selfTest : Nat) (adopt : Bool) (s : State) : State :=
  let s1 := { s with chip.sysrstLow := false }
  if s1.chip.vaonOk then aonStarts selfTest adopt s1 else s1

def execSysrstNRelease (selfTest : Nat) (adopt : Bool) (s : State) : Host.Outcome State Fault Refusal :=
  done (if s.chip.sysrstLow then fxSysrstRelease (selfTest % 5) adopt s else s)

/-- The order in which boot tries images (R486): the active slot, the other slot when PREVIOUS and PASSED, the factory
copies of device 0 and of device 1. -/
def bootChoices (s : State) : List Nat :=
  (if s.cfg.active < 2 then
     s.cfg.active ::
       (if slotState s (1 - s.cfg.active) = 3 && slotPassed s (1 - s.cfg.active) then [1 - s.cfg.active] else [])
   else []) ++ [2, 3]

/-- An image of the list verifies. -/
def bootImageOk (s : State) (i : Nat) : Bool :=
  if i < 2 then slotState s i != 0 && ownerImageOk s (cfgImage s i) else factoryImageOk (cfgImage s i)

/-- Load a generation at boot: a fallback sets FALLBACK and records a Keep event; with no image the tray stays in OFF
(R486). -/
def bootConfig (s : State) : State :=
  match (bootChoices s).find? (bootImageOk s) with
  | none => { s with chip.boot := .failed }
  | some i =>
    let fb := i != (if s.cfg.active < 2 then s.cfg.active else 2)
    let s1 := if fb then raise 12 6 noInst [] { s with cfg.fallback := true } else s
    applySections (cfgImage s i) s1

/-- A two-wire port that is on starts with stuck-bus recovery once the PMC island is powered (R413). -/
def startPorts (s : State) : State :=
  (List.range 32).foldl (fun a n => if rdFld a (R.TW_CTRL n) 1 0 != 0 && twState n a = 0 then twRecover n a else a) s

/-- A manager core with a verified image runs (R436, R437). -/
def startManager (k : Nat) (s : State) : State :=
  let s1 := loadCore k s
  if (coreSt s1 k).image.isEmpty then s1 else
    setCore k (fun c => { c with kick := now s1 }) { s1 with aon.coreDown := s1.aon.coreDown &&& ~~~(1#11 <<< k) }

/-- The security core runs: it starts the manager cores, loads the configuration and the stitch program, sets the SEC lock,
and strand 0 starts its standby part (R436). -/
def fxSecRunning (s : State) : State :=
  let s1 := setCore 0 (fun c => { c with kick := now s }) { s with
    aon.coreDown := s.aon.coreDown &&& ~~~1#11, chip.islands := s.chip.islands ||| 7#26,
    sec.state := if s.sec.state = 3 then 3 else 2 }
  let s2 := bootConfig (startPorts (startManager 2 (startManager 1 s1)))
  if s2.chip.boot = .failed then s2
  else
    let s3 := { s2 with sec.lock := 0x7FF, chip.boot := .firmware, st.phase := 1 }
    setStrand 0 (fun t => { t with standby := true }) (startStrand 0 (imgStby s3.st.image) s3)

def execSecFirmwareRunning (s : State) : Host.Outcome State Fault Refusal :=
  done (if aonRuns s && s.chip.boot = .rom then fxSecRunning s else s)

/-- Enter STANDBY: HSW_EN is high from here on, unless it is latched low (R309). -/
def enterStandby (s : State) : State :=
  let s1 := setTray .standby s
  if s1.st.hswLatch then s1 else { s1 with st.hswEn := true }

/-- Boot is over: the standby part has ended, VSTBY and VAON lie within their windows (R21, R25). -/
def bootMayEnd (s : State) : Bool :=
  aonRuns s && s.chip.boot == .firmware && s.chip.tray == .off && !s.chip.vstbyBad && !s.chip.tripForce
    && (strand s 0).run == 0 && s.st.phase == 0

def execBootComplete (s : State) : Host.Outcome State Fault Refusal :=
  done (if bootMayEnd s then enterStandby { s with chip.boot := .complete } else s)

/-! Supplies (R500) -/

/-- VAON leaves its window: a cold reset (R26, R500). -/
def fxVaonLost (s : State) : State :=
  coldReset { s with chip.vaonOk := false, sec.challenge := [] }

def execVaonLeavesWindow (s : State) : Host.Outcome State Fault Refusal :=
  done (if s.chip.vaonOk then fxVaonLost s else s)

/-- VAON returns: the AON island starts again, and a power cycle is counted (R464); it boots unless SYSRST_N holds it. -/
def fxVaonRestored (selfTest : Nat) (adopt : Bool) (s : State) : State :=
  let s1 := { s with chip.vaonOk := true, aon.powerCycles := (s.aon.powerCycles + 1) % 2 ^ 32, assure.seedHeld := none }
  if s1.chip.sysrstLow then s1 else aonStarts selfTest adopt s1

def execVaonRestored (selfTest : Nat) (adopt : Bool) (s : State) : Host.Outcome State Fault Refusal :=
  done (if s.chip.vaonOk then s else fxVaonRestored (selfTest % 5) adopt s)

/-- PFAIL_N is taken as low: PFAIL mode, an off request, and every coalescer entry flushed (R308, R471, R503). -/
def pfailTaken (s : State) : State :=
  let s1 := setBits R.SUP_STATUS 4 { s with rcd := flushAll s.rcd, st.pfailMode := true }
  if s1.chip.tray = .off then s1 else
    let s2 := if reverseRuns s1 then cutShort (setBits R.ST_FAULT 0x10 s1) else s1
    offRequest false s2

/-- VSTBY falls below its threshold (R500). -/
def fxVstbyLow (s : State) : State := pfailTaken (setBits R.SUP_STATUS 8 { s with chip.vstbyBad := true })

def execVstbyLow (s : State) : Host.Outcome State Fault Refusal :=
  done (if aonRuns s && !s.chip.vstbyBad then fxVstbyLow s else s)

/-- PFAIL mode ends when PFAIL_N is taken as high again (R308). -/
def pfailReleased (s : State) : State := if pfailLow s then s else { s with st.pfailMode := false }

def execVstbyRestored (s : State) : Host.Outcome State Fault Refusal :=
  done (pfailReleased { s with chip.vstbyBad := false })

def execPfailNFall (s : State) : Host.Outcome State Fault Refusal :=
  done (if aonRuns s then pfailTaken { s with chip.pfailPin := true } else { s with chip.pfailPin := true })

def execPfailNRise (s : State) : Host.Outcome State Fault Refusal :=
  done (pfailReleased { s with chip.pfailPin := false })

/-! Clocks (R507) -/

/-- CLK_STATUS and SUP_STATUS as they read: the live bits beside the latched ones (16). -/
def clkStatusWord (s : State) : W32 :=
  rd s R.CLK_STATUS ||| BitVec.ofNat 32 (2 * b2n (aonRuns s && !s.chip.onRc) + b2n (aonRuns s && !s.chip.onBackupClock))
def supStatusWord (s : State) : W32 :=
  rd s R.SUP_STATUS ||| BitVec.ofNat 32 (2 * b2n (pfailLow s) + b2n (!s.chip.vstbyBad))

/-- REFCLK100 is lost: REF_LOST, an event, the lanes on the backup synthesiser, tray time in holdover. No link leaves its
state. The code of the event is not stated. -/
def fxRefclkLost (s : State) : State :=
  let s1 := beginHoldover (setBits R.CLK_STATUS 4 (clockChanges true s))
  raiseEvent ⟨0, Config.unstated 507 s1.fresh % 65536, noInst, false, [], none⟩ (takeFresh s1)

def execRefclkLost (s : State) : Host.Outcome State Fault Refusal :=
  done (if aonRuns s && !s.chip.onBackupClock then fxRefclkLost s else s)

def execRefclkReturned (s : State) : Host.Outcome State Fault Refusal := done (clockChanges false s)

/-- The crystal stops: the AON island runs from its RC oscillator, and readings count 2 K higher. -/
def fxXtalStopped (s : State) : State :=
  let s1 := setBits R.CLK_STATUS 8 { s with chip.onRc := true }
  raiseEvent ⟨0, Config.unstated 507 s1.fresh % 65536, noInst, false, [], none⟩ (takeFresh s1)

def execXtalStopped (s : State) : Host.Outcome State Fault Refusal :=
  done (if aonRuns s && !s.chip.onRc then fxXtalStopped s else s)

def execXtalReturned (s : State) : Host.Outcome State Fault Refusal := done { s with chip.onRc := false }

/-- Operating time counts while VAON is within its window (R464). -/
def execOptimeTick (s : State) : Host.Outcome State Fault Refusal :=
  done (if s.chip.vaonOk then stallTick { s with aon.optime := (s.aon.optime + 1) % 2 ^ 48 } else s)

/-! Hard lines of the rack (R347, R358) -/

/-- An off request from a hard line, in every state except OFF. -/
def lineOff (s : State) : State := if aonRuns s then offRequest false s else s

def execRackPermitLow (s : State) : Host.Outcome State Fault Refusal := done (lineOff { s with chip.permit := false })
def execRackPermitHigh (s : State) : Host.Outcome State Fault Refusal := done { s with chip.permit := true }
def execRackOffNLow (s : State) : Host.Outcome State Fault Refusal := done (lineOff { s with chip.rackOff := true })
def execRackOffNHigh (s : State) : Host.Outcome State Fault Refusal := done { s with chip.rackOff := false }

/-- RACK_THROTTLE_N falls: every accelerator's RACK cause is set and every cluster's budget cap goes to 400 MHz (R358,
R360). -/
def fxThrottleLow (s : State) : State :=
  let s1 := (List.range 8).foldl (fun a n => setAcc n (fun b => { b with rack := true, rackMs := false, freed := false }) a)
    { s with chip.rackThrottle := true }
  (List.range 8).foldl (fun a c => if (cluster a c).st = .off then a else setCl c (fun k => { k with capMhz := 400 }) a) s1

def execRackThrottleNLow (s : State) : Host.Outcome State Fault Refusal :=
  done (if aonRuns s then fxThrottleLow s else { s with chip.rackThrottle := true })

/-- RACK_THROTTLE_N rises: the RACK causes stay, and the clearance of R358 runs from here. -/
def fxThrottleHigh (s : State) : State :=
  let s1 := { s with chip.rackThrottle := false }
  if aonRuns s && s.chip.rackThrottle then
    (List.range 8).foldl (fun a n => setAcc n (fun b => { b with rack := true }) a) s1
  else s1

def execRackThrottleNHigh (s : State) : Host.Outcome State Fault Refusal := done (fxThrottleHigh s)

/-! Ends of reverse sequences -/

/-- What SEQUENCING-DOWN leaves (R154, R307): every island but the STANDBY set is off, the capsule table is empty. -/
def leaveDown (s : State) : State :=
  let s1 := if coreUpIslands s then coreIslandsOff s else s
  let s2 := (List.range 8).foldl (fun a k => portPowerDown k a) s1
  { s2 with assure := s2.assure.emptied, chip.offEnd := some (now s2) }

/-- An on order that is held clears HSW_LATCH in STANDBY and drives HSW_EN high (R309). -/
def switchAgain (s : State) : State :=
  if s.chip.onHeld && !s.st.hswEn then { s with st.hswLatch := false, st.hswEn := true, chip.hswRise := some (now s) } else s

/-- The tray reverse sequence ends in SEQUENCING-DOWN: STANDBY; an attempt that a rail failure ended has failed (R21, R307,
R487). While TRIPPED only the engine's part ends (R24). -/
def fxReverseEnd (s : State) : State :=
  let s1 := endReverse s
  if s1.chip.tray = .sequencingDown then
    let s2 := if s1.chip.offFromRail then judgeAttempt false s1 else { s1 with cfg.attempt := false }
    switchAgain (finishLong .trayOff St.DONE [] (enterStandby (leaveDown { s2 with chip.offFromRail := false })))
  else s1

def execReverseSequenceEnd (s : State) : Host.Outcome State Fault Refusal :=
  done (if reverseMayEnd s then fxReverseEnd s else s)

/-- The last signed and the last delivered TICKET_SEQ, for the event of R343. -/
def ticketsLost (s : State) : Bytes := leBytes 8 s.meter.lastSigned ++ leBytes 8 s.meter.lastDelivered

/-- The whole-journal sequence after an AON trip ends: the TAL8 turns off but for the AON island (R21, R310). Batches and
tickets are lost and recorded; the capsule table is empty. -/
def fxAonEnd (s : State) : State :=
  let s1 := twPowerDown (suPowerDown (coreIslandsOff s))
  let s2 := raise 3 5 noInst (ticketsLost s1) s1
  let s3 := setTray .off
    { s2 with st.phase := 0, st.downs := [], st.seqFailed := false, st.stbyMark := 0, st.hswEn := false,
              chip.islands := 0, chip.draining := 0, chip.offEnd := none, chip.boot := .held,
              aon.coreDown := 0x7FF, assure := s2.assure.emptied, meter.opens := [], meter.batches := [],
              meter.delivered := [], meter.closeWait := [], ports := [], longs := [], mbx := [] }
  s3

/-- Nothing of the whole journal is left to disable, and in PFAIL mode the falls have been checked (R308, R310). -/
def aonMayEnd (s : State) : Bool :=
  s.st.phase == 4 && s.st.journal.isEmpty && s.st.downs.all (fun d => d.cur.isNone) && (!s.st.pfailMode || s.st.fallsChecked)

def execAonTripSequenceEnd (s : State) : Host.Outcome State Fault Refusal :=
  done (if aonMayEnd s then fxAonEnd s else s)

/-- Every zone has been below 90 °C for 10 s (R385). -/
def coolEnough (s : State) : Bool :=
  s.chip.tripForce && (match s.heat.coolSince with
    | some t => t + 10000 ≤ now s
    | none => false)

/-- After a hardware trip the tray goes up again where the trip interrupted it and nothing forbids it (R21). -/
def restartsUp (s : State) : Bool :=
  (s.chip.tripFrom == .sequencingUp || s.chip.tripFrom == .ready || s.chip.tripFrom == .degraded)
    && !s.chip.offWhileTripped && permitted s

/-- The restart transition of R21, with its event (R385): a trip in force ends, the cooling outputs follow their curves
again. After an AON trip the boot path runs again. -/
def fxTripRestart (s : State) : State :=
  let s1 := raise 1 3 noInst [] { s with chip.tripForce := false, heat.coolSince := none }
  let s2 := setOutputs s1
  if s2.chip.tray = .tripped then
    if restartsUp s2 then beginUp s2
    else if reverseRuns s2 then onOrderEnds (setTray .sequencingDown s2) else beginDown s2
  else bootRom s2

def execTripRestart (s : State) : Host.Outcome State Fault Refusal :=
  done (if coolEnough s && (s.chip.tray = .off || (s.chip.tray = .tripped && s.st.phase ≠ 4)) then fxTripRestart s else s)

/-! Islands (R16 to R18) -/

/-- An island that has drained loses its supply (R18). -/
def fxDrained (i : Nat) (s : State) : State :=
  let bit := 1#26 <<< i
  let s1 := { s with chip.draining := s.chip.draining &&& ~~~bit, chip.reenable := s.chip.reenable &&& ~~~bit }
  if i = 11 then memPowerDown s1
  else if 3 ≤ i && i < 11 then (if (cluster s1 (i - 3)).st = .off then s1 else fxClusterPowerDown (i - 3) s1)
  else { s1 with chip.islands := s1.chip.islands &&& ~~~bit }

def execIslandDrained (i : Fin 26) (s : State) : Host.Outcome State Fault Refusal :=
  done (if s.chip.draining.getLsbD i then fxDrained i s else s)

/-- The temperature of an island, as its local sensors read (R374): the hottest of them for MEM. -/
def islandTemp (s : State) (i : Nat) : Int :=
  if 3 ≤ i && i < 11 then roRead s (5 * (i - 3))
  else if i = 11 then maxInt 0 ([40, 48, 56, 64].map (roRead s))
  else if 12 ≤ i && i < 20 then roRead s (76 + (i - 12))
  else if 20 ≤ i && i < 24 then roRead s (84 + (i - 20))
  else if i = 24 then roRead s 88
  else if i = 25 then roRead s 89
  else roRead s (73 + i)

/-- Adjacent islands with sensors of their own (01): the data plane and each cluster, MEM and LNK island, and SEC with the SHA-512
engines; An and PCn; Suorta and MEM. -/
def adjacent : List (Nat × Nat) :=
  (List.range 22).map (fun j => (25, 3 + j)) ++ (List.range 8).map (fun a => (12 + a, 3 + a)) ++ [(24, 11), (25, 0)]

/-- One pair at a 1 ms comparison (R16). ERR_STATUS.GRADIENT, whose field speaks of a difference above 30 K, is set with the episode,
after 10 ms in succession, and not at the first comparison above 30 K. DESIGN CHOICE. -/
def gradPair (s : State) (p : Nat) : State :=
  let e := adjacent.getD p (25, 25)
  let d := islandTemp s e.1 - islandTemp s e.2
  let hot := if 0 < d then e.1 else e.2
  let on := islandOn e.1 s && islandOn e.2 s
  let low := s.chip.gradLow.get 99 p
  if low ≠ 99 then
    (if !on || d.natAbs ≤ 250 then { s with chip.gradLow := SMap.set 99 s.chip.gradLow p 99,
                                            chip.gradMs := SMap.set 0 s.chip.gradMs p 0 } else s)
  else if on && 300 < d.natAbs then
    let n := s.chip.gradMs.get 0 p + 1
    if n < 10 then { s with chip.gradMs := SMap.set 0 s.chip.gradMs p n }
    else
      let s1 := setBits R.ERR_STATUS 4
        { s with chip.gradMs := SMap.set 0 s.chip.gradMs p 0, chip.gradLow := SMap.set 99 s.chip.gradLow p hot }
      raise 0 3 noInst (regData (rd s1 R.ERR_STATUS) ++ leBytes 2 (field16 (islandTemp s e.1))
        ++ leBytes 2 (field16 (islandTemp s e.2))) s1
  else { s with chip.gradMs := SMap.set 0 s.chip.gradMs p 0 }

def execGradientCheck (s : State) : Host.Outcome State Fault Refusal :=
  done (if coreUp 1 s then (List.range adjacent.length).foldl gradPair s else s)

end Sys2Proof.Machine
end

