-- ==== Sys2Proof/Machine/Firmware.lean ====
section
/-! DEFINITION. The commands of cores, firmware, configuration activations, the firewall and the event recorder
(14, 15), the end of a self-test (03), and the exchange of keys in IDENT (07, 14).
Log entries coded here: 111 (DEDUCED), 197 (DEDUCED), 207 (DEDUCED), 214 (DEDUCED), 242 (DESIGN CHOICE), 243
(DEDUCED), 277 (DEDUCED). -/

namespace Sys2Proof.Machine

/-! Cores (R425 to R431, R441) -/

/-- A core runs in an AON island out of reset. -/
def coreAlive (k : Nat) (s : State) : Bool := aonRuns s && coreUp k s

/-- The watchdog of a running core has not been kicked for WDG_MS (R425). -/
def watchdogDue (k : Nat) (s : State) : Bool := coreAlive k s && (coreSt s k).kick + coreWdgMs s ≤ now s

def execCoreWatchdogExpiry (core : Fin 11) (s : State) : Host.Outcome State Fault Refusal :=
  done (if watchdogDue core s then stopCore core Stop.WATCHDOG true s else s)

def execCoreKick (core : Fin 11) (s : State) : Host.Outcome State Fault Refusal :=
  done (if coreAlive core s then setCore core (fun c => { c with kick := now s }) s else s)

def execCoreFatalException (core : Fin 11) (memory : Bool) (s : State) : Host.Outcome State Fault Refusal :=
  done (if coreAlive core s then stopCore core (if memory then Stop.MEMORY else Stop.EXCEPTION) true s else s)

/-- A restart loads the image again where the slot has changed, or where the boot ROM runs for the security core (R429). -/
def reloadCore (k : Nat) (s : State) : State :=
  if k = 0 || (coreSt s k).image.isEmpty then loadCore k s else s

/-- The core restarts from its image and runs; without one it is held, and an activation goes on without it (R429, R437). -/
def fxRestart (k : Nat) (s : State) : State :=
  let s1 := reloadCore k s
  if (coreSt s1 k).image.isEmpty then
    (match s1.aon.acting with
     | some a => if a.mask.testBit k then activationGoes { a with mask := a.mask - 2 ^ k } s1 else s1
     | none => s1)
  else activationStep k (coreRuns k s1)

def execCoreRestartComplete (core : Fin 11) (s : State) : Host.Outcome State Fault Refusal :=
  done (if aonRuns s && mayRestart s core then fxRestart core s else s)

/-- Ten minutes without a stop since the activation (R441). -/
def probationOver (k : Nat) (s : State) : Bool :=
  match (coreSt s k).activatedAt with
  | some t => t + 600000 ≤ now s && (coreSt s k).probStops == 0
  | none => false

/-- The SVN floor of the core's class rises to its image's SVN and never falls (R441). -/
def fxProbationPass (k : Nat) (s : State) : State :=
  let cls := coreClass k
  let n := max (s.aon.svnFloor.get 0 cls) (fwSvn (coreSt s k).image)
  setCore k (fun c => { c with activatedAt := none }) { s with aon.svnFloor := SMap.set 0 s.aon.svnFloor cls n }

def execProbationPass (core : Fin 11) (s : State) : Host.Outcome State Fault Refusal :=
  done (if probationOver core s then fxProbationPass core s else s)

/-- A pending activation starts when every emergency latch is clear (R440). -/
def execDeferredActivationStart (s : State) : Host.Outcome State Fault Refusal :=
  done (match s.aon.pendAct with
    | some a => if emergLatches s = 0 && coreAlive 0 s then startActivation a s else s
    | none => s)

/-! Configuration activations (R484 to R490) -/

/-- The tray stands in STANDBY with every latch clear, and the security core runs. -/
def activationMayApply (s : State) : Bool := coreAlive 0 s && s.chip.tray == .standby && emergLatches s == 0

/-- Step 2 of R485: the slot left becomes PREVIOUS, or STAGED for ROLLBACK; the new one ACTIVE, on probation unless PASSED;
FAILS and ROLLBACK_DUE clear (R489, R490). -/
def movePointer (slot : Nat) (rollback : Bool) (s : State) : State :=
  let s1 := if s.cfg.active < 2 then setSlotState s.cfg.active (if rollback then 1 else 3) s else s
  let s2 := setSlotState slot 2 { s1 with cfg.active := slot, cfg.fallback := false }
  { s2 with cfg.probation := !slotPassed s2 slot, cfg.fails := 0, cfg.rollbackDue := false, cfg.attempt := false }

/-- Apply an activation of a slot (R485). -/
def fxActivate (slot : Nat) (rollback : Bool) (s : State) : State :=
  let img := cfgImage s slot
  let s0 := { s with cfg.job := .none }
  if !ownerImageOk s img then
    finishLong .configActivate St.FAULT (detail noDetail 1) (setSlotState slot 4 s0)
  else
    let old := activeGen s
    let s1 := applyOwner img (applySections img (movePointer slot rollback s0))
    let s2 := if rollback then raise 12 4 noInst (leBytes 4 old ++ leBytes 4 (imageGen img)) s1
      else raise 12 2 noInst (leBytes 4 (imageGen img) ++ leBytes 1 0) s1
    finishLong .configActivate St.DONE (leBytes 4 (imageGen img)) s2

def execConfigActivationApply (s : State) : Host.Outcome State Fault Refusal :=
  done (match s.cfg.job with
    | .pending slot rb _ _ => if activationMayApply s then fxActivate slot rb s else s
    | _ => s)

/-- The slot that is PREVIOUS. -/
def previousSlot (s : State) : Option Nat := [0, 1].find? (fun i => slotState s i == 3)

/-- The automatic rollback: PREVIOUS, or the factory image, without probation; the slot that failed is FAILED (R488). -/
def fxRollback (s : State) : State :=
  let old := activeGen s
  let failed := s.cfg.active
  let s1 := if failed < 2 then setSlotState failed 4 s else s
  let s2 := { s1 with
    cfg.fails := 0, cfg.rollbackDue := false, cfg.probation := false, cfg.attempt := false, cfg.fallback := false }
  let pick := match previousSlot s2 with
    | some i => if ownerImageOk s2 (cfgImage s2 i) then some i else none
    | none => none
  match pick with
  | some i =>
    let img := cfgImage s2 i
    let s3 := applyOwner img (applySections img (setSlotState i 2 { s2 with cfg.active := i }))
    raise 12 5 noInst (leBytes 4 old ++ leBytes 4 (imageGen img)) s3
  | none =>
    let img := if factoryImageOk s2.cfg.factory0 then s2.cfg.factory0 else s2.cfg.factory1
    let s3 := applySections img { s2 with cfg.active := 2 }
    raise 12 5 noInst (leBytes 4 old ++ leBytes 4 (imageGen img)) s3

def execRollbackApply (s : State) : Host.Outcome State Fault Refusal :=
  done (if s.cfg.rollbackDue && activationMayApply s && s.cfg.job = .none then fxRollback s else s)

/-- A staged image has been written and read back: EMPTY becomes STAGED, with its event and its end (R482). -/
def fxStaged (slot : Nat) (img : Bytes) (s : State) : State :=
  let s1 := if slot = 0 then { s with cfg.image0 := img } else { s with cfg.image1 := img }
  let s2 := setSlotPassed slot false (setSlotState slot 1 { s1 with cfg.job := .none })
  finishLong .configStage St.DONE (leBytes 4 (imageGen img)) (raise 12 1 noInst (leBytes 4 (imageGen img) ++ leBytes 1 0) s2)

def execConfigStageComplete (s : State) : Host.Outcome State Fault Refusal :=
  done (match s.cfg.job with
    | .staging slot img _ _ => if coreAlive 0 s then fxStaged slot img s else s
    | _ => s)

/-- The firmware copy that is under way. -/
def stagingFw (ls : List Long) : Option (Nat × Nat × Bytes) :=
  match ls with
  | [] => none
  | l :: t =>
    match l.kind with
    | .fwStage c k img => some (c, k, img)
    | _ => stagingFw t

/-- A firmware image has been written and read back; its header is written last and the order completes (R438). -/
def fxFwStaged (cls slot : Nat) (img : Bytes) (s : State) : State :=
  finishLong (.fwStage cls slot img) St.DONE [] { s with flash := SMap.set [] s.flash (2 * cls + slot) img }

def execFwStageComplete (s : State) : Host.Outcome State Fault Refusal :=
  done (match stagingFw s.longs with
    | some (c, k, img) => if coreAlive 0 s then fxFwStaged c k img s else s
    | none => s)

/-! Firewall and starch limits (R443, R444, R453) -/

def execFirewallViolation (master : Fin 37) (addr length : Nat) (write : Bool) (s : State) :
    Host.Outcome State Fault Refusal :=
  done (if fwAdmits s master addr length write then s else refuseAccess master addr length write s)

/-- VCORE_SET as it reads (R460). -/
def vcoreSetData (s : State) : Bytes := leBytes 2 s.aon.setMv ++ leBytes 2 (min 65535 s.aon.clamps)

/-- The backstop acts: 400 MHz, the limit written again, a Keep event (R443). -/
def fxBackstop (s : State) : State :=
  let s1 := writeVcoreLimit { s with aon.vcoreCap := true }
  raise 11 7 noInst (vcoreSetData s1) s1

def execVcoreBackstop (mv : Nat) (s : State) : Host.Outcome State Fault Refusal :=
  done (if aonRuns s && s.aon.vcoreEff + 25 < mv then fxBackstop s else s)

def execVcoreCapRelease (s : State) : Host.Outcome State Fault Refusal := done { s with aon.vcoreCap := false }

/-! The event recorder (R463 to R474) -/

def execEventRaised (cls code inst : Nat) (data : Bytes) (s : State) : Host.Outcome State Fault Refusal :=
  done (if aonRuns s then raise (cls % 256) (code % 65536) (inst % 65536) data s else s)

def execRecordCommit (s : State) : Host.Outcome State Fault Refusal :=
  done (match s.rcd.queue with
    | e :: rest => if aonRuns s then fxCommit e rest s else s
    | [] => s)

def execCoalescerFlush (index : Fin 8) (s : State) : Host.Outcome State Fault Refusal :=
  done (match s.rcd.coal[index.val]? with
    | some c => if aonRuns s then fxFlush c s else s
    | none => s)

/-! The end of a self-test (R104, R105) -/

/-- SELFTEST_RESULT: DONE, PASS, the bridges and the irons that failed. -/
def selftestWord (bad : Nat) (up down : Bool) : W32 :=
  BitVec.ofNat 32 (2 ^ 31 + 2 ^ 30 * b2n (bad % 2 ^ 24 == 0 && !up && !down) + 2 ^ 25 * b2n down + 2 ^ 24 * b2n up + bad % 2 ^ 24)

/-- An order that waits for a cluster's self-test to resume it ends with it; one that asked for a suspension or for the
test itself is DONE when the test has run, whose outcome stands in SELFTEST_RESULT (R104, R273). -/
def endCtl (c st : Nat) (s : State) : State :=
  finishLong (.clusterCtrl (8 + c)) st (if st = St.DONE then [] else detail noDetail 0) s

/-- The first iron that failed a self-test; a bridge, where only bridges failed. -/
def failedUnit (bad : Nat) : Nat := ((List.range 24).find? bad.testBit).getD 0xFE

/-- The cluster returns to IDLE on a pass; on a failure it stays SUSPENDED (R104), and on a pass too while the memory has FAILED
(R210). -/
def fxSelftestEnd (c bad : Nat) (up down : Bool) (s : State) : State :=
  let w := selftestWord bad up down
  let pass := bitAt w 30
  let s1 := setIrons c (fun _ => {}) (wr (R.SELFTEST_RESULT c) w s)
  let s2 := if pass then setCl c (fun k => { k with st := if memFailed s then .suspended else if coreUp (3 + c) s then .idle else .frozen, susp := false, resumeWaits := false, passed := true, plan := none }) s1
    else raise 10 3 c (regData w) (latchFault c 6 (if bad % 2 ^ 24 = 0 then 7 else 0) (failedUnit bad)
      (setCl c (fun k => { k with st := .suspended, resumeWaits := false, passed := false, plan := none }) s1))
  endCtl c (if pass then St.DONE else St.FAULT) (finishLong (.clusterCtrl c) St.DONE [] s2)

def execSelftestComplete (c : Fin 8) (bad : Nat) (up down : Bool) (s : State) : Host.Outcome State Fault Refusal :=
  done (if (cluster s c).st = .selftest then fxSelftestEnd c bad up down s else s)

/-! Keys of the nodes (R449) -/

/-- FEC and flit alignment complete on a port that is LOCKED (R218, R219, R449). -/
def execFlitAligned (k : Fin 13) (s : State) : Host.Outcome State Fault Refusal :=
  done (if linkSt k s = .locked then fxFlitAligned (keyCert s 0, keyCert s 1) k s else s)

/-- A pair of certificates held already: the serial number in them is known. -/
def keyHeld (s : State) (att : Bytes) : Bool := s.sec.keyCache.any (fun e => slice e.2 16 16 == slice att 16 16)

/-- Enter a verified attestation certificate under a node, 0xFFFF where the pair came from further away. -/
def enterKey (node : Nat) (att : Bytes) (s : State) : State :=
  let rest := s.sec.keyCache.filter (fun e => slice e.2 16 16 != slice att 16 16)
  { s with sec.keyCache := (rest ++ [(node, att)]).drop (rest.length + 1 - 2048) }

/-- Pass a pair on over the other seams that are UP (R449). -/
def passKeys (j : Nat) (id att : Bytes) (s : State) : State :=
  [0, 1, 2, 3].foldl (fun a k =>
    if k ≠ j && (port a (8 + k)).st == .up then
      sendCtrl (8 + k) 0x08 (leBytes 1 1 ++ zeros 7 ++ att) (sendCtrl (8 + k) 0x08 (leBytes 1 0 ++ zeros 7 ++ id) a)
    else a) s

/-- A certificate arrives: PART 0 waits for PART 1; a pair that verifies is entered, lets its port pass IDENT, and is passed
on where it is new; a partner's pair that fails is a MISMATCH (R219, R449). -/
def fxKeyCert (j : Nat) (p : Bytes) (s : State) : State :=
  let s1 := takeCtrl (8 + j) 0x08 p s
  let cert := slice p 8 136
  if leAt p 0 1 = 0 then { s1 with sec.certPart := SMap.set [] s1.sec.certPart j cert }
  else
    let id := s1.sec.certPart.get [] j
    let s2 := { s1 with sec.certPart := SMap.set [] s1.sec.certPart j [] }
    let direct := (port s2 (8 + j)).st == .ident
    if certPairOk id cert then
      let s3 := enterKey (if direct then seamNeighbour s2 j else
        ((s2.sec.keyCache.find? (fun e => slice e.2 16 16 == slice cert 16 16)).map (fun e => e.1)).getD 0xFFFF) cert s2
      let s4 := if keyHeld s2 cert then s3 else passKeys j id cert s3
      let s5 := if direct then setPort (8 + j) (fun q => { q with certOk := true }) s4 else s4
      if direct && (port s5 (8 + j)).identOk then identGo (8 + j) s5 else s5
    else if direct then identMismatch (8 + j) s2 else s2

def execKeyCert (seam : Fin 4) (payload : Bytes) (s : State) : Host.Outcome State Fault Refusal :=
  done (if (port s (8 + seam)).st = .ident || (port s (8 + seam)).st = .up then fxKeyCert seam payload s else s)

end Sys2Proof.Machine
end

