-- ==== Sys2Proof/Machine/Assure.lean ====
section
/-! DEFINITION. The commands of assurance (05): steps and capsules, replays, peers, delegation, darns and screening. The
scheduler core takes them; while it is down they wait.
Log entries coded here: 81 (DEDUCED), 82 (DEDUCED), 83 (DEDUCED), 87 (DEDUCED), 96 (DEDUCED), 105 (DEDUCED), 108
(DEDUCED), 202 (DEDUCED). -/

namespace Sys2Proof.Machine

/-! Sampling (R150, R155 to R157) -/

/-- RATE[a] and SAMPLE_BIAS as they act. -/
def sampleRate (s : State) (a : Nat) : Nat := min 1000000 (rdFld s (R.RATE a) 19 0)
def sampleBias (s : State) : Nat := max 1 (min 64 (rdFld s R.SAMPLE_BIAS 6 0))

/-- The bias rule applies to a graph (R156). -/
def biasApplies (s : State) (g : Nat) : Bool :=
  match s.assure.recency.find? (fun e => e.1 == g) with
  | some e => rdN s R.RECENCY_MS < now s - e.2
  | none => true

/-- The draw (R155): o0 of the counter generator. -/
def drawStep (seed job step a : Nat) : Nat :=
  let w (n : Nat) : W32 := BitVec.ofNat 32 n
  ((counterGen (w step) (w (step / 2 ^ 32)) (w job ^^^ w (job / 2 ^ 32)) (w a) (w seed) (w (seed / 2 ^ 32))).head?.getD 0).toNat

/-- Why a step is skipped before the draw, none where it is not (R150, R155). -/
def skipReason (s : State) (a : Nat) (g : Bytes) : Option Nat :=
  if (accB s a).drained || s.assure.accTag.getLsbD a then some 4
  else if (entryOf s g).isNone then some 1
  else if 64 ≤ modeCount s a 1 then some 2
  else if !rdBit s R.AS_CTRL 1 || sampleRate s a = 0 || s.assure.seed.isNone then some 3
  else none

/-- The decision for a step: select or not, and its reason. -/
def stepDecision (s : State) (a job step : Nat) (g : Bytes) : Bool × Nat :=
  match skipReason s a g with
  | some r => (false, r)
  | none =>
    let t0 := sampleRate s a * 2 ^ 32 / 1000000
    let t := if biasApplies s (leAt g 0 8) then min (t0 * sampleBias s) (2 ^ 32 - 1) else t0
    (sampleRate s a == 1000000 || decide (drawStep (s.assure.seed.getD 0) job step a < t), 0)

/-- A select is remembered, and its graph is the one selected last (R151, R156). -/
def noteSelect (a job step g : Nat) (s : State) : State :=
  let others := s.assure.recency.filter (fun e => e.1 != g)
  let kept := if 4096 ≤ others.length then others.drop 1 else others
  { s with assure.selects := s.assure.selects.concat (a, job, step), assure.recency := kept.concat (g, now s) }

/-- A step is announced: it is selected or skipped, and the accelerator is told (R150, R155). -/
def fxStepOpen (a : Nat) (p : Bytes) (s : State) : State :=
  let job := leAt p 0 8
  let step := leAt p 8 8
  let g := slice p 16 64
  let s1 := touchJob job (takeInbox a 1 1 p s)
  let d := stepDecision s1 a job step g
  let s2 := if d.1 then bump R.AS_CNT_SELECTED (noteSelect a job step (leAt g 0 8) s1) else bump R.AS_CNT_SKIPPED s1
  sendAcc a true { cls := 1, typ := 2, len := 18,
                   payload := leBytes 8 job ++ leBytes 8 step ++ leBytes 1 (b2n d.1) ++ leBytes 1 d.2 } s2

def execStepOpen (a : Fin 8) (p : Bytes) (s : State) : Host.Outcome State Fault Refusal :=
  done (if (port s a).st = .up && coreUp 2 s then fxStepOpen a p s else s)

/-! Capsules (R152, R153) -/

/-- The parameters of a capsule are invalid (R153). -/
def capsuleBad (c : Capsule) : Bool :=
  leAt c.body 0 1 != 1 || 1 < c.mode || 2 < c.cmp || c.nin == 0 || 16 < c.nin || c.body.length != 272 + 112 * c.nin
    || (c.cmp != 2 && !c.outValid)

/-- A capsule does not fit the registry entry that is present (R69, R153, R160): its mode, its NIN, and its descriptors, which the
plan image gives while it can be read. -/
def capsuleDisagrees (s : State) (c : Capsule) : Bool :=
  match entryOf s c.graph with
  | some e => outsideTra c e || c.nin != entNin e
      || (!entStale e && rangeReady s (entAddr e) (entLen e) && !agreesWith c e (entImage s e))
  | none => false

/-- STATUS of a capsule: the first condition that holds (R153). -/
def capsuleStatus (s : State) (a : Nat) (c : Capsule) : Nat :=
  if !rdBit s R.AS_CTRL 0 then 1
  else if (accB s a).drained || s.assure.accTag.getLsbD a then 6
  else if (capOf s c.src c.id).isSome then 3
  else if 64 ≤ modeCount s a c.mode then 2
  else if c.mode = 1 && !s.assure.selects.contains (a, c.job, c.step) then 4
  else if capsuleBad c || capsuleDisagrees s c || (port s a).windows.isNone then 5
  else 0

/-- A capsule takes its entry of the table; an AUDIT capsule takes its select (R151, R163). -/
def acceptCapsule (c : Capsule) (s : State) : State :=
  let sel := match c.src with
    | .acc a => if c.mode = 1 then s.assure.selects.erase (a, c.job, c.step) else s.assure.selects
    | .node _ => s.assure.selects
  let n := s.assure.arrivals + 1
  let d := { c with order := n }
  { s with assure.caps := s.assure.caps.concat d, assure.arrivals := n, assure.selects := sel }

/-- A capsule arrives: it is accepted, or rejected with an event for HOLD, and acknowledged (R153, R220). -/
def fxCapsule (a : Nat) (p : Bytes) (s : State) : State :=
  let c : Capsule := { src := .acc a, id := leAt p 8 8, body := p }
  let s0 := takeInbox a 1 3 p s
  let s1 := if (port s0 a).windows.isNone then setBits (R.PORT_ERR a) 16 s0 else s0
  let s2 := touchJob c.job s1
  let st := capsuleStatus s2 a c
  let s3 := if st = 0 then acceptCapsule c s2 else if c.mode = 0 then raise 9 2 a [] s2 else s2
  sendAcc a true { cls := 1, typ := 4, len := 9, payload := leBytes 8 c.id ++ leBytes 1 st } s3

def execCapsule (a : Fin 8) (p : Bytes) (s : State) : Host.Outcome State Fault Refusal :=
  done (if (port s a).st = .up && coreUp 2 s then fxCapsule a p s else s)

/-! Fetch and replay -/

/-- An open capsule in a state, taken while the scheduler core runs. -/
def capIn (s : State) (src id : Nat) (st : CapSt) : Option Capsule :=
  if coreUp 2 s then (capOf s (srcOf src) id).filter (fun c => c.st == st) else none

def execCapsuleFetchComplete (src capsule : Nat) (s : State) : Host.Outcome State Fault Refusal :=
  done (match capIn s src capsule .fetching with
    | some c => if fetchOver s c then fxFetched c s else s
    | none => s)

/-- A plan of the TAL8 itself that has ended. -/
def endedPlan (s : State) (id : Option Nat) : Option Plan :=
  (id.bind (planOf s)).filter (fun p => p.st == .done || p.st == .fault || p.st == .aborted)

def execReplayComplete (src capsule : Nat) (s : State) : Host.Outcome State Fault Refusal :=
  done (match capIn s src capsule .replaying with
    | some c => (match endedPlan s c.planId with
      | some p => fxReplayEnd c p s
      | none => s)
    | none => s)

/-! Peers -/

def execPeerPlanCopyComplete (src capsule : Nat) (s : State) : Host.Outcome State Fault Refusal :=
  done (match capIn s src capsule .peerWait with
    | some c => if c.req.isNone && c.tried.isEmpty && c.peers.isEmpty then fxPeerCopy c s else s
    | none => s)

/-- Take a message of a node from the seam port on which it arrived. -/
def takeSeams (cls typ node : Nat) (p : Bytes) (s : State) : State :=
  match [8, 9, 10, 11].find? (fun k => (port s k).inbox.any (fun m => m.cls == cls && m.typ == typ && m.src == node && m.payload == p)) with
  | some k => takeInbox k cls typ p s
  | none => s

def execThirdReq (node : Nat) (p : Bytes) (s : State) : Host.Outcome State Fault Refusal :=
  done (if coreUp 2 s && decide (peerWork s < 256) then fxThirdReq node p (takeSeams 1 0x10 node p s) else s)

def execThirdExecutionComplete (node req : Nat) (s : State) : Host.Outcome State Fault Refusal :=
  done (match s.assure.thirds.find? (fun t => t.node == node && leAt t.body 0 8 == req) with
    | some t => (match endedPlan s t.planId with
      | some p => if coreUp 2 s then fxThirdEnd t p s else s
      | none => s)
    | none => s)

def execThirdResult (node : Nat) (p : Bytes) (s : State) : Host.Outcome State Fault Refusal :=
  done (if coreUp 2 s then fxThirdResult node p (takeSeams 1 0x11 node p s) else s)

def execPeerRetry (src capsule : Nat) (s : State) : Host.Outcome State Fault Refusal :=
  done (match (capIn s src capsule .peerWait).orElse (fun _ => capIn s src capsule .replaying) with
    | some c => if c.st = .peerWait || c.delegated then fxPeerRetry c s else s
    | none => s)

/-- The entry of a delivered verdict is freed: the one that has stood in DONE longest. -/
def fxDelivered (c : Capsule) (s : State) : State :=
  { s with assure.caps := s.assure.caps.filter (fun x => x.order != c.order) }

def execVerdictDelivered (src capsule : Nat) (s : State) : Host.Outcome State Fault Refusal :=
  done (match s.assure.caps.find? (fun c => c.src == srcOf src && c.id == capsule && c.st == .done) with
    | some c => fxDelivered c s
    | none => s)

/-! Delegation (R177) -/

/-- A capsule of a self-tagged node: declined by THIRD_RESULT STATUS 1, or taken into the table. -/
def fxDelegateCapsule (node : Nat) (p : Bytes) (s : State) : State :=
  let s1 := takeSeams 1 0x14 node p s
  if !rdBit s1 R.AS_CTRL 4 || s1.assure.selfTag then sendThird node (leAt p 8 8) 1 [] s1
  else acceptCapsule { src := .node node, id := leAt p 8 8, body := p } s1

def execDelegateCapsule (node : Nat) (p : Bytes) (s : State) : Host.Outcome State Fault Refusal :=
  done (if coreUp 2 s && decide (peerWork s < 256) then fxDelegateCapsule node p s else s)

/-- What the delegate's record says of a capsule. -/
def fromRecord (c : Capsule) (r : Bytes) : Capsule :=
  let n := leAt r 53 1
  { c with
    hostDecision := leAt r 51 1
    peers := (List.range (min 3 n)).map (fun i => leAt r (58 + 2 * i) 2)
    pressDigest := slice r 64 64
    accDigest := slice r 128 64
    peerDigests := (List.range (min 3 n)).map (fun i => slice r (192 + 64 * i) 64)
    firstElem := leAt r 400 8
    failCount := leAt r 408 8
    inconsistent := (leAt r 54 1).testBit 0
    sourcePoison := (leAt r 54 1).testBit 4 }

def execDelegateVerdict (node : Nat) (p : Bytes) (s : State) : Host.Outcome State Fault Refusal :=
  done (if coreUp 2 s then
    (match s.assure.caps.find? (fun c => c.st == .replaying && c.sentTo == some node && c.id == leAt p 0 8
        && c.job == leAt p 16 8 && c.step == leAt p 24 8) with
     | some c => decideCap (fromRecord c (slice p 40 512)) (leAt p 8 1) (takeSeams 1 0x15 node p s)
     | none => takeSeams 1 0x15 node p s)
    else s)

/-! Darns (R178 to R184) -/

def execDarnCaptureComplete (src capsule : Nat) (s : State) : Host.Outcome State Fault Refusal :=
  done (match s.assure.captures.find? (fun k => k.src == srcOf src && k.id == capsule) with
    | some k => (match endedPlan s (some k.planId) with
      | some p => if coreUp 2 s && secOperational s then fxCaptured k p s else s
      | none => s)
    | none => s)

/-- An offer is ignored (R181): offers are not taken, the darn is held or quarantined, or is being fetched. -/
def offerIgnored (s : State) (id len : Nat) : Bool :=
  !rdBit s R.AS_CTRL 3 || s.assure.fetches.any (fun w => w.id == id) || len < 320 || 1048576 < len
    || (match darnOf s id with
        | some d => d.quarantined || darnHeld s d
        | none => false)

/-- A darn is offered: it is fetched from the neighbour. -/
def fxDarnOffer (j : Nat) (p : Bytes) (s : State) : State :=
  let node := seamNeighbour s j
  let s1 := takeInbox (8 + j) 1 0x12 p s
  let w : DarnWork := { id := leAt p 0 16, node := node, origin := leAt p 16 2, len := leAt p 18 4, addr := leAt p 22 8
                        slot := freeWork s }
  if offerIgnored s w.id w.len then s1
  else pressRead 8 (nodeAddr node w.addr) w.len { s1 with assure.fetches := s1.assure.fetches.concat w }

/-- An offer waits until its origin's key is cached (R449). -/
def execDarnOffer (j : Fin 4) (p : Bytes) (s : State) : Host.Outcome State Fault Refusal :=
  done (if (port s (8 + j)).st = .up && coreUp 2 s
      && (offerIgnored s (leAt p 0 16) (leAt p 18 4) || (memReady s && !(originKeys s (leAt p 16 2)).isEmpty))
    then fxDarnOffer j p s else s)

/-- A fetched darn is checked: discarded, put back into its slot, or prepared. -/
def fxDarnFetched (w : DarnWork) (s : State) : State :=
  let d := fetchedDarn s w
  if !darnOk s w d then dropFetch w s
  else match darnOf s w.id with
    | some x => fillSlot x d (dropFetch w s)
    | none => submitPrep w d none s

def execDarnFetchComplete (darn : Nat) (s : State) : Host.Outcome State Fault Refusal :=
  done (match s.assure.fetches.find? (fun w => w.id == darn) with
    | some w => if coreUp 2 s && w.planId.isNone && rangeReady s (nodeAddr w.node w.addr) w.len then fxDarnFetched w s else s
    | none => s)

def execDarnPreparationComplete (darn : Nat) (s : State) : Host.Outcome State Fault Refusal :=
  done (match s.assure.fetches.find? (fun w => w.id == darn) with
    | some w => (match endedPlan s w.planId with
      | some p => if coreUp 2 s then fxPrepEnd w p s else s
      | none => s)
    | none => s)

/-- A neighbour asks for a darn (R184). -/
def fxDarnWant (j : Nat) (p : Bytes) (s : State) : State :=
  let s1 := takeInbox (8 + j) 1 0x13 p s
  if rdBit s1 R.AS_CTRL 3 then offerOn (leAt p 0 16) [j] s1 else s1

def execDarnWant (j : Fin 4) (p : Bytes) (s : State) : Host.Outcome State Fault Refusal :=
  done (if (port s (8 + j)).st = .up && coreUp 2 s then fxDarnWant j p s else s)

/-- A screening result of accelerator a. -/
def fxScreenResult (a : Nat) (p : Bytes) (s : State) : State :=
  let s1 := takeInbox a 1 7 p s
  match s1.assure.screening.get none a with
  | some id => if id = leAt p 0 16 then (match darnOf s1 id with
      | some d => fxScreened a d (slice p 16 64) s1
      | none => s1) else s1
  | none => s1

def execScreenResult (a : Fin 8) (p : Bytes) (s : State) : Host.Outcome State Fault Refusal :=
  done (if (port s a).st = .up && coreUp 2 s then fxScreenResult a p s else s)

end Sys2Proof.Machine
end

