-- ==== Sys2Proof/Machine/Budget.lean ====
section
/-! DEFINITION. Meanings of power budget and dispatch (11): caps, the split, grants, guards, the ledger.
Log entries coded here: 72 (DEDUCED), 80 (DEDUCED), 85 (DEDUCED), 86 (DEDUCED), 106 (DEDUCED), 175 (DEDUCED), 176
(DEDUCED), 177 (DEDUCED), 179 (DEDUCED), 180 (DEDUCED), 218 (DEDUCED), 269 (DEDUCED), 270 (DEDUCED). -/

namespace Sys2Proof.Machine

/-! Exact watts -/

def Frac.ofNat (n : Nat) : Frac := ⟨n, 1⟩
def Frac.neg (a : Frac) : Frac := ⟨-a.n, a.d⟩
def Frac.sub (a b : Frac) : Frac := a.add b.neg
def Frac.scale (a : Frac) (n d : Nat) : Frac := mkFrac (a.n * n) (a.d * d)
def Frac.le (a b : Frac) : Bool := decide (a.n * b.d ≤ b.n * a.d)
def Frac.lt (a b : Frac) : Bool := decide (a.n * b.d < b.n * a.d)
def Frac.min (a b : Frac) : Frac := if a.le b then a else b
def Frac.max (a b : Frac) : Frac := if a.le b then b else a
def Frac.floor (a : Frac) : Int := a.n / a.d

/-! Participants (R351) -/

/-- MIN_W and MAX_W as they act. -/
def minW (s : State) (i : Nat) : Nat := rdFld s (R.PART_CFG i) 15 0
def maxW (s : State) (i : Nat) : Nat := max (minW s i) (rdFld s (R.PART_CFG i) 31 16)

/-- TH_W, in hundredths of a watt. -/
def thW (s : State) (i : Nat) : Nat := s.budget.thW.get 0 i

/-- An accelerator is active: its rails ON, neither drained nor tagged. -/
def accActive (s : State) (a : Nat) : Bool :=
  accPowered s a && !(accB s a).drained && !s.assure.accTag.getLsbD a

/-- A participant is active; the TAL8, 8, from SEQUENCING-UP to SEQUENCING-DOWN. -/
def active (s : State) (i : Nat) : Bool :=
  if i < 8 then accActive s i
  else s.chip.tray == .sequencingUp || s.chip.tray == .ready || s.chip.tray == .degraded || s.chip.tray == .sequencingDown

def actives (s : State) : List Nat := (List.range 9).filter (active s)

/-- A participant's demand. -/
def demandW (s : State) (i : Nat) : Nat :=
  if i < 8 then
    match (accB s i).demandAt with
    | some t => if now s ≤ t + 10 then (accB s i).demand else maxW s i
    | none => maxW s i
  else if (List.range 8).any (fun c => (cluster s c).st == .running) || s.press.plans.any (fun p => p.st == .waiting || p.spaceWaits || p.budgetWaits)
  then maxW s 8 else minW s 8

/-- One line of a split. -/
structure Part where
  i : Nat
  lo : Frac
  hi : Frac
  weight : Nat
  got : Frac
  isOpen : Bool
  deriving DecidableEq, Repr

/-- The rounds of `split` (R352). -/
def splitGo (fuel : Nat) (rest : Frac) (ps : List Part) : List Part :=
  match fuel with
  | 0 => ps
  | n + 1 =>
    let w := ps.foldl (fun a p => if p.isOpen then a + p.weight else a) 0
    if rest.n ≤ 0 || w = 0 then ps
    else
      let share (p : Part) : Frac := rest.scale p.weight w
      let full (p : Part) : Bool := p.isOpen && (p.hi.sub p.got).le (share p)
      if !ps.any full then ps.map (fun p => if p.isOpen then { p with got := p.got.add (share p) } else p)
      else
        let used := sumFrac ((ps.filter full).map (fun p => p.hi.sub p.got))
        splitGo n (rest.sub used) (ps.map (fun p => if full p then { p with got := p.hi, isOpen := false } else p))

/-- `split` over the active participants with given demands: whole watts by participant (R352). -/
def split (s : State) (c : Frac) (demand : Nat → Nat) : List (Nat × Nat) :=
  let c := c.max {}
  let ps : List Part := (actives s).map (fun i =>
    let lo := Frac.ofNat (minW s i)
    let hi := lo.max (((Frac.ofNat (maxW s i)).min ⟨thW s i, 100⟩).min (Frac.ofNat (demand i)))
    let w := rdFld s (R.PART_WT i) 7 0
    ⟨i, lo, hi, w, lo, lo.lt hi && w != 0⟩)
  let sum := sumFrac (ps.map (fun p => p.lo))
  if c.le sum then
    ps.map (fun p => (p.i, if sum.n ≤ 0 then 0 else (mkFrac (p.lo.n * c.n * sum.d) (p.lo.d * c.d * sum.n.toNat)).floor.toNat))
  else (splitGo 10 (c.sub sum) ps).map (fun p => (p.i, p.got.floor.toNat))

/-- A participant's share of a split; 0 where it is inactive. -/
def shareOf (xs : List (Nat × Nat)) (i : Nat) : Nat :=
  match xs.find? (fun x => x.1 == i) with
  | some x => x.2
  | none => 0

/-! Caps and floors (R349) -/

/-- The minimum of the values that are not zero. -/
def minNonZero (xs : List Nat) : Option Nat :=
  match xs.filter (fun x => x != 0) with
  | [] => none
  | x :: t => some (t.foldl min x)

def capEff (s : State) : Option Nat := minNonZero [rdN s R.BG_CAP_RACK, rdN s R.BG_CAP_HOST, rdN s R.BG_CAP_CFG]

/-- FLOOR_EFF. -/
def floorEff (s : State) : Frac :=
  let f := match minNonZero [rdN s R.BG_FLOOR_RACK, rdN s R.BG_FLOOR_HOST, rdN s R.BG_FLOOR_CFG] with
    | some x => Frac.ofNat x
    | none => s.budget.reserve.add (Frac.ofNat ((actives s).foldl (fun a i => a + minW s i) 0))
  match capEff s with
  | some c => f.min (Frac.ofNat c)
  | none => f

/-! Measurements of a period (R350, R362) -/

/-- Mean power of rails since the last period, W. -/
def meanW (s : State) (rs : List Nat) : Frac :=
  let n := s.meter.total - s.budget.snapN
  if n = 0 then {}
  else mkFrac (sumInt (rs.map (fun r => s.meter.acc.get 0 r - s.budget.snapE.get 0 r))) (n * 1000000000000)

/-- Present rails of a group. -/
def groupRails (s : State) (g : Nat) : List Nat :=
  (presentRails s.st.image).filter (fun r => railGroup s.st.image r == g)

/-- Overhead O of R333 over the period, less the group 9 rails. -/
def overheadW (s : State) : Frac :=
  let o := if (roleRails s 3).isEmpty then meanW s (roleRails s 2)
    else Frac.max {} ((meanW s (roleRails s 3)).sub (meanW s (roleRails s 1)))
  o.sub (meanW s (groupRails s 9))

/-- Rails whose mean is the tray input power. -/
def inputRails (s : State) : List Nat :=
  if (roleRails s 3).isEmpty then roleRails s 1 ++ roleRails s 2 else roleRails s 3

/-- Take the means of the period that ends, and RESERVE from the last hundred of them. -/
def measure (s : State) : State :=
  if s.meter.total = s.budget.snapN then s
  else
    let os := (overheadW s :: s.budget.overheads).take 100
    let top := os.foldl Frac.max {}
    { s with budget.meas := (List.range 9).foldl (fun m i =>
               SMap.set {} m i (meanW s (if i < 8 then directRails s i else groupRails s 9))) s.budget.meas
             budget.inputW := meanW s (inputRails s)
             budget.overheads := os
             budget.reserve := (Frac.ofNat (rdFld s R.BG_RESERVE_MIN 15 0)).max (top.scale 110 100)
             budget.snapE := s.meter.acc
             budget.snapN := s.meter.total }

/-! Thermal limits (R354) -/

/-- Headroom of a participant is below 5 K, or above 10 K. -/
def headLow (s : State) (i : Nat) : Bool :=
  if i < 8 then decide (headroomAcc s i < 50)
  else decide (headroom8 s < 50) || (List.range 4).any (fun q => 3 ≤ (stack s q).band)
def headHigh (s : State) (i : Nat) : Bool :=
  if i < 8 then decide (100 < headroomAcc s i)
  else decide (100 < headroom8 s) && !(List.range 4).any (fun q => 3 ≤ (stack s q).band)

def setThW (i n : Nat) (s : State) : State := { s with budget.thW := SMap.set 0 s.budget.thW i n }

/-- One step of TH_W; a leak zone holds its participants at MIN_W (R397). -/
def stepThW (s : State) (i : Nat) : State :=
  let lo := 100 * minW s i
  let hi := 100 * maxW s i
  let t := thW s i
  if !active s i then s
  else if leakHolds s i then setThW i lo s
  else if headLow s i then setThW i (max lo (t - 2 * maxW s i)) s
  else if headHigh s i then setThW i (min hi (t + maxW s i)) s
  else s

/-- A participant that becomes active starts at MAX_W, and before its first GRANT its guard stands at MIN_W; an
inactive one is granted nothing. -/
def noteActive (s : State) (i : Nat) : State :=
  let was := if i < 8 then (accB s i).wasActive else s.budget.selfActive
  let is_ := active s i
  let s1 := if is_ && !was then setThW i (100 * maxW s i) s else s
  let s2 := if i < 8 && is_ && !was then wr (R.GUARD i) (BitVec.ofNat 32 (minW s i)) s1 else s1
  if i < 8 then setAcc i (fun b => { b with wasActive := is_, granted := is_ && b.granted,
                                            guardNext := if is_ then b.guardNext else [] }) s2
  else { s2 with budget.selfActive := is_ }

/-! Grants (R352 to R361) -/

/-- A GRANT is due to an accelerator: active, and its port UP. -/
def grantDue (s : State) (a : Nat) : Bool := accActive s a && (port s a).st == .up

/-- Send a GRANT with what GRANT[a] holds. -/
def sendGrant (held : Bool) (s : State) (a : Nat) : State :=
  let b := accB s a
  let g := rdFld s (R.GRANT a) 15 0
  let flags := b2n s.chip.rackThrottle + b.flags + 8 * b2n held
  let p := leBytes 8 s.budget.interval ++ leBytes 4 g ++ leBytes 4 (rdFld s (R.GRANT a) 31 16)
    ++ leBytes 4 b.grantSeq ++ leBytes 1 flags ++ zeros 11
  sendAcc a true { cls := 2, typ := 1, len := 32, payload := p }
    (setAcc a (fun x => { x with grantSeq := x.grantSeq + 1, granted := true,
                                 freed := x.freed || !s.chip.rackThrottle }) s)

/-- GUARD follows a grant that is sent: at once when it rises, after 1.1 ms when it falls (R359). -/
def guardTakes (a g : Nat) (s : State) : State :=
  if rdN s (R.GUARD a) ≤ g then
    wr (R.GUARD a) (BitVec.ofNat 32 g) (setAcc a (fun b => { b with guardNext := [] }) s)
  else setAcc a (fun b =>
    let next := b.guardNext.map (max g)
    { b with guardNext := if next.getLast? == some g then next else next ++ [g] }) s

/-- The RACK cause may clear: the line is high, and a GRANT without RACK_THROTTLE has been sent where one is due. -/
def rackMayClear (s : State) (a : Nat) : Bool := !s.chip.rackThrottle && ((accB s a).freed || !grantDue s a)

/-- The millisecond of the RACK cause has passed: it clears now, or once the GRANT that it waits for has been sent. -/
def clearRack (s : State) (a : Nat) : State :=
  if (accB s a).rackMs && rackMayClear s a then setAcc a (fun b => { b with rack := false, rackMs := false }) s else s

/-- Send the GRANT of a period to an accelerator to which one is due. -/
def grantAcc (held : Bool) (s : State) (a : Nat) : State :=
  clearRack (if grantDue s a then sendGrant held (guardTakes a (rdFld s (R.GRANT a) 15 0) s) a else s) a

/-- The power that the grants divide; none with no cap. -/
def allocatable (s : State) : Option Frac :=
  if s.chip.rackThrottle then some ((floorEff s).sub s.budget.reserve)
  else (capEff s).map (fun c => (Frac.ofNat c).sub s.budget.reserve)

/-- Grants of the period. -/
def grantsOf (s : State) : List (Nat × Nat) :=
  match allocatable s with
  | some c => split s c (demandW s)
  | none => (actives s).map (fun i =>
      (i, max (minW s i) (min (min (maxW s i) (thW s i / 100)) (demandW s i))))

/-- The allocatable power does not cover the MIN_W of the active participants (R353). -/
def underFloorNow (s : State) : Bool :=
  match allocatable s with
  | some c => (c.max {}).lt (Frac.ofNat ((actives s).foldl (fun a i => a + minW s i) 0))
  | none => false

/-- Flags THERMAL and UNDER_FLOOR of a grant (R355). -/
def grantFlags (s : State) (i g : Nat) : Nat :=
  2 * b2n (thW s i < 100 * maxW s i && thW s i < 100 * demandW s i && thW s i / 100 ≤ g) + 4 * b2n s.budget.underFloor

/-- Store the grants and throttle levels of a period. -/
def storeGrants (s : State) : State :=
  let gs := grantsOf s
  let ts := split s ((floorEff s).sub s.budget.reserve) (minW s)
  (List.range 9).foldl (fun a i =>
    let g := shareOf gs i
    let b := wr (R.GRANT i) (BitVec.ofNat 32 (65536 * (shareOf ts i % 65536) + g % 65536)) a
    if i < 8 then setAcc i (fun x => { x with flags := grantFlags s i g }) b else b) s

/-! The TAL8's own power (R360, R366) -/

/-- Power of the group 9 rails. -/
def ownPower (s : State) : Frac := s.budget.meas.get {} 8

/-- Each running cluster is scaled to the grant, or each capped one rises by 25 MHz. -/
def capCluster (s : State) (c : Nat) : State :=
  let g := Frac.ofNat (rdFld s (R.GRANT 8) 15 0)
  let p := ownPower s
  let k := cluster s c
  if s.chip.rackThrottle || k.st = .off then s
  else if g.lt p then
    (if k.st = .running then
      let mhz := mkFrac (((effClock s c (clusterBroken s c)).1 : Int) * g.n * p.d) (g.d * p.n.toNat)
      setCl c (fun x => { x with capMhz := max 400 (mhz.floor.toNat / 25 * 25) }) s
     else s)
  else if p.lt (g.scale 95 100) && k.capMhz < 1600 then setCl c (fun x => { x with capMhz := x.capMhz + 25 }) s
  else s

/-- The hold on host jobs and preparation: every running cluster stands at 400 MHz and the power still exceeds the
grant; it ends at 0.95 of the grant (R366). -/
def pressHold (s : State) : Bool :=
  let g := Frac.ofNat (rdFld s (R.GRANT 8) 15 0)
  let p := ownPower s
  let runs := (List.range 8).filter (fun c => (cluster s c).st == .running)
  if p.le (g.scale 95 100) then false
  else s.budget.pressHeld
    || (g.lt p && !runs.isEmpty && runs.all (fun c => (effClock s c (clusterBroken s c)).1 ≤ 400))

/-- A hold that has ended frees the plans it held. -/
def setHold (h : Bool) (s : State) : State :=
  { s with budget.pressHeld := h
           press.plans := if h then s.press.plans else s.press.plans.map (fun p => { p with budgetWaits := false }) }

/-- Every 1 ms the power-management core computes RESERVE, TH_W, grants and throttle levels, sends GRANTs and caps
clusters. -/
def fxBudget (s : State) : State :=
  let s1 := (List.range 9).foldl noteActive (measure s)
  let s2 := (List.range 9).foldl stepThW { s1 with budget.interval := taiNow s1 / 1000000 * 1000000 }
  let uf := underFloorNow s2
  let s3 := if uf && !s2.budget.underFloor then raise 4 1 noInst [] s2 else s2
  let s4 := storeGrants { s3 with
    budget.underFloor := uf
    budget.capShown := (capEff s3).getD 0
    budget.floorShown := (floorEff s3).floor.toNat }
  let s5 := (List.range 8).foldl (grantAcc false) s4
  let h := pressHold s5
  setHold h ((List.range 8).foldl capCluster s5)

def execBudgetPeriod (s : State) : Host.Outcome State Fault Refusal := done (if coreUp 1 s then fxBudget s else s)

/-- While the power-management core is down the AON island repeats the last grants with HELD (R361). -/
def fxHeldGrants (s : State) : State :=
  (List.range 8).foldl (grantAcc true)
    { s with budget.interval := taiNow s / 1000000 * 1000000 }

def execHeldGrantRepeat (s : State) : Host.Outcome State Fault Refusal :=
  done (if coreUp 1 s then s else fxHeldGrants s)

/-- An accelerator's demand (R351, R355). -/
def fxDemand (a : Nat) (p : Bytes) (s : State) : State :=
  setAcc a (fun b => { b with demand := leAt p 0 4, demandAt := some (now s) }) (takeInbox a 2 2 p s)

def execDemand (acc : Fin 8) (payload : Bytes) (s : State) : Host.Outcome State Fault Refusal :=
  done (fxDemand acc payload s)

/-! Guards (R359) and the clearing of causes (R358) -/

/-- GUARD_PCT as it acts. -/
def guardPct (s : State) : Nat := max 1 (min 50 (rdFld s R.BG_CTRL 7 0))

/-- The guard level of an accelerator is exceeded. -/
def guardOver (s : State) (a w : Nat) : Bool := rdBit s R.BG_CTRL 31 && rdN s (R.GUARD a) * (100 + guardPct s) < 100 * w

/-- A comparison: a trip opens an episode, in which further ones count nothing; a mean at or below THR_W starts the
clearance. -/
def fxGuardCompare (a w : Nat) (s : State) : State :=
  let b := accB s a
  if b.guard then
    (if w ≤ rdFld s (R.GRANT a) 31 16 then setAcc a (fun x => { x with guardFell := true }) s else s)
  else if guardOver s a w then
    raise 4 2 a (regData (rd s (R.GUARD a)))
      (bump (R.CNT_GUARD a) (setAcc a (fun x => { x with guard := true, guardFell := false }) s))
  else s

def execGuardCompare (acc : Fin 8) (meanW : Nat) (s : State) : Host.Outcome State Fault Refusal :=
  done (fxGuardCompare acc meanW s)

/-- 1.1 ms after a decreased GRANT, GUARD takes it. -/
def fxGuardLevel (a : Nat) (s : State) : State :=
  match (accB s a).guardNext with
  | [] => s
  | g :: t => wr (R.GUARD a) (BitVec.ofNat 32 g) (setAcc a (fun b => { b with guardNext := t }) s)

def execGuardLevelUpdate (acc : Fin 8) (s : State) : Host.Outcome State Fault Refusal := done (fxGuardLevel acc s)

/-- The clearance time of a cause has passed. -/
def fxCauseClear (a : Nat) (guard : Bool) (s : State) : State :=
  if guard then
    (if (accB s a).guardFell then setAcc a (fun b => { b with guard := false, guardFell := false }) s else s)
  else if s.chip.rackThrottle then s
  else clearRack (setAcc a (fun b => { b with rackMs := b.rack }) s) a

def execAccThrCauseClear (acc : Fin 8) (guard : Bool) (s : State) : Host.Outcome State Fault Refusal :=
  done (fxCauseClear acc guard s)

/-! TRAY_SUMMARY (R355, R356) -/

/-- FLAGS as in a GRANT, of the tray. -/
def trayFlags (s : State) : Nat := b2n s.chip.rackThrottle + 4 * b2n s.budget.underFloor + 8 * b2n (!coreUp 1 s)

def summaryPayload (s : State) : Bytes :=
  leBytes 2 (nodeId s) ++ leBytes 1 s.chip.tray.code ++ leBytes 1 (trayFlags s) ++ leBytes 4 ((capEff s).getD 0)
    ++ leBytes 4 (if (roleRails s 3).isEmpty then 0 else s.budget.inputW.floor.toNat)
    ++ leBytes 4 ((List.range 9).foldl (fun n i => n + rdFld s (R.GRANT i) 15 0) 0)
    ++ leBytes 8 (taiNow s) ++ zeros 8

def fxTraySummary (s : State) : State :=
  sendNodeOrCount true { cls := 2, typ := 4, dst := rdFld s R.BG_SUMMARY 10 0, endpoint := 9, len := 32,
                         payload := summaryPayload s } s

def execTraySummary (s : State) : Host.Outcome State Fault Refusal :=
  done (if rdBit s R.BG_SUMMARY 31 then fxTraySummary s else s)

/-! The ledger (R362 to R368) -/

/-- BUCKET_MS and AGE_MS as they act. -/
def bucketMs (s : State) : Nat := max 10 (min 60000 (rdFld s R.BG_TIMING 31 16))
def ageMs (s : State) : Nat := max 1 (rdFld s R.BG_TIMING 15 0)

/-- Capacity of an accelerator's balance, mJ. -/
def balCap (s : State) (a : Nat) : Nat := bucketMs s * rdFld s (R.GRANT a) 15 0

/-- A balance, and a change of it. -/
def balance (s : State) (a : Nat) : Int := s.budget.bal.get 0 a
def setBal (a : Nat) (x : Int) (s : State) : State := { s with budget.bal := SMap.set 0 s.budget.bal a x }

/-- Credit the balances for the periods that have passed. -/
def creditAll (n : Nat) (s : State) : State :=
  let s1 := (List.range 8).foldl (fun t a =>
    if accActive t a then
      setBal a (min (balCap t a : Int) (balance t a + ((n * rdFld t (R.GRANT a) 15 0 : Nat) : Int))) t
    else t) s
  let q := rdN s1 R.QCAP
  let spare := ((Frac.ofNat q).sub s1.budget.inputW).floor
  { s1 with budget.heat := min ((bucketMs s1 * q : Nat) : Int) (s1.budget.heat + n * max 0 spare)
            budget.ledgerAt := now s }

/-- Accelerators of a mask. -/
def maskAccs (m : Nat) : List Nat := (List.range 8).filter (fun a => m.testBit a)

/-- Share of an item on each accelerator of its mask, in mJ. -/
def WorkItem.share (w : WorkItem) : Nat := 1000 * w.energyJ / (maskAccs w.mask).length

/-- An item may be released (R363). -/
def itemReady (s : State) (w : WorkItem) : Bool :=
  (maskAccs w.mask).all (fun a => accActive s a
      && (decide ((w.share : Int) ≤ balance s a) || (balCap s a < w.share && decide ((balCap s a : Int) ≤ balance s a))))
    && (w.heatJ == 0 || decide ((1000 * w.heatJ : Int) ≤ s.budget.heat))

/-- An item has aged (R364). -/
def itemAged (s : State) (w : WorkItem) : Bool := w.since + ageMs s ≤ now s

/-- WORK_RELEASE (R355). -/
def releasePayload (w : WorkItem) : Bytes :=
  leBytes 8 w.id ++ leBytes 8 w.desc ++ leBytes 4 (w.share / 1000) ++ zeros 4

/-- Release an item: shares and heat are charged, and each accelerator of the mask is told. -/
def releaseItem (w : WorkItem) (s : State) : State :=
  let s1 := (maskAccs w.mask).foldl (fun t a =>
    sendAcc a true { cls := 2, typ := 3, len := 24, payload := releasePayload w } (setBal a (balance t a - w.share) t)) s
  { s1 with budget.heat := s1.budget.heat - 1000 * w.heatJ
            budget.items := s1.budget.items.erase w
            budget.released := s1.budget.released ++ [w.id] }

/-- Consider the items in order; `held` are the accelerators that an aged item before it keeps. -/
def releaseGo (ws : List WorkItem) (held : Nat) (s : State) : State :=
  match ws with
  | [] => s
  | w :: t =>
    if w.mask &&& held = 0 && itemReady s w then releaseGo t held (releaseItem w s)
    else releaseGo t (if itemAged s w then held ||| w.mask else held) s

/-- Plans that have waited AGE_MS in their class move up, but never into HOLD (R365). -/
def agePlans (s : State) : State :=
  { s with press.plans := s.press.plans.map (fun p =>
      if p.st = .waiting && 1 < p.cls && p.since + ageMs s ≤ now s then { p with cls := p.cls - 1, since := now s } else p) }

/-- Waiting plans whose image stands, in the order of their class and their time in it. -/
def waitingPlans (s : State) : List Plan :=
  sortBy (fun a b => a.cls < b.cls || (a.cls == b.cls && (a.since < b.since || (a.since == b.since && a.id ≤ b.id))))
    (s.press.plans.filter (fun p => p.st == .waiting && imageReady s p))

/-- Clusters that a plan's header asks for; a header out of range is refused at load on one. -/
def spanOf (s : State) (p : Plan) : Nat :=
  let n := planSpan (planBytes s p (min 64 p.len))
  if 1 ≤ n && n ≤ 8 then n else 1

/-- HOME that a plan's mailbox or header fixes. -/
def homeFixed (s : State) (p : Plan) : Option Nat :=
  match p.fixedHome with
  | some h => some h
  | none => homeOf (planBytes s p (min 64 p.len))

/-- The header of a plan submitted on MBX3 + c names a HOME other than c (R265). -/
def homeClash (s : State) (p : Plan) : Bool :=
  match p.fixedHome with
  | some h => let x := planHome (planBytes s p (min 64 p.len)); x != h && x != 0xFF
  | none => false

/-- Start one plan: hand it to its span, or refuse a host plan whose fixed HOME has a cluster that is not IDLE (R137, R139). It
waits where its clusters are IDLE and a bridge is not usable. A plan of the TAL8 itself waits for its HOME, and one that was handed
back is placed on any span (R146). While the hold of R366 lasts, a host job or a preparation stays LOADING. -/
def startPlan (p : Plan) (s : State) : Option State :=
  let n := spanOf s p
  if !p.requeued && homeClash s p then some (refusePlan p.id St.BAD_PARAM s)
  else match if p.requeued then none else homeFixed s p with
  | some h =>
    if spanFree s h n then some (handPlan p.id h n s)
    else if p.isSelf || spanIdle s h n then none
    else
      let st := planStatus s p.isSelf (planBytes s p p.len)
      some (refusePlan p.id (if st = St.DONE then St.BUSY else st) s)
  | none => (chooseHome s n).map (fun h => handPlan p.id h n s)

/-- The hold of R366 applies to a plan. -/
def holdsPlan (s : State) (p : Plan) : Bool :=
  s.budget.pressHeld && (match p.owner with
    | .host _ _ => true
    | .prep _ => true
    | _ => false)

/-- Start the oldest plan of the highest class that has a span. -/
def startFirst (ps : List Plan) (s : State) : State :=
  match ps with
  | [] => s
  | p :: t =>
    match startPlan p s with
    | some u => if holdsPlan s p then setPlan p.id (fun q => { q with budgetWaits := q.st == .loading }) u else u
    | none => startFirst t s

/-- Screening may be dispatched to an accelerator (R183, R367). -/
def mayScreen (s : State) (a : Nat) : Bool :=
  rdBit s R.AS_CTRL 2 && accActive s a && (port s a).st == .up && (s.assure.screening.get none a).isNone
    && decide ((balCap s a : Int) ≤ balance s a) && !s.budget.items.any (fun w => w.mask.testBit a)
    && (accB s a).statusAt.isSome && (accB s a).running == 0 && accCause s a == 0

/-- One SCREEN for each accelerator that may take one. -/
def screenAll (s : State) : State :=
  (List.range 8).foldl (fun t a => if mayScreen t a then
      (match nextScreen t a with
       | some d => sendScreen a d t
       | none => t) else t) s

/-- Assurance at a period: capsules are dispatched, third executions go on, lost darns are asked for, and idle accelerators
are screened. -/
def assureLedger (s : State) : State :=
  if inService s then
    let s1 := (queuedCaps s).foldl (fun t c => dispatchCap c t) s
    let s2 := s1.assure.thirds.foldl (fun t x => thirdStep x t) s1
    screenAll (wantDarns s2)
  else s

/-- One ledger period: balances, releases, aging, assurance, one start. -/
def fxLedger (s : State) : State :=
  let s1 := creditAll (max 1 (now s - s.budget.ledgerAt)) s
  let s2 := assureLedger (agePlans (releaseGo s1.budget.items 0 s1))
  startFirst (waitingPlans s2) s2

def execLedgerPeriod (s : State) : Host.Outcome State Fault Refusal := done (if coreUp 2 s then fxLedger s else s)

end Sys2Proof.Machine
end

