-- ==== Sys2Proof/Machine/OrderOps.lean ====
section
/-! DEFINITION. Taking an order (R265 to R280): the order catalogue, the checks 1 to 6 of R271, signatures and their
SEQUENCE (R272), and the hardware responder (R267, R428).
Log entries coded here: 45 (DEDUCED), 46 (DEDUCED), 145 (DEDUCED), 146 (DEDUCED), 147 (DEDUCED), 148 (DEDUCED), 149
(DEDUCED), 150 (DEDUCED), 151 (DEDUCED). -/

namespace Sys2Proof.Machine

/-! The catalogue (R275) -/

/-- Who serves an order: HW, or the core of that index; PLAN orders are served by CTLc on its own mailbox. -/
inductive Server where
  | hw | sec | pmc | sched
  deriving DecidableEq, Repr

/-- One row of the order catalogue: LENGTH of the request, sources (bit 0 H, 1 R, 2 P, 3 Q), and the source classes that
must sign (bit 0 host, bit 1 rack, bit 3 peer). -/
structure OrderRow where
  op : Nat
  server : Server
  len : Nat
  srcs : Nat
  sign : Nat
  deriving DecidableEq, Repr

/-- Chip and power orders. -/
def rowsChip : List OrderRow :=
  [⟨0x0101, .hw, 4, 15, 0⟩, ⟨0x0102, .hw, 0, 15, 0⟩, ⟨0x0103, .hw, 0, 15, 0⟩, ⟨0x0104, .sec, 12, 11, 0⟩,
   ⟨0x0105, .sec, 16, 3, 2⟩, ⟨0x0106, .sec, 8, 3, 11⟩, ⟨0x0107, .sec, 8, 1, 0⟩, ⟨0x0108, .sec, 4, 1, 0⟩,
   ⟨0x0109, .sec, 4, 1, 0⟩, ⟨0x0201, .pmc, 0, 3, 0⟩, ⟨0x0202, .pmc, 0, 3, 0⟩, ⟨0x0203, .pmc, 2, 3, 0⟩,
   ⟨0x0204, .pmc, 4, 11, 0⟩, ⟨0x0205, .pmc, 12, 1, 11⟩, ⟨0x0206, .pmc, 12, 1, 11⟩, ⟨0x0207, .pmc, 8, 11, 0⟩,
   ⟨0x0208, .pmc, 4, 1, 11⟩]

/-- Metering and cooling orders. -/
def rowsPower : List OrderRow :=
  [⟨0x0301, .pmc, 4, 11, 0⟩, ⟨0x0302, .pmc, 12, 1, 0⟩, ⟨0x0303, .pmc, 8, 11, 0⟩, ⟨0x0304, .pmc, 4, 1, 0⟩,
   ⟨0x0305, .pmc, 8, 1, 0⟩, ⟨0x0401, .pmc, 0, 11, 0⟩, ⟨0x0402, .pmc, 0, 11, 0⟩, ⟨0x0403, .pmc, 8, 3, 0⟩,
   ⟨0x0404, .pmc, 0, 11, 0⟩, ⟨0x0405, .pmc, 1, 3, 11⟩]

/-- Budget, assurance and Press orders. -/
def rowsSched : List OrderRow :=
  [⟨0x0501, .sched, 8, 3, 0⟩, ⟨0x0502, .sched, 0, 11, 0⟩, ⟨0x0503, .sched, 32, 1, 0⟩, ⟨0x0504, .sched, 8, 1, 0⟩,
   ⟨0x0505, .sched, 0, 11, 0⟩, ⟨0x0601, .sched, 84, 1, 0⟩, ⟨0x0602, .sched, 128, 1, 0⟩, ⟨0x0603, .sched, 64, 1, 0⟩,
   ⟨0x0604, .sched, 8, 9, 0⟩, ⟨0x0605, .sched, 16, 1, 0⟩, ⟨0x0606, .sched, 8, 1, 0⟩, ⟨0x0607, .sched, 16, 1, 0⟩,
   ⟨0x0608, .sched, 4, 3, 11⟩, ⟨0x0609, .sched, 8, 15, 0⟩, ⟨0x060A, .sched, 0, 3, 11⟩, ⟨0x0701, .sched, 16, 1, 0⟩,
   ⟨0x0702, .sched, 8, 9, 0⟩, ⟨0x0703, .sched, 8, 1, 0⟩, ⟨0x0704, .sched, 2, 1, 0⟩]

/-- Event, configuration, firmware and security orders. -/
def rowsSecure : List OrderRow :=
  [⟨0x0801, .sec, 12, 11, 0⟩, ⟨0x0802, .sec, 0, 3, 11⟩, ⟨0x0803, .sec, 12, 1, 0⟩, ⟨0x0804, .sec, 4, 3, 11⟩,
   ⟨0x0805, .sec, 0, 3, 11⟩, ⟨0x0806, .sec, 0, 11, 0⟩, ⟨0x0901, .sec, 32, 7, 0⟩, ⟨0x0902, .sec, 1, 15, 0⟩,
   ⟨0x0903, .sec, 16, 1, 0⟩, ⟨0x0904, .sec, 3, 3, 11⟩, ⟨0x0905, .sec, 1, 1, 11⟩, ⟨0x0906, .sec, 2, 3, 11⟩,
   ⟨0x0907, .sec, 5, 3, 11⟩, ⟨0x0908, .sec, 64, 1, 11⟩]

/-- The row of an opcode. -/
def orderRow (op : Nat) : Option OrderRow :=
  (rowsChip ++ rowsPower ++ rowsSched ++ rowsSecure).find? (fun r => r.op == op)

/-! Fields of a request (R270, R277) -/

/-- OPCODE of a version 3 request, CMD of a TAL2 request. -/
abbrev reqOp (req : Bytes) : Nat := leAt req 4 2
abbrev reqCmd (req : Bytes) : Nat := leAt req 4 1
/-- LENGTH. -/
def reqLen (req : Bytes) : Nat := if isTal2 req then leAt req 8 2 else leAt req 12 4
/-- The payload. -/
def reqPayload (req : Bytes) : Bytes := if isTal2 req then slice req 16 (reqLen req) else slice req 32 (reqLen req)
abbrev reqSource (req : Bytes) : Nat := leAt req 18 2
abbrev reqSequence (req : Bytes) : Nat := leAt req 20 4
abbrev reqAuthRef (req : Bytes) : Nat := leAt req 24 8
/-- SIGNED: bit 0 of FLAGS. -/
def reqSigned (req : Bytes) : Bool := !isTal2 req && (leAt req 6 2).testBit 0

/-- The version 3 opcode that TAL2 carries a command out as (R277); LOAD_SLOTS and READ_SLOTS have none. -/
def tal2Op (cmd : Nat) : Nat :=
  match cmd with
  | 1 => 0x0101
  | 2 => 0x0201
  | 3 => 0x0202
  | 4 => 0x0204
  | 7 => 0x0401
  | 8 => 0x0403
  | 9 => 0x0207
  | 10 => 0x0301
  | _ => 0

/-- The opcode that a request is carried out as. -/
def carriedOp (req : Bytes) : Nat := if isTal2 req then tal2Op (reqCmd req) else reqOp req

/-- The core that serves a request in mailbox n; `none` is the mailbox hardware. LOAD_SLOTS and READ_SLOTS concern the
stitch engine, which the power-management core serves. -/
def servingCore (n : Nat) (req : Bytes) : Option Nat :=
  match orderRow (carriedOp req) with
  | some r =>
    match r.server with
    | .hw => none
    | .sec => some 0
    | .pmc => some 1
    | .sched => some (if 3 ≤ n && n ≤ 10 then n else 2)
  | none => if isTal2 req && (reqCmd req = 5 || reqCmd req = 6) then some 1 else none

/-- The core that MB_STATE CORE_DOWN shows: the owner of MBX0 to MBX10; for the others the core that serves the order in
the buffer, none while IDLE (R265, R284). -/
def mbCore (s : State) (n : Nat) : Option Nat :=
  if n ≤ 10 then some n
  else if (mbox s n).st = .idle then none
  else servingCore n (mbox s n).req

/-- MBX_CORE_DOWN. -/
def mbCoreDown (s : State) (n : Nat) : Bool :=
  match mbCore s n with
  | some k => !coreUp k s
  | none => false

/-! Checks (R271) -/

/-- Mailbox n accepts an order (R265). -/
def mbAccepts (n : Nat) (r : OrderRow) : Bool :=
  if n = 0 then r.server == .hw || r.server == .sec
  else if n = 1 then r.server == .hw || r.server == .pmc
  else if n = 2 then r.server == .hw || r.server == .sched
  else if n ≤ 10 then r.server == .hw || (0x0701 ≤ r.op && r.op ≤ 0x0703)
  else if n = 11 then true
  else if n ≤ 13 then r.srcs.testBit 1
  else if n = 14 then r.srcs.testBit 2
  else r.srcs.testBit 3

/-- The source may issue the order: self always may; an order that MBX15 accepts may come from there (R275). -/
def sourceMay (n src : Nat) (r : OrderRow) : Bool :=
  src == 2 || n == 15 || r.srcs.testBit (if src = 3 then 2 else src)

/-- The order must carry a signature from this source (R275). -/
def mustSign (src : Nat) (r : OrderRow) : Bool := src != 2 && r.sign.testBit src

/-- The ROLES bit of a source (R450). -/
def roleBit (src : Nat) : Nat := if src = 3 then 2 else src

/-- The enrolled key that a signed request names. -/
def namedKey (s : State) (req : Bytes) : Option AuthKey := s.sec.keys.find? (fun k => keyRef k.pub == reqAuthRef req)

/-- The last SEQUENCE accepted under a reference. -/
def lastSeq (s : State) (ref : Nat) : Nat := ((s.sec.seqs.find? (fun e => e.1 == ref)).map (fun e => e.2)).getD 0

/-- What a signature of an order is over: the header with STATUS zero, then the payload (R272). -/
def signedBytes (req : Bytes) : Bytes := fix 16 (req.take 16) ++ zeros 2 ++ fix 14 (slice req 18 14) ++ reqPayload req

/-- The offset of the field that fails the signature check, where one does (R272, R450). -/
def signatureFails (s : State) (src : Nat) (req : Bytes) : Option Nat :=
  match namedKey s req with
  | none => some 24
  | some k =>
    if !k.roles.testBit (roleBit src) then some 24
    else if reqSequence req ≤ lastSeq s (reqAuthRef req) then some 20
    else if !Config.edVerify k.pub (signedBytes req) (slice req (32 + reqLen req) 64) then some (32 + reqLen req)
    else none

/-- Check 6: the source, and the signature where one is required or present. -/
def authFails (s : State) (n : Nat) (r : OrderRow) (req : Bytes) : Option Nat :=
  let src := (mbox s n).source
  if !sourceMay n src r then some 18
  else if src = 2 then none
  else if reqSigned req then signatureFails s src req
  else if mustSign src r then some 6
  else none

/-- Bytes of an order, and what its transport holds of it: a 64 KiB buffer, or 4,096 bytes after the header of a rack
order and in all of a peer's (R278, R280). -/
def orderFits (n : Nat) (req : Bytes) : Bool :=
  let len := 32 + reqLen req + (if reqSigned req then 64 else 0)
  len ≤ (if n = 14 then 4096 else if n = 12 || n = 13 then 32 + 4096 else 65536)

/-- LENGTH of a TAL2 command's payload (R277). -/
def tal2Len (cmd : Nat) : Nat :=
  match cmd with
  | 4 => 4
  | 8 => 2
  | 9 => 8
  | 10 => 4
  | _ => 0

/-- The checks of a version 3 order up to step 6: the status and the offset of the first that fails. -/
def checkV3 (s : State) (n : Nat) (req : Bytes) : Option (Nat × Nat) :=
  let m := mbox s n
  if leAt req 0 2 ≠ 0xC1A5 then some (St.BAD_PARAM, 0)
  else if (leAt req 6 2).testBit 1 then some (St.BAD_PARAM, 6)
  else if reqOp req ≠ 0x0101 && leAt req 2 1 ≠ m.major then some (St.BAD_VERSION, 2)
  else if reqOp req ≠ 0x0101 && m.minor < leAt req 3 1 then some (St.BAD_VERSION, 3)
  else match orderRow (reqOp req) with
    | none => some (St.BAD_OPCODE, 4)
    | some r =>
      if !mbAccepts n r then some (St.BAD_OPCODE, 4)
      else if !orderFits n req || reqLen req ≠ r.len then some (St.BAD_LENGTH, 12)
      else if reqSource req ≠ m.source then some (St.BAD_PARAM, 18)
      else (authFails s n r req).map (fun o => (St.DENIED_AUTH, o))

/-- The checks of a TAL2 command (R277). -/
def checkV2 (s : State) (n : Nat) (req : Bytes) : Option (Nat × Nat) :=
  if leAt req 0 2 ≠ 0xC1A5 then some (St.BAD_PARAM, 0)
  else if (leAt req 5 1).testBit 0 then some (St.BAD_PARAM, 5)
  else if (mbox s n).major ≠ 2 then some (St.BAD_VERSION, 2)
  else if 4 < leAt req 3 1 then some (St.BAD_VERSION, 3)
  else if reqCmd req = 0 || 10 < reqCmd req then some (St.BAD_OPCODE, 4)
  else if 4080 < reqLen req || (reqLen req ≠ tal2Len (reqCmd req) && reqCmd req ≠ 5) then some (St.BAD_LENGTH, 8)
  else none

/-- Checks 1 to 6 of the order in mailbox n. -/
def checkOrder (s : State) (n : Nat) : Option (Nat × Nat) :=
  let req := (mbox s n).req
  if isTal2 req then checkV2 s n req else checkV3 s n req

/-- A signed order that passed: its SEQUENCE is the last accepted one, and an event tells of a key near its end (R272). -/
def acceptSeq (n : Nat) (s : State) : State :=
  let req := (mbox s n).req
  if !reqSigned req || (mbox s n).source = 2 then s
  else
    let ref := reqAuthRef req
    let q := reqSequence req
    let s1 := { s with sec.seqs := s.sec.seqs.map (fun e => if e.1 = ref then (ref, q) else e) }
    if lastSeq s ref < 0xFFFF0000 && 0xFFFF0000 ≤ q then raise 8 2 noInst (leBytes 8 ref ++ leBytes 4 q) s1 else s1

/-- Answer an order that fails a check; a signed order that is refused is an event (R469). -/
def refuseOrder (n st off : Nat) (s : State) : State :=
  let req := (mbox s n).req
  replyFail n st off 0 (if st = St.DENIED_AUTH && reqSigned req then raise 8 1 noInst (fix 32 (req.take 32)) s else s)

/-- The core that serves the order in mailbox n is down: the hardware responder answers it (R267, R428). -/
def serverDown (s : State) (n : Nat) : Bool :=
  match servingCore n (mbox s n).req with
  | some k => !coreUp k s
  | none => false

/-- Mailbox n is EXECUTING, short of its commit point (R266). -/
def executing (n : Nat) (s : State) : State := setMb n (fun m => { m with st := .executing, committed := false }) s

/-- Take the order that stands SUBMITTED in mailbox n: the hardware responder answers for a core that is down; else it is
EXECUTING, is checked, and its own part follows (R266, R267, R271). -/
def takeOrder (n : Nat) (body : State → State) (s : State) : State :=
  if serverDown s n then replyFail n St.HELD_RESTARTING noDetail 0 s
  else
    let s1 := executing n s
    match checkOrder s1 n with
    | some (st, off) => refuseOrder n st off s1
    | none => body (acceptSeq n s1)

/-- The version 3 order `op` stands SUBMITTED in mailbox n. -/
def orderStands (s : State) (n op : Nat) : Bool :=
  (mbox s n).st == .submitted && !isTal2 (mbox s n).req && reqOp (mbox s n).req == op

/-- The TAL2 command `cmd` stands SUBMITTED in mailbox n. -/
def commandStands (s : State) (n cmd : Nat) : Bool :=
  (mbox s n).st == .submitted && isTal2 (mbox s n).req && reqCmd (mbox s n).req == cmd

/-- Take the order `op` from mailbox n, where it stands there. -/
def onOrder (op n : Nat) (body : Bytes → State → State) (s : State) : State :=
  if orderStands s n op then takeOrder n (body (reqPayload (mbox s n).req)) s else s

/-- Take the TAL2 command `cmd` from mailbox n, where it stands there. -/
def onCommand (cmd n : Nat) (body : Bytes → State → State) (s : State) : State :=
  if commandStands s n cmd then takeOrder n (body (reqPayload (mbox s n).req)) s else s

/-- Answer DONE. -/
def replyDone (n : Nat) (payload : Bytes) (s : State) : State := reply n St.DONE payload s

/-- Offset within the order of a payload field. -/
def fieldOff (s : State) (n o : Nat) : Nat := (if isTal2 (mbox s n).req then 16 else 32) + o

/-- Answer BAD_PARAM naming the payload field at o. -/
def badParam (n o : Nat) (s : State) : State := replyFail n St.BAD_PARAM (fieldOff s n o) 0 s

/-- The source class of the order in mailbox n: 0 host, 1 rack, 2 self, 3 peer. -/
def orderSource (s : State) (n : Nat) : Nat := (mbox s n).source

/-- The firewall master of the transport that delivered the order: the Suorta link, the debug port, the core itself (taken
as the security core), or the seams; the rack's transport has no master of its own and gets the host's windows. -/
def orderMaster (s : State) (n : Nat) : Nat :=
  if (mbox s n).source = 2 then 0 else if n = 15 && (mbox s n).backTo = 36 then 36 else 35

end Sys2Proof.Machine
end

