-- ==== Sys2Proof/Machine/MbxOps.lean ====
section
/-! DEFINITION. What a requester does to a mailbox (R265, R266, R284): its buffers, SUBMIT, RELEASE and ABORT.
Log entries coded here: 20 (DEDUCED), 21 (DESIGN CHOICE), 142 (DEDUCED), 143 (DEDUCED), 146 (DEDUCED). -/

namespace Sys2Proof.Machine

/-- A byte of a mailbox buffer that nothing has written: the buffers are undefined after cold reset (R284). -/
def bufFree (n : Nat) (rep : Bool) (o : Nat) : Byte := Config.unwrittenByte (2 ^ 40 + 2 * n + b2n rep) o

/-- A buffer's bytes, extended to a length. -/
def padBuf (n : Nat) (rep : Bool) (len : Nat) (bs : Bytes) : Bytes :=
  bs ++ (List.range (len - bs.length)).map (fun i => bufFree n rep (bs.length + i))

/-- Bytes of a mailbox buffer. -/
def bufRead (s : State) (n : Nat) (rep : Bool) (o len : Nat) : Bytes :=
  let bs := if rep then (mbox s n).rep else (mbox s n).req
  (List.range len).map (fun i => bs.getD (o + i) (bufFree n rep (o + i)))

/-- Replace the bytes at an offset. -/
def overlay (o : Nat) (new old : Bytes) : Bytes := old.take o ++ new ++ old.drop (o + new.length)

/-- A write of the request buffer: ignored outside IDLE, with WR_BUSY set (R266). -/
def bufWrite (n o : Nat) (bs : Bytes) (s : State) : State :=
  if (mbox s n).st = .idle then setMb n (fun m => { m with req := overlay o bs (padBuf n false o m.req) }) s
  else setBits (R.MB_ERR n) 1 s

/-- Bytes of the request that a buffer's header describes: header, payload and signature, within the buffer. -/
def requestLength (req : Bytes) : Nat :=
  min 65536 (if isTal2 req then 16 + reqLen req else 32 + reqLen req + (if reqSigned req then 64 else 0))

/-- The request as it stands at SUBMIT. -/
def sealed (n : Nat) (req : Bytes) : Bytes :=
  let h := padBuf n false 32 req
  fix (requestLength h) (padBuf n false (requestLength h) h)

/-- Orders that no row of the catalogue takes are answered by the mailbox hardware (R271, R277). -/
def noSuchOrder (req : Bytes) : Bool :=
  if isTal2 req then reqCmd req == 0 || 10 < reqCmd req else (orderRow (reqOp req)).isNone

/-- Take an order that has no row: its checks answer it. -/
def answerUnknown (n : Nat) (s : State) : State := if noSuchOrder (mbox s n).req then takeOrder n (fun t => t) s else s

/-- SUBMIT, from a source class, with what the reply needs to find its way: IDLE becomes SUBMITTED; outside IDLE it is
ignored and COLLIDE is set (R266). -/
def fxSubmit (src back n : Nat) (s : State) : State :=
  if (mbox s n).st = .idle then
    answerUnknown n (setMb n (fun m => { m with
      st := .submitted, source := src, backTo := back, committed := false, req := sealed n m.req }) s)
  else setBits (R.MB_ERR n) 2 s

/-- RELEASE: acts in REPLIED only (R266). -/
def fxMbRelease (n : Nat) (s : State) : State := if (mbox s n).st = .replied then mbIdle n s else s

/-- ABORT: acts in SUBMITTED only, without a reply (R266). -/
def fxMbAbort (n : Nat) (s : State) : State := if (mbox s n).st = .submitted then mbIdle n s else s

/-- The source class of a master that writes SUBMIT: a core is self; every other is the host class (R270, R284). -/
def submitSource (m : Nat) : Nat := if m ≤ 10 then 2 else 0

/-- What the reply of an order from this master remembers: only the debug port is told apart. -/
def submitBack (m : Nat) : Nat := if m = 36 then 36 else 0

/-- A write of MB_CTRL: RELEASE, then SUBMIT, then ABORT where several bits are one. -/
def mbCtrl (m n : Nat) (v : W32) (s : State) : State :=
  let s1 := if bitAt v 1 then fxMbRelease n s else s
  let s2 := if bitAt v 0 then fxSubmit (submitSource m) (submitBack m) n s1 else s1
  if bitAt v 2 then fxMbAbort n s2 else s2

end Sys2Proof.Machine
end

