-- ==== Sys2Proof/Machine/RegRead.lean ====
section
/-! DEFINITION. What a register reads as (R8, R30, R31 and the register maps of the chapters): the words that stand in
`State.regs`, and the words that hardware sets from the structured state.
Log entries coded here: 11 (DEDUCED), 14 (DESIGN CHOICE), 24 (DESIGN CHOICE), 49 (DEDUCED), 119 (PRESUMED), 188
(DEDUCED), 235 (DESIGN CHOICE). -/

namespace Sys2Proof.Machine

/-- Index of the entry of a register array that an offset names, where it names one. -/
def ix (base stride n off : Nat) : Option Nat :=
  if base ≤ off && (off - base) % stride == 0 && (off - base) / stride < n then some ((off - base) / stride) else none

/-- The low and the high word of a 64-bit value. -/
def loWord (n : Nat) : Nat := n % 2 ^ 32
def hiWord (n : Nat) : Nat := n / 2 ^ 32 % 2 ^ 32

/-- A 32-bit word of a byte string. -/
def wordAt (bs : Bytes) (i : Nat) : Nat := leAt bs (4 * i) 4

/-! PRESS (03) -/

/-- The tag of the order or dispatch that submitted a plan. -/
def Plan.tagOf (p : Plan) : Nat :=
  match p.owner with
  | .host _ t => t
  | .replay _ c => c
  | .third _ r => r
  | .capture _ c => c
  | .prep d => d

/-- CL_STATE. -/
def clStateWord (s : State) (c : Nat) : Nat :=
  let k := cluster s c
  k.st.code + 16 * k.restarts + 65536 * b2n k.plan.isSome + 2 ^ 17 * b2n (k.plan.isSome && k.restartable)

/-- BRIDGE_STATUS. UP_BOUND and DOWN_BOUND have one field for the lanes of both directions, 0 to 8 in each; the model shows
the larger of the two. DESIGN CHOICE. -/
def bridgeWord (s : State) (c : Nat) : Nat :=
  let d := (c + 7) % 8
  let up := bridgeLanes s c
  let dn := bridgeLanes s d
  b2n (bridgeReady s c) + 2 * b2n (bridgeReady s d) + 16 * max up.1 up.2 + 256 * max dn.1 dn.2

/-- The cluster registers that hardware sets. -/
def readCluster (s : State) (c o : Nat) : Option Nat :=
  let p := (cluster s c).plan.bind (planOf s)
  match o with
  | 0x00 => some (clStateWord s c)
  | 0x0C => some ((effClock s c (clusterBroken s c)).1 + 4096 * (effClock s c (clusterBroken s c)).2)
  | 0x10 => some ((p.map (fun p => loWord p.addr)).getD 0)
  | 0x14 => some ((p.map (fun p => hiWord p.addr % 65536)).getD 0)
  | 0x18 => some ((p.map (fun p => loWord p.tagOf)).getD 0)
  | 0x1C => some ((p.map (fun p => p.stagesDone * 65536 + nStages p.image)).getD 0)
  | 0x20 => some (cluster s c).stallShown
  | 0x48 => some (bridgeWord s c)
  | 0x4C => some (cluster s c).flagsAny
  | _ => none

/-- IN_WAIT and OUT_WAIT of an iron (R93). -/
def portWaits (s : State) (c : Nat) (x : Iron) : Nat :=
  match (cluster s c).plan.bind (planOf s), x.stage with
  | some p, some k => let w := stagesWaiting s p
                      256 * inWaits p w k.1 + 4096 * outWaits p w k.1
  | _, _ => 0

/-- The iron registers that hardware sets. -/
def readIron (s : State) (c i o : Nat) : Option Nat :=
  let x := iron s (24 * c + i)
  match o with
  | 0x00 => some ((if (cluster s c).st = .off then 0 else x.st.code) + 256 * b2n (16 ≤ i && s.su.hlcActive))
  | 0x04 => some (match x.stage with
      | some k => 2 ^ 31 + 65536 * k.2 + k.1
      | none => 0)
  | 0x08 => some x.flags
  | 0x0C => some x.beat
  | 0x10 => some x.beats
  | 0x14 => some (x.inBound + 16 * x.outBound + portWaits s c x)
  | _ => none

/-- The PRESS block. -/
def readPress (s : State) (off : Nat) : Option Nat :=
  let c := (off - 0x10000000) / 0x1000000
  let o := off % 0x1000000
  if o < 0x10000 then readCluster s c o
  else match ix 0x10000 0x100 24 (o / 0x100 * 0x100) with
    | some i => readIron s c i (o % 0x100)
    | none => none

/-! CHIP and BUDGET (01, 11, 16) -/

/-- The CHIP block. -/
def readChip (s : State) (off : Nat) : Option Nat :=
  match off with
  | 0x10 => some (trayStateWord s).toNat
  | 0x14 => some (degradeCause s)
  | 0x24 => some s.chip.islands.toNat
  | 0x28 => some (clkStatusWord s).toNat
  | 0x2C => some (supStatusWord s).toNat
  | 0x1000 => some (bgLinesWord s).toNat
  | 0x1004 => some (thrCauseWord s).toNat
  | 0x1030 => some s.budget.capShown
  | 0x1034 => some s.budget.floorShown
  | 0x1038 => some s.budget.reserve.floor.toNat
  | _ => (ix 0x1100 4 9 off).map (fun i => thW s i / 100)

/-! AON (14) -/

/-- A starch limit: the manufacture value and the effective one. -/
def starchWord (otp eff : Nat) : Nat := otp * 65536 + eff

/-- PEND_ACT. -/
def pendActWord (s : State) : Nat :=
  match s.aon.pendAct with
  | some a => 2 ^ 31 + 65536 * a.slot + a.mask
  | none => 0

/-- The AON block. -/
def readAon (s : State) (off : Nat) : Option Nat :=
  match off % 0x1000000 with
  | 0x00 => some s.aon.coreDown.toNat
  | 0x04 => some s.aon.coreHeld.toNat
  | 0x10 => some (emergLatches s)
  | 0x14 => some (pendActWord s)
  | 0x18 => some (loWord s.aon.optime)
  | 0x1C => some (hiWord s.aon.optime % 65536)
  | 0x20 => some s.aon.powerCycles
  | 0x30 => some (starchWord 900 s.aon.vcoreEff)
  | 0x34 => some (starchWord 1600 s.aon.iclkEff)
  | 0x38 => some (starchWord 120 s.aon.tjEff)
  | 0x3C => some (min 0xFFFF s.aon.clamps * 65536 + s.aon.setMv % 1024)
  | o =>
    match ix 0x80 4 11 o with
    | some k => some (coreInfoWord s k).toNat
    | none => (ix 0xC0 4 11 o).map (fun k => svnFloor s (coreClass k))

/-! STITCH (09) -/

/-- RAIL_STATE. -/
def railWord (s : State) (r : Nat) : Nat :=
  let x := rail s r
  let j := s.st.journal.findIdx (fun q => q == r)
  x.st.code + (if x.st = .failed then 256 * x.cause else 0) + 4096 * b2n x.pg + 8192 * b2n (railBlocked s r)
    + 65536 * (if j < s.st.journal.length then j else 0) + 2 ^ 24 * ((x.margin % 256).toNat)

/-- STRAND. -/
def strandWord (s : State) (n : Nat) : Nat :=
  let t := strand s n
  t.pc % 4096 + 4096 * t.run + 16384 * b2n t.c + 65536 * min 0xFFFF t.exec

/-- The STITCH block. -/
def readStitch (s : State) (off : Nat) : Option Nat :=
  match off % 0x1000000 with
  | 0x00 => some (stPhase s + 65536 * bitsOf 16 (fun n => (strand s n).run != 0))
  | 0x08 => some (if progValid s then 2 ^ 31 + nStitch s.st.image else 0)
  | 0x10 => some s.st.signals.toNat
  | 0x14 => some (rdN s R.ST_FAULT ||| 8 * b2n s.st.hswLatch)
  | 0x18 => some (failHead s)
  | 0x1C => some (s.st.journal.length + 65536 * s.st.stbyMark)
  | o =>
    if o < 0x80 then (ix 0x40 4 16 o).map (strandWord s)
    else if o < 0x800 then (ix 0x100 4 256 o).map (railWord s)
    else if o < 0x900 then (ix 0x800 4 64 o).map (fun w => leNat ((List.range 4).map (fun k => BitVec.ofNat 8 (s.st.journal.getD (4 * w + k) 0))))
    else if o < 0x3000 then (ix 0x1000 4 2048 o).map (fun w => wordAt s.st.image (16 + w))
    else (ix 0x4000 4 8192 o).map (fun w => if w % 2 = 0 then loWord (stitchAt s.st.image (w / 2)) else hiWord (stitchAt s.st.image (w / 2)))

/-! METER (10) -/

/-- An attojoule account in nJ, rounded towards minus infinity, modulo 2^64 (R326). -/
def nanoJ (x : Int) : Nat := (x / 1000000000 % 2 ^ 64).toNat

/-- The 64-bit value whose low and high words stand at a pair of METER registers, by the offset of the low word. -/
def meterPair (s : State) (lo : Nat) : Option Nat :=
  match lo with
  | 0x18 => some (taiNow s)
  | 0x50 => some s.meter.seq
  | 0x58 => some s.meter.batch
  | 0x60 => some (nanoJ s.meter.idle)
  | 0x68 => some (nanoJ s.meter.unticketed)
  | _ => (ix 0x4010 0x20 256 lo).map (fun r => nanoJ (s.meter.acc.get 0 r))

/-- TK_STORE. -/
def tkStoreWord (s : State) : Nat :=
  storeUsed s + 2 ^ 30 * b2n (!coreUp 0 s && (unsigned s).isSome) + 2 ^ 31 * b2n (262144 ≤ storeUsed s)

/-- The METER block; a high word reads what the read of its low word latched, where that has not been read yet (R345). -/
def readMeter (s : State) (off : Nat) : Option Nat :=
  let o := off % 0x1000000
  match meterPair s o with
  | some v => some (loWord v)
  | none =>
    match meterPair s (o - 4) with
    | some v => some (((s.meter.latch.get none (off - 4)).map BitVec.toNat).getD (hiWord v))
    | none =>
      match o with
      | 0x04 => some (b2n s.meter.sweep.isSome + 65536 * s.meter.dacBad.toNat)
      | 0x08 => some (calId s)
      | 0x14 => some (timeStateWord s).toNat
      | 0x48 => some s.meter.opens.length
      | 0x4C => some (tkStoreWord s)
      | _ => (ix 0x8000 4 1024 o).map (fun w => if w % 2 = 0 then (coefOf s (w / 2)).1.toNat else (coefOf s (w / 2)).2.toNat)

/-- Reading a low word latches its high partner; reading the high word uses that up (R345). -/
def meterLatch (off : Nat) (s : State) : State :=
  if off / 0x1000000 ≠ 3 then s
  else match meterPair s (off % 0x1000000) with
    | some v => { s with meter.latch := SMap.set none s.meter.latch off (some (BitVec.ofNat 32 (hiWord v))) }
    | none => { s with meter.latch := SMap.set none s.meter.latch (off - 4) none }

/-! COOL and LEAK (12) -/

/-- TH_STATE. -/
def thStateWord (s : State) : Nat :=
  bitsOf 16 (fun z => decide (thrEff s ≤ zoneActs s z)) + 65536 * s.heat.voting.toNat

/-- CO_STATUS. -/
def coStatusWord (s : State) : Nat :=
  b2n (coolFull s) + 2 * b2n s.heat.wdgFired + 4 * b2n ((List.range 8).any (loopLow s))
    + 8 * b2n ((List.range 40).any (chFailing s))

/-- The COOL block. -/
def readCool (s : State) (off : Nat) : Option Nat :=
  match off % 0x1000000 with
  | 0x04 => some (thStateWord s)
  | 0x08 => some (tripC s + 256 * 130 + 65536 * b2n s.heat.coolSince.isSome + 2 ^ 24 * s.heat.zoneLast)
  | 0x0C => some (field16 (headroom8 s))
  | 0x1000 => some (coStatusWord s)
  | o =>
    if o < 0x40 then (ix 0x10 4 3 o).map (fun w => bitsOf 32 (fun b => (ro s (32 * w + b)).cause != 0))
    else if o < 0x100 then (ix 0x40 4 16 o).map (fun z => 65536 * (healthy s z).length + field16 (zoneT s z))
    else if o < 0x300 then (ix 0x100 4 96 o).map (fun n => (roWord s n).toNat)
    else if o < 0x340 then (ix 0x300 4 16 o).map (fun d => (sensWord (diodeRead s d) (s.heat.diodes.get {} d).fault).toNat)
    else if o < 0x380 then none
    else (ix 0x380 4 32 o).map (fun t => (sensWord (thermRead s t) (s.heat.therms.get {} t).fault).toNat)

/-- A zone is in warn-and-throttle only. -/
def zoneWarns (s : State) (z : Nat) : Bool := zoneRelaxed s z && !zoneActive s z

/-- Loops of a class, from loop b on. -/
def loopBits (s : State) (c : LeakClass) (b n : Nat) : Nat := bitsOf n (fun l => (leakLoop s (b + l)).cls == c)

/-- The LEAK block. -/
def readLeak (s : State) (off : Nat) : Option Nat :=
  match off % 0x1000000 with
  | 0x00 => some (bitsOf 16 (zoneActive s) + 65536 * bitsOf 16 (zoneWarns s))
  | 0x08 => some (loopBits s .leak 0 32)
  | 0x0C => some (loopBits s .leak 32 16)
  | 0x10 => some (loopBits s .lost 0 32)
  | 0x14 => some (loopBits s .lost 32 16)
  | o => (ix 0x200 4 48 o).map (fun l => (leakMeas s l).toNat)

/-! SEC, FWALL and EVREC (14, 15) -/

/-- Authorising key k. -/
def authKey (s : State) (k : Nat) : Option AuthKey := s.sec.keys[k]?

/-- The four registers of authorising key k. -/
def authWord (s : State) (k w : Nat) : Nat :=
  match authKey s k with
  | none => 0
  | some a =>
    match w with
    | 0 => loWord (keyRef a.pub)
    | 1 => hiWord (keyRef a.pub)
    | 2 => 2 ^ 31 + a.roles
    | _ => lastSeq s (keyRef a.pub)

/-- The SEC block. -/
def readSec (s : State) (off : Nat) : Option Nat :=
  match off % 0x1000000 with
  | 0x00 => some (s.sec.state + 256 * b2n (s.sec.lock == 0x7FF) + 512 * b2n s.sec.debugUnlocked)
  | 0x04 => some s.sec.lock.toNat
  | 0x08 => some s.sec.epoch
  | 0x0C => some s.sec.keys.length
  | 0x48 => some s.sec.err
  | o =>
    if o < 0x30 then (ix 0x10 4 8 o).map (wordAt s.sec.challenge)
    else if o < 0x40 then (ix 0x30 4 4 o).map (wordAt Config.serialNumber)
    else (ix 0x100 4 64 o).map (fun w => authWord s (w / 4) (w % 4))

/-- The FWALL block. -/
def readFwall (s : State) (off : Nat) : Option Nat :=
  match off % 0x1000000 with
  | 0x00 => some (loWord s.sec.pinned.toNat)
  | 0x04 => some (hiWord s.sec.pinned.toNat)
  | _ => none

/-- The EVREC block. -/
def readEvrec (s : State) (off : Nat) : Option Nat :=
  match off % 0x1000000 with
  | 0x04 => some (evStateWord s).toNat
  | 0x08 => some s.rcd.seq
  | 0x0C => some s.rcd.keep.length
  | 0x10 => some (tumbleFirst s)
  | 0x14 => some (tumblePages s)
  | 0x18 => some s.rcd.clearCount
  | 0x40 => some (cfgStateWord s).toNat
  | 0x44 => some (activeGen s)
  | 0x48 => some (slotGen s 0)
  | 0x4C => some (slotGen s 1)
  | 0x50 => some (loWord s.cfg.ownerRef)
  | 0x54 => some (hiWord s.cfg.ownerRef)
  | _ => none

/-! MBX and SUORTA (08) -/

/-- The code of a mailbox state (R266). -/
def MbState.code (m : MbState) : Nat :=
  match m with
  | .idle => 0
  | .submitted => 1
  | .executing => 2
  | .replied => 3

/-- The MBX block. -/
def readMbx (s : State) (off : Nat) : Option Nat :=
  let o := off % 0x1000000
  let m := mbox s (o / 0x40)
  if o < 0x400 then
    match o % 0x40 with
    | 0x04 => some (m.st.code + 16 * m.source + 256 * b2n (mbCoreDown s (o / 0x40)))
    | 0x0C => some (m.minor + 256 * m.major)
    | _ => none
  else if o = 0x800 then some (bitsOf 16 (fun n => (mbox s n).st == .replied))
  else if o = 0x804 then some (bitsOf 16 (mbCoreDown s))
  else if o = 0x808 then some Config.mctpIana.toNat
  else none

/-- The SUORTA block. -/
def readSuorta (s : State) (off : Nat) : Option Nat :=
  match off % 0x1000000 with
  | 0x04 => some (s.su.st.code + 65536 * s.su.lanes)
  | 0x0C => some (rdN s R.SU_HLC ||| 2 ^ 30 * b2n s.su.hlcActive)
  | 0x20 => some (bitsOf 9 (fun k => (s.su.pend.get none k).isSome))
  | o => (ix 0xC0 4 6 o).map (fun c => s.su.credit.get 0 c)

/-! GHEP and MEM (06, 07) -/

/-- The port blocks and the torus registers. -/
def readGhep (s : State) (off : Nat) : Option Nat :=
  let k := (off - 0x30000000) / 0x100000
  let p := port s k
  match off % 0x100000 with
  | 0x04 => some (p.st.code + 256 * p.lanes + 65536 * b2n p.farLoop)
  | o =>
    if o < 0x80000 then (ix 0x60 4 8 o).map (fun v => p.credit.get 0 v)
    else if k = 8 then
      (ix 0x81000 4 128 o).map (fun w => bitsOf 32 (fun b => !linkUp s (32 * w + b) || 2 * sizeX s * sizeY s ≤ 32 * w + b))
    else none

/-- STK_STATUS: TMAX_C in whole degrees, rounded down. -/
def stkWord (s : State) (q : Nat) : Nat :=
  let k := stack s q
  k.tries % 4 + 256 * k.band + 2 ^ 20 * k.hotDie + 2 ^ 24 * ((k.tmax / 10) % 256).toNat

/-- The MEM block. -/
def readMem (s : State) (off : Nat) : Option Nat := (ix 0x20000100 0x40 4 off).map (stkWord s)

/-! ASSURE (05) -/

/-- AS_STATUS. -/
def asStatusWord (s : State) : Nat :=
  b2n s.assure.delegated + 2 * b2n s.assure.selfTag + 4 * b2n s.assure.seed.isSome
    + 8 * b2n (s.assure.registry.any entStale) + 16 * b2n (s.assure.caps.any (fun c => c.evidWait))
    + 32 * b2n s.assure.libFull

/-- Open capsules of this tray's accelerators, of a mode (R188). -/
def openCount (s : State) (m : Nat) : Nat :=
  (s.assure.caps.filter (fun c => c.mode == m && c.st != .done && decide (c.src.code < 8))).length

/-- The verdict record of an entry of VLOG. -/
def vlogAt (s : State) (e : Nat) : Bytes :=
  (s.assure.vlog.find? (fun r => (leAt r 0 8 + 63) % 64 == e)).getD []

/-- The ASSURE block. -/
def readAssure (s : State) (off : Nat) : Option Nat :=
  match off % 0x1000000 with
  | 0x04 => some (asStatusWord s)
  | 0x08 => some (loWord (s.assure.seed.getD 0))
  | 0x0C => some (hiWord (s.assure.seed.getD 0))
  | 0x20 => some (s.assure.accTag.toNat + 256 * b2n s.assure.selfTag)
  | 0x24 => some (min 255 (selfCount s))
  | 0x28 => some (loWord s.assure.vseq)
  | 0x2C => some (openCount s 0 + 65536 * openCount s 1)
  | 0x38 => some s.assure.darns.length
  | o => (ix 0x1000 4 8192 o).map (fun w => wordAt (vlogAt s (w / 128)) (w % 128))

/-! The register space -/

/-- What hardware sets of the word at an offset. -/
def hwWord (s : State) (off : Nat) : Option Nat :=
  match off / 0x1000000 with
  | 0x00 => readChip s off
  | 0x01 => readAon s off
  | 0x02 => readStitch s off
  | 0x03 => readMeter s off
  | 0x04 => readCool s off
  | 0x05 => readLeak s off
  | 0x07 => readEvrec s off
  | 0x08 => readMbx s off
  | 0x09 => readSec s off
  | 0x0A => readFwall s off
  | 0x0B => readAssure s off
  | 0x20 => readMem s off
  | 0x30 => readGhep s off
  | 0x38 => readSuorta s off
  | b => if 0x10 ≤ b && b < 0x18 then readPress s off else none

/-- Register buffers that lie in the block of a port's mailbox: request and reply buffers (R284). -/
def mbBuffer (off : Nat) : Option (Nat × Bool × Nat) :=
  if 0x08100000 ≤ off && off < 0x08300000 then
    let d := off - 0x08100000
    some (d / 0x20000, 0x10000 ≤ d % 0x20000, d % 0x10000)
  else none

/-- The word of a named register, without its reserved bits. -/
def shownWord (s : State) (off : Nat) : W32 :=
  match hwWord s off with
  | some v => BitVec.ofNat 32 v
  | none => rd s off

/-- The word that a read of register space gives: a write-only register reads as zero, reserved bits are not stated (R4),
an offset that names no register reads as zero (R30). -/
def readWord32 (s : State) (off : Nat) : W32 :=
  match mbBuffer off with
  | some (n, rep, o) => BitVec.ofNat 32 (leNat (bufRead s n rep o 4))
  | none =>
    match regRow off with
    | none => 0
    | some r =>
      if r.acc = .wo then 0
      else (shownWord s off &&& ~~~(BitVec.ofNat 32 r.rsv)) ||| (Config.reservedBits off s.fresh &&& BitVec.ofNat 32 r.rsv)

/-- A read of one register word, with what the read itself does. -/
def readReg (s : State) (off : Nat) : W32 × State := (readWord32 s off, meterLatch off (takeFresh s))

end Sys2Proof.Machine
end

