-- ==== Sys2Proof/Machine/RegWrite.lean ====
section
/-! DEFINITION. What a write of register space does (R8, R30, R31 and the register maps of the chapters): access codes,
the SEC lock, the masters that a block admits, and the registers whose writing has an effect of its own.
Log entries coded here: 14 (DESIGN CHOICE), 15 (DESIGN CHOICE), 16 (DESIGN CHOICE), 17 (DEDUCED), 18 (DESIGN CHOICE),
19 (DEDUCED), 126 (DEDUCED), 138 (DEDUCED), 215 (DEDUCED). -/

namespace Sys2Proof.Machine

/-- Bit of SEC_LOCK that locks the RWL registers of a block (R461). -/
def lockBit (off : Nat) : Nat :=
  match off / 0x1000000 with
  | 0x00 => 0
  | 0x02 => 1
  | 0x03 => 2
  | 0x04 => 3
  | 0x05 => 4
  | 0x06 => 5
  | 0x07 => 6
  | 0x38 => 8
  | 0x0B => 9
  | 0x0A => 10
  | _ => 7

/-- A locked register: RWL, its block's lock set, written by a master that the lock binds (R8, R461). -/
def regLocked (s : State) (r : RegRow) (bound : Bool) (off : Nat) : Bool :=
  bound && r.acc == .rwl && s.sec.lock.getLsbD (lockBit off)

/-- The masters that a block's registers may be written by (R110, R188, R213, R247, R283, R318, R345, R370, R402, R403,
R423, R460 to R462, R493); a write by another one is ignored. -/
def blockWriter (m off : Nat) : Bool :=
  match off / 0x1000000 with
  | 0x00 => off < 0x1000 || m ≤ 2
  | 0x01 => m == 0 || (off == R.CORE_KICK && m ≤ 10)
  | 0x02 => m ≤ 1 || (m == 2 && off == R.ST_GROUP_BLOCK)
  | 0x03 | 0x04 | 0x05 | 0x06 | 0x38 => m ≤ 1
  | 0x07 | 0x09 | 0x0A => m == 0
  | 0x0B => m == 0 || m == 2
  | 0x08 => true
  | b =>
    if 0x10 ≤ b && b < 0x18 then
      !([0x04, 0x08, 0x44].contains (off % 0x1000000)) || m == 1 || m == 2 || m == 3 + (b - 0x10)
    else m ≤ 2

/-- The word that a write leaves, by access code (R8). -/
def written (r : RegRow) (old v : W32) : W32 :=
  let w := BitVec.ofNat 32 r.wmask
  match r.acc with
  | .rw => (old &&& ~~~w) ||| (v &&& w)
  | .rwl => (old &&& ~~~w) ||| (v &&& w)
  | .w1c => old &&& ~~~(v &&& w)
  | .ro => old
  | .wo => old

/-- The register word after a write without an effect of its own. -/
def storeReg (r : RegRow) (off : Nat) (v : W32) (s : State) : State := wr off (written r (rd s off) v) s

/-! Registers with an effect -/

/-- CORE_KICK: each core's own bit; the security core may kick any (R425, R460). -/
def kickCores (m : Nat) (v : W32) (s : State) : State :=
  (List.range 11).foldl (fun a k =>
    if bitAt v k && (m = 0 || m = k) then setCore k (fun c => { c with kick := now a }) a else a) s

/-- PORT_CTRL or SU_CTRL: MODE is stored, EN acts where it changes, RETRAIN acts on an UP link (R218, R225, R251). -/
def linkCtrl (k : Nat) (r : RegRow) (v : W32) (s : State) : State :=
  let off := ctrlReg k
  let s1 := storeReg r off ((v &&& ~~~1#32) ||| (rd s off &&& 1#32)) s
  let s2 := if bitAt v 0 = rdBit s off 0 then s1 else if bitAt v 0 then fxPortEnable k s1 else fxPortDisable k s1
  if bitAt v 1 && linkSt k s2 = .up then fxRetrain k s2 else s2

/-- A plan holds SRAM of the upper 1 MiB of an iron 16 to 23: its stage there needs it, or scratch lies there (R83, R141). -/
def Plan.upperSram (p : Plan) : Bool :=
  p.place.any (fun x => 16 ≤ x.2 % 24 && 0x200000 < posNeed p.image p.place x.2)
    || p.parts.any (fun q => q.level == 1 && 16 ≤ (q.addr - sramBase) / 0x300000 % 24
        && 0x200000 < (q.addr - sramBase) % 0x300000 + q.len)

/-- Plans that hold the upper SRAM when the host-line cache is enabled: the enable waits for them (R146, R259). -/
def hlcHoldersNow (s : State) : List Nat := (s.press.plans.filter Plan.upperSram).map (fun p => p.id)

/-- SU_HLC: EN (R259). -/
def hlcWrite (v : W32) (s : State) : State :=
  if bitAt v 31 = rdBit s R.SU_HLC 31 then s
  else if bitAt v 31 then hlcEnable (hlcHoldersNow s) s else hlcDisable s

/-- CL_CTRL: of several bits only the highest acts (R104, R106, R111). -/
def clCtrl (c : Nat) (v : W32) (s : State) : State :=
  let k := cluster s c
  if bitAt v 3 then k.plan.elim s (fun id => fxAbort id s)
  else if bitAt v 2 then (if k.st = .idle || k.st = .suspended then startSelftest c s else s)
  else if bitAt v 1 then fxResume c s
  else if bitAt v 0 then suspendCluster c s
  else s

/-- TW_XFER: GO queues a transaction unless one is BUSY; a write without GO only stores its fields (R405, R423). -/
def twXfer (n : Nat) (r : RegRow) (v : W32) (s : State) : State :=
  if bitAt v 31 then (if rdBit s (R.TW_XSTAT n) 31 then s else fxGo n v s) else storeReg r (R.TW_XFER n) v s

/-- TW_STEST: GO runs a self-test of an IDLE port (R421); its result depends on the bus, and is a free value. -/
def twStest (n : Nat) (v : W32) (s : State) : State :=
  if bitAt v 0 && twState n s = 1 then fxSelfTest n (Config.unstated 421 s.fresh % 2 == 1) (takeFresh s) else s

/-- Registers of the CHIP, AON, STITCH, COOL, MBX and ASSURE blocks with an effect of their own. -/
def effectLow (m off : Nat) (v : W32) (s : State) : Option State :=
  if off = R.CORE_KICK then some (kickCores m v s)
  else if off = R.ST_GROUP_BLOCK then some (fxGroupBlock v s)
  else if off = R.WDG_CTRL then some (fxWdgWrite v s)
  else (ix (R.MB_CTRL 0) 0x40 16 off).map (fun n => mbCtrl m n v s)

/-- Registers of the TW block with an effect of their own. -/
def effectTw (r : RegRow) (off : Nat) (v : W32) (s : State) : Option State :=
  if off / 0x1000000 ≠ 6 then none
  else
    let n := off % 0x1000000 / 0x10000
    if off = R.TW_CTRL n then some (fxTwCtrl n v s)
    else if off = R.TW_XFER n then some (twXfer n r v s)
    else if off = R.TW_STEST n then some (twStest n v s)
    else none

/-- Registers of the PRESS, MEM, GHEP and SUORTA blocks with an effect of their own. -/
def effectHigh (r : RegRow) (off : Nat) (v : W32) (s : State) : Option State :=
  if off = R.SCRUB_CTRL then some (fxScrubPeriod v s)
  else if off = R.ROUTE_CTRL then some (fxRouteCtrl v s)
  else if off = R.SU_CTRL then some (linkCtrl 12 r v s)
  else if off = R.SU_HLC then some (hlcWrite v s)
  else match ix (R.PORT_CTRL 0) 0x100000 12 off with
    | some k => some (linkCtrl k r v s)
    | none =>
      match ix (R.CL_CTRL 0) 0x1000000 8 off with
      | some c => some (clCtrl c v s)
      | none => (ix (R.BRIDGE_CTRL 0) 0x1000000 8 off).map (fun c => fxBridgeCtrl c v s)

/-- What follows from a stored word: an identity is checked and may release the seams (R32), an area is checked (R189),
and outputs follow the cooling registers. -/
def afterStore (off : Nat) (s : State) : State :=
  if off = R.NODE_ID || off = R.TORUS_DIM then releaseSeams (identityEvent s)
  else if off = R.EVID_AREA || off = R.LIB_AREA then areaEvent s off
  else if off / 0x1000000 = 4 then setOutputs s
  else s

/-- The effect of writing a named register. -/
def regEffect (m off : Nat) (r : RegRow) (v : W32) (s : State) : State :=
  match effectLow m off v s with
  | some t => t
  | none =>
    match effectTw r off v s with
    | some t => t
    | none =>
      match effectHigh r off v s with
      | some t => t
      | none => afterStore off (storeReg r off v s)

/-- Write a register word: into a mailbox's request buffer, into a named register where the block admits the master and
the lock does not bind it, or nowhere (R30, R266). -/
def writeReg (m : Nat) (bound : Bool) (off : Nat) (v : W32) (s : State) : State :=
  match mbBuffer off with
  | some (n, rep, o) => if rep then s else bufWrite n o (leBytes 4 v.toNat) s
  | none =>
    match regRow off with
    | none => s
    | some r => if blockWriter m off && !regLocked s r bound off then regEffect m off r v s else s

/-- Of a pinned master only the host's accesses to the MBX block, and those of masters never pinned, go on (R454). -/
def pinnedOut (s : State) (m off : Nat) : Bool := isPinned s m && !(m == 35 && off / 0x1000000 == 8)

/-- A 4-byte write of register space by a master (R27, R29 to R31, R452). -/
def fxRegisterWrite (m a : Nat) (v : W32) (s : State) : State :=
  if !fwAdmits s m a 4 true || pinnedOut s m (a - regBase) then refuseAccess m a 4 true s
  else match placeOf s a 4 with
    | .reg off => if regAnswers s off then writeReg m (m != 0) off v s else absentWrite m a s
    | _ => decodeError a s

/-- The master can make an access: the AON island runs, and a core runs. -/
def masterRuns (s : State) (m : Nat) : Bool := aonRuns s && (10 < m || coreUp m s)

def execRegisterWrite (master : Fin 37) (addr : Nat) (value : W32) (s : State) : Host.Outcome State Fault Refusal :=
  done (if masterRuns s master && within addr 4 regBase 0x100000000 && addr % 4 = 0 then
    fxRegisterWrite master addr value s else s)

end Sys2Proof.Machine
end

