-- ==== Sys2Proof/Machine/Serve.lean ====
section
/-! DEFINITION. Serving the accesses of the partners of ports and of the host (R207, R232, R256, R261, R263), and the
answers that come back to an access of this node.
Log entries coded here: 16 (DESIGN CHOICE), 43 (DEDUCED), 131 (DEDUCED), 132 (DEDUCED), 133 (DESIGN CHOICE), 238
(DESIGN CHOICE), 255 (DESIGN CHOICE). -/

namespace Sys2Proof.Machine

/-! Answers to whoever asked -/

/-- Words of 32 bytes of a slice that hold a poisoned byte of the whole. -/
def poisonIn (bad : List Nat) (o n : Nat) : List Nat :=
  (List.range ((n + 31) / 32)).filter (fun w =>
    bad.contains ((o + 32 * w) / 32) || bad.contains ((o + min (32 * w + 31) (n - 1)) / 32))

/-- POISON of a Suorta frame: one bit per 128 bytes (R252, R263). -/
def poisonGroups (bad : List Nat) : Nat := bitsOf 32 (fun g => bad.any (fun w => w / 4 == g))

/-- Bytes of poisoned words are free values where a consumer has no POISON of its own. -/
def poisonFree (bad : List Nat) (bs : Bytes) (s : State) : Bytes × State :=
  ((List.range bs.length).map (fun i =>
    if bad.contains (i / 32) then BitVec.ofNat 8 (Config.unstated 263 (s.fresh + i)) else bs.getD i 0),
   { s with fresh := s.fresh + bs.length })

/-- Bytes arrive for a Press stage, or for the engines of the scheduler core; a poisoned piece of a stage is to be read once
more (R95, R232). -/
def deliver (c a : Nat) (bs : Bytes) (bad : List Nat) (s : State) : State :=
  if bad.isEmpty then extWrite c a bs s
  else if c < 8 then
    setCl c (fun k => { k with poison := true })
      { extWrite c a bs s with press.poisoned := s.press.poisoned ++ [(c, a, bs.length)] }
  else
    let r := poisonFree bad bs s
    extWrite c a r.1 r.2

/-- RD_DATA: the bytes read, with TAG and ADDR of the request (R232). -/
def dataMsg (dst tag addr : Nat) (bs : Bytes) (bad : List Nat) : Msg :=
  { cls := 6, typ := 2, dst := dst, tag := tag, len := bs.length, hdr := fix 8 (leBytes 6 addr), payload := bs, poison := bad }

/-- WR_ACK. -/
def ackMsg (dst tag : Nat) : Msg := { cls := 6, typ := 4, dst := dst, tag := tag, hdr := zeros 8 }

/-- DATA and ACK frames to the host; a request that a link reset has ended is not answered (R264). -/
def sendData (tag : Nat) (bs : Bytes) (bad : List Nat) (s : State) : State :=
  if !s.su.hostTags.contains tag then s else sendFrame { ch := 2, op := 0x31, tag := tag, len := bs.length, poison := poisonGroups bad, data := bs }
    { s with su.hostTags := s.su.hostTags.erase tag }
def sendAck (tag : Nat) (s : State) : State :=
  if !s.su.hostTags.contains tag then s else sendFrame { ch := 2, op := 0x32, tag := tag } { s with su.hostTags := s.su.hostTags.erase tag }

/-- Bytes that were read from device address `base` on reach whoever asked for them. -/
def answerData (o : Owner) (base : Nat) (bs : Bytes) (bad : List Nat) (s : State) : State :=
  match o with
  | .press c a => deliver c a bs bad s
  | .served k src tag addr n => respond k (dataMsg src tag addr (slice bs (addr - base) n) (poisonIn bad (addr - base) n)) s
  | .host tag addr n => sendData tag (slice bs (addr - base) n) (poisonIn bad (addr - base) n) s
  | .mem _ => s
  | .plain => s

/-- A write has been performed. -/
def answerAck (o : Owner) (s : State) : State :=
  match o with
  | .served k src tag _ _ => respond k (ackMsg src tag) s
  | .host tag _ _ => sendAck tag s
  | _ => s

/-- An access of this node was refused: a LOAD or STORE ends its plan with FAULT (R107); what the engines of the scheduler
core then hold is not stated; whoever asked is told. -/
def accessFails (o : Owner) (n status : Nat) (s : State) : State :=
  match o with
  | .press c a =>
    if c < 8 then
      match (cluster s c).plan with
      | some id => endPlan id .fault 0 (latchFault c 7 6 0xFF s)
      | none => s
    else
      let r := poisonFree (List.range ((n + 31) / 32)) (zeros n) s
      extWrite 8 a r.1 r.2
  | .mem m => writeError m s
  | _ => answerErr o status s

/-- The master that an access was made for, where its firewall index tells the reader of UE_LOG. -/
def Owner.master (o : Owner) : Nat :=
  match o with
  | .press c _ => if c < 8 then 15 + c else 2
  | .served k _ _ _ _ => 23 + k
  | .host _ _ _ => 35
  | .mem m => m
  | .plain => 2

/-- Tray DRAM is read for whoever asked, its words checked (R201). -/
def answerLoad (o : Owner) (base d n : Nat) (s : State) : State :=
  let r := dramLoad (readerCode o.master) d n s
  answerData o base (dramRead r.1 d n) r.2 r.1

/-- Tray DRAM is written for whoever asked: a write refused in part is answered with an error, ERR status 5 on a port (R202, R232). -/
def answerStore (o : Owner) (d : Nat) (bs : Bytes) (s : State) : State :=
  let t := dramWrite d bs s
  if dramHurt t d bs.length then accessFails o bs.length 5 t else answerAck o t

/-! Register space -/

/-- Length and alignment of a register-space access: 4-byte words, at most 64 bytes, and 4,096 in the mailbox buffers
(R256). -/
def regShapeOk (off n : Nat) : Bool :=
  off % 4 == 0 && n % 4 == 0 && n != 0 && n ≤ (if (mbBuffer off).isSome then 4096 else 64)

/-- Read words. -/
def fetchWords (k off : Nat) (s : State) : Bytes × State :=
  match k with
  | 0 => ([], s)
  | m + 1 =>
    let r := readReg s off
    let t := fetchWords m (off + 4) r.2
    (leBytes 4 r.1.toNat ++ t.1, t.2)

/-- Write words. -/
def storeWords (m off : Nat) (bs : Bytes) (k : Nat) (s : State) : State :=
  match k with
  | 0 => s
  | j + 1 => storeWords m (off + 4) (bs.drop 4) j (writeReg m (m != 0) off (BitVec.ofNat 32 (leAt bs 0 4)) s)

/-! Serving an access -/

/-- The SRAM that an offset lies in has its supply. -/
def sramOn (s : State) (off : Nat) : Bool := (cluster s (off / 0x300000 / 24)).st != .off

/-- Bytes of iron SRAM. -/
def sramRead (s : State) (off n : Nat) : Bytes := (List.range n).map (fun i => s.press.sram.get 0 (off + i))

/-- Refuse an access with ABSENT or DECODE (R17, R29, R31, R209). -/
def serveAbsent (o : Owner) (a : Nat) (s : State) : State := answerErr o 2 (absentError a s)
def discard (m : Nat) (o : Owner) (a : Nat) (s : State) : State := answerErr o 2 (absentWrite m a s)
def serveDecode (o : Owner) (a : Nat) (s : State) : State := answerErr o 1 (decodeError a s)

/-- A read of tray DRAM; `claims`: the host-cacheable range is claimed first (R261). -/
def serveDramRead (claims : Bool) (o : Owner) (a d n : Nat) (s : State) : State :=
  if !dramOpen s then serveAbsent o a s
  else if claims && inHcr s d n then hostRequest Op.CLAIM_S d n [] o s
  else answerLoad o a d n s

/-- A write of tray DRAM. -/
def serveDramWrite (claims : Bool) (m : Nat) (o : Owner) (a d : Nat) (bs : Bytes) (s : State) : State :=
  if !dramOpen s then discard m o a s
  else if claims && inHcr s d bs.length then hostRequest Op.CLAIM_E d bs.length bs o s
  else answerStore o d bs s

/-- A read of n bytes at a by a master whose firewall windows admit it. -/
def serveRead (claims : Bool) (o : Owner) (a n : Nat) (s : State) : State :=
  match placeOf s a n with
  | .dram d => serveDramRead claims o a d n s
  | .host off =>
    match hostRead off n (fun _ => o) s with
    | (t, some bs) => answerData o a bs [] t
    | (t, none) => t
  | .sram off => if sramOn s off then answerData o a (sramRead s off n) [] s else serveAbsent o a s
  | .reg off =>
    if !regShapeOk off n then serveDecode o a s
    else if !regAnswers s off then serveAbsent o a s
    else
      let r := fetchWords (n / 4) off s
      answerData o a r.1 [] r.2
  | .peer node off => issueRemote 8 false node 0 off n [] o s
  | _ => serveDecode o a s

/-- A write by master m whose firewall windows admit it. -/
def serveWrite (claims : Bool) (m : Nat) (o : Owner) (a : Nat) (bs : Bytes) (s : State) : State :=
  match placeOf s a bs.length with
  | .dram d => serveDramWrite claims m o a d bs s
  | .host off => hostWrite off bs o s
  | .sram off =>
    if sramOn s off then answerAck o { s with press.sram := writeMap s.press.sram off bs } else discard m o a s
  | .reg off =>
    if !regShapeOk off bs.length then serveDecode o a s
    else if !regAnswers s off then discard m o a s
    else answerAck o (storeWords m off bs (bs.length / 4) s)
  | .peer node off => issueRemote 8 true node 0 off bs.length bs o s
  | _ => serveDecode o a s

/-! Images that orders name by address -/

/-- Read a range of the host window for an order: what the host-line cache holds, and of the rest `image`, what the host returns for
the RD_S and RD_NC frames that go out (R258). -/
def hostImage (off len : Nat) (image : Bytes) (s : State) : State × Bytes :=
  (piecesOf off len).foldl (fun r q =>
    match hostRead q.1 q.2 (fun _ => .plain) r.1 with
    | (t, some bs) => (t, r.2 ++ bs)
    | (t, none) => (t, r.2 ++ fix q.2 (image.drop (q.1 - off)))) (s, [])

/-- Claim a range of the host-cacheable range for a read, in pieces of a frame (R261). -/
def claimRead (d len : Nat) (s : State) : State :=
  (piecesOf d len).foldl (fun t q => hostRequest Op.CLAIM_S q.1 q.2 [] .plain t) s

/-- The bytes of an image: of tray DRAM as they stand, checked, or after GRANT; of iron SRAM; elsewhere `image`, what the reads that
go out return. None: nothing answers there. -/
def fetchImage (a len : Nat) (image : Bytes) (s : State) : State × Option Bytes :=
  if localDown s (placeOf s a len) then (absentError a s, none)
  else match placeOf s a len with
  | .dram d =>
    if inHcr s d len then (claimRead d len s, if suOpen s then some (fix len image) else none)
    else
      let r := dramLoad 4 d len s
      let b := poisonFree r.2 (dramRead r.1 d len) r.1
      (b.2, some b.1)
  | .host off =>
    if suOpen s then
      let r := hostImage off len image s
      (r.1, some r.2)
    else (s, none)
  | .sram off => (s, some (sramRead s off len))
  | .peer node off =>
    ((piecesOf off len).foldl (fun t q => issueRemote 8 false node 0 q.1 q.2 [] .plain t) s, some (fix len image))
  | .none => (s, none)
  | _ => (s, some (fix len image))

/-! Accesses over the seams (R207, R208) -/

/-- Inbound range k admits an access of a node. -/
def pinAdmits (s : State) (src a n : Nat) (write : Bool) (k : Nat) : Bool :=
  let b := rdFld s (R.PIN_BASE k) 8 0
  let m := rdFld s (R.PIN_CFG k) 28 20
  rdBit s (R.PIN_CFG k) 31 && rdBit s (R.PIN_CFG k) (if write then 30 else 29) && b + m ≤ 384
    && (rdBit s (R.PIN_CFG k) 11 || rdFld s (R.PIN_CFG k) 10 0 == src) && within a n (b * 2 ^ 30) (m * 2 ^ 30)

/-- A THIRD_REQ is outstanding to a node. -/
def thirdAsked (c : Capsule) (src : Nat) : Bool :=
  match c.req with
  | some (_, node) => node == src
  | none => false

/-- An access lies in the output range that OUT_ADDR of a capsule's THIRD_REQ names. -/
def inOutRange (c : Capsule) (a n : Nat) : Bool :=
  c.outAddr != 0 && c.space.any (fun r => r.1 ≤ c.outAddr && c.outAddr < r.1 + r.2
    && within a n c.outAddr (r.1 + r.2 - c.outAddr))

/-- A node is a seam neighbour. -/
def isNeighbour (s : State) (src : Nat) : Bool := (List.range 4).any (fun k => seamNeighbour s k == src)

/-- A seam's access is accepted (R207). -/
def seamAccepts (s : State) (src a n : Nat) (write : Bool) : Bool :=
  (List.range 8).any (pinAdmits s src a n write)
    || (!write && within a n (areaBase s R.EVID_AREA) (areaSize s R.EVID_AREA)
        && s.assure.caps.any (fun c => thirdAsked c src))
    || (write && s.assure.caps.any (fun c => thirdAsked c src && inOutRange c a n))
    || (!write && rdBit s R.AS_CTRL 3 && isNeighbour s src && within a n (areaBase s R.LIB_AREA) (areaSize s R.LIB_AREA))

/-- The firewall refuses a port's request: DENIED, and the port is pinned (R453, R454). -/
def portDenied (m a n : Nat) (write : Bool) (o : Owner) (s : State) : State := answerErr o 4 (refuseAccess m a n write s)

/-- A request of a port for this node, of length 1 to 4,096 (R207, R232, R454). -/
def servePort (k : Nat) (m : Msg) (write : Bool) (s : State) : State :=
  let a := leAt m.hdr 0 6
  let n := if write then m.payload.length else m.len
  let o : Owner := .served k m.src m.tag a n
  let fw := 23 + k
  if n = 0 || 4096 < n then answerErr o 1 s
  else if !fwAdmits s fw a n write then portDenied fw a n write o s
  else if isPinned s fw then answerErr o 4 s
  else if 8 ≤ k && (dramSize < a + n || !seamAccepts s m.src a n write) then serveDecode o a s
  else if write then
    let r := poisonFree m.poison m.payload s
    if m.poison.isEmpty then serveWrite true fw o a m.payload s else serveWrite true fw o a r.1 r.2
  else serveRead true o a n s

end Sys2Proof.Machine
end

