-- ==== Sys2Proof/Machine/Messages.lean ====
section
/-! DEFINITION. Messages that arrive for this node (07): MEMRD and MEMWR, forwarded messages, orders of peers, and
ACC_STATUS.
Log entries coded here: 108 (DEDUCED), 129 (DEDUCED), 135 (DEDUCED), 187 (DEDUCED). -/

namespace Sys2Proof.Machine

/-- The port carries messages. -/
def portUp (k : Nat) (s : State) : Bool := (port s k).st == .up

/-- The message that header and payload describe, as it stands in the port's inbox, which alone knows POISON. -/
def arrived (k : Nat) (h payload : Bytes) (s : State) : Msg :=
  let m := msgOf h payload
  ((port s k).inbox.find? (fun x => x.cls == m.cls && x.typ == m.typ && x.src == m.src && x.tag == m.tag
    && x.payload == m.payload)).getD m

/-- A message leaves the inbox. -/
def takeMsg (k : Nat) (m : Msg) (s : State) : State := setPort k (fun p => { p with inbox := p.inbox.erase m }) s

/-- A FWD message for the host that the Suorta link cannot take now: without FWD credit, or in RETRAIN, it waits at its port
(R281). -/
def fwdWaits (m : Msg) (s : State) : Bool :=
  m.cls == 7 && m.endpoint == 9 && (m.dst == nodeId s || m.loc) && suOpen s && !frameReady s.su { ch := 4, data := m.payload }

/-- A message of the REQ class is held back at its port: it is a FWD message that waits, or stands behind one (R281). -/
def msgHeld (k : Nat) (m : Msg) (s : State) : Bool :=
  !isRsp m.cls m.typ
    && (fwdWaits m s || ((port s k).inbox.takeWhile (fun x => x != m)).any (fun x => (port s k).inbox.contains m && fwdWaits x s))

/-- Take a message of port k and act on it, unless it is held back. -/
def onMsg (k : Nat) (h payload : Bytes) (fx : Msg → State → State) (s : State) : State :=
  let m := arrived k h payload s
  if msgHeld k m s then s else fx m (takeMsg k m s)

/-! MEMRD and MEMWR (R207, R232, R233) -/

def execRdReq (k : Fin 12) (h payload : Bytes) (s : State) : Host.Outcome State Fault Refusal :=
  done (if portUp k s then onMsg k h payload (fun m t => servePort k m false t) s else s)

def execWrReq (k : Fin 12) (h payload : Bytes) (s : State) : Host.Outcome State Fault Refusal :=
  done (if portUp k s then onMsg k h payload (fun m t => servePort k m true t) s else s)

/-- The access of this node that a response on port k belongs to (R233). -/
def remoteOf (s : State) (k tag : Nat) (write : Bool) : Option Remote :=
  s.torus.remotes.find? (fun r => r.tag == tag && r.write == write && (if k < 8 then r.port == k else 8 ≤ r.port))

/-- An access is over: it makes room for one that waits. -/
def endRemote (r : Remote) (f : State → State) (s : State) : State :=
  let s1 := f { s with torus.remotes := s.torus.remotes.erase r }
  pumpRemotes s1.torus.waiting s1

/-- Device address of the first byte of an answer. -/
def Owner.base (o : Owner) : Nat :=
  match o with
  | .press _ a => a
  | .served _ _ _ a _ => a
  | .host _ a _ => a
  | .mem _ => 0
  | .plain => 0

/-- Data of an access of this node. -/
def fxRdData (k : Nat) (m : Msg) (s : State) : State :=
  match remoteOf s k m.tag false with
  | some r => endRemote r (answerData r.owner r.owner.base m.payload m.poison) s
  | none => s

def execRdData (k : Fin 12) (h payload : Bytes) (s : State) : Host.Outcome State Fault Refusal :=
  done (if portUp k s then onMsg k h payload (fxRdData k) s else s)

/-- A write of this node has been performed. -/
def fxWrAck (k : Nat) (m : Msg) (s : State) : State :=
  match remoteOf s k m.tag true with
  | some r => endRemote r (answerAck r.owner) s
  | none => s

def execWrAck (k : Fin 12) (h payload : Bytes) (s : State) : Host.Outcome State Fault Refusal :=
  done (if portUp k s then onMsg k h payload (fxWrAck k) s else s)

/-- ERR: STATUS 2 and 3 are handled as ABSENT; another ends the access (R107, R233). -/
def failRemote (r : Remote) (status : Nat) (s : State) : State :=
  if status = 2 || status = 3 then remoteAbsent r status s
  else accessFails r.owner r.len status { s with torus.remotes := s.torus.remotes.erase r }

/-- ERR on port k: the access that bears its tag, or a request of the assurance, or a FWD message of this node (R165, R233,
R235). -/
def fxErr (k : Nat) (m : Msg) (s : State) : State :=
  let st := leAt m.payload 0 1
  match (s.torus.remotes.find? (fun r => r.tag == m.tag && (if k < 8 then r.port == k else 8 ≤ r.port))) with
  | some r =>
    let s1 := failRemote r st s
    pumpRemotes s1.torus.waiting s1
  | none =>
    if k < 8 || (st ≠ 2 && st ≠ 3) then s
    else if s.assure.caps.any (fun c => c.reqTag == m.tag && (c.req.isSome || c.sentTo.isSome)) then requestLost m.tag s
    else fwdFails m.tag s

def execErr (k : Fin 12) (h payload : Bytes) (s : State) : Host.Outcome State Fault Refusal :=
  done (if portUp k s then onMsg k h payload (fxErr k) s else s)

/-! Forwarded messages (R235, R281) -/

/-- AUX of a FWD frame (R252). -/
def fwdAux (m : Msg) : Nat := m.dst + 4096 * (m.endpoint % 16) + 65536 * leAt m.hdr 0 1

/-- The FWD frame of a message for the host. -/
def fwdFrame (m : Msg) : Frame :=
  { ch := 4, op := 0x51, tag := m.tag, len := m.payload.length, aux := fwdAux m, data := m.payload }

/-- A FWD message for an endpoint of this node: the host over the Suorta link, an accelerator on its port, the firmware;
or none that can take it. -/
def deliverFwd (m : Msg) (s : State) : Option State :=
  if m.endpoint = 9 then (if suOpen s then some (sendFrame (fwdFrame m) s) else none)
  else if 1 ≤ m.endpoint && m.endpoint ≤ 8 then
    if portUp (m.endpoint - 1) s then some (passAcc (m.endpoint - 1) false m s) else none
  else if m.endpoint = 0 then some s
  else none

/-- A FWD message on port k: delivered here, or carried on where an accelerator names another node; one that cannot be
delivered is answered ERR STATUS 3, and counted (R235, R247). -/
def fxFwd (k : Nat) (m : Msg) (s : State) : State :=
  match (if m.dst = nodeId s || m.loc then deliverFwd m s else sendNode false m s) with
  | some t => if k < 8 then { t with torus.fwds := SMap.set none t.torus.fwds m.tag (some k) } else t
  | none => respond k (errMsg m.src m.tag 3) (bump R.CNT_UNREACH s)

def execFwd (k : Fin 12) (h payload : Bytes) (s : State) : Host.Outcome State Fault Refusal :=
  done (if portUp k s then onMsg k h payload (fxFwd k) s else s)

/-! Orders of peers (R279, R280) -/

/-- ORDER_REPLY. -/
def orderReplyMsg (dst tag : Nat) (bytes : Bytes) : Msg :=
  { cls := 5, typ := 0x11, dst := dst, tag := tag, len := bytes.length, payload := bytes }

/-- An ORDER: denied over an A port; over a seam it goes into MBX14, or is answered BUSY where that is not IDLE. -/
def fxOrder (k : Nat) (m : Msg) (s : State) : State :=
  if k < 8 then sendAcc k true (orderReplyMsg m.src m.tag (replyV3 m.payload St.DENIED_AUTH (detail noDetail 0))) s
  else if (mbox s 14).st = .idle then
    fxSubmit 3 (m.src + 2048 * m.tag) 14 (setMb 14 (fun x => { x with req := m.payload }) s)
  else sendNodeOrCount true (orderReplyMsg m.src m.tag (replyV3 m.payload St.BUSY (detail noDetail 0))) s

def execOrder (k : Fin 12) (h payload : Bytes) (s : State) : Host.Outcome State Fault Refusal :=
  done (if portUp k s then onMsg k h payload (fxOrder k) s else s)

/-- The reply to an order that this node's firmware sent to a peer; nothing in the hardware waits for it. -/
def execOrderReply (k : Fin 12) (h payload : Bytes) (s : State) : Host.Outcome State Fault Refusal :=
  done (if portUp k s then onMsg k h payload (fun _ t => t) s else s)

/-! ACC_STATUS (R174, R234) -/

/-- RUNNING and HOTTEST_C are kept with the time; a drained accelerator without work is powered down. -/
def fxAccStatus (a : Nat) (p : Bytes) (s : State) : State :=
  drainedOff a (setAcc a (fun b => { b with running := leAt p 0 4, hotC := leAt p 6 1, statusAt := some (now s) })
    (takeInbox a 4 2 p s))

def execAccStatus (a : Fin 8) (p : Bytes) (s : State) : Host.Outcome State Fault Refusal :=
  done (if portUp a s then fxAccStatus a p s else s)

end Sys2Proof.Machine
end

