-- ==== Sys2Proof/Machine/HostFrames.lean ====
section
/-! DEFINITION. The Suorta link (08): its frames, the host's requests, coherence, time and forwarded frames.
Log entries coded here: 127 (DEDUCED), 136 (DEDUCED), 141 (DEDUCED), 256 (DEDUCED). -/

namespace Sys2Proof.Machine

/-- The fields of a frame from its header chunk and its data (R252). -/
def frameOf (h data : Bytes) : Frame :=
  { ch := leAt h 0 1 % 8, op := leAt h 1 1, tag := leAt h 8 2 % 4096, len := leAt h 10 2, addr := leAt h 12 6
    attr := leAt h 18 2, poison := leAt h 20 4, aux := leAt h 24 4, data := data }

/-- Header bytes 0 to 27 of a sent frame (R252). -/
def frameHeader (x : Sent Frame) : Bytes :=
  let f := x.item
  leBytes 1 f.ch ++ leBytes 1 f.op ++ leBytes 2 x.seq ++ x.link.bytes ++ leBytes 2 f.tag ++ leBytes 2 f.len ++ leBytes 6 f.addr
    ++ leBytes 2 f.attr ++ leBytes 4 f.poison ++ leBytes 4 f.aux

/-- The data chunks of a frame, the last padded with zero bytes (R252). -/
def Frame.dataChunks (f : Frame) : Bytes := fix (32 * (f.chunks - 1)) f.data

/-- A sent frame on the wire: its header with the CRC over header and data, then its data chunks (R252). -/
def frameBytes (x : Sent Frame) : Bytes :=
  let h := frameHeader x
  h ++ leBytes 4 (crc32c (h ++ x.item.dataChunks)).toNat ++ x.item.dataChunks

/-- The link is UP. -/
def suUp (s : State) : Bool := s.su.st == .up

/-! The link layer (R224, R226, R254, R255) -/

/-- A NAK that names the expected SEQ, once until it arrives. -/
def suNak (s : State) : State :=
  if s.su.nakSent then s
  else sendFrame { ch := 5, op := 0x61, len := 2, data := leBytes 2 s.su.rxSeq } { s with su.nakSent := true }

/-- ACK and the credit return of a frame. -/
def suLinkFields (h : Bytes) (u : Suorta) : Suorta :=
  let ack := leAt h 4 2
  let cr := leAt h 6 1
  let u1 := if ack.testBit 15 then { u with retry := ackSent (ack % 4096) u.retry } else u
  if cr.testBit 7 then { u1 with credit := SMap.upd 0 u1.credit (cr % 8) (fun c => min 0xFFFF (c + leAt h 7 1)) } else u1

/-- The host's NAK: replayed from the named SEQ on; the eighth replay of one frame leads to RETRAIN with REPLAY_LIMIT. -/
def suTakeNak (seq : Nat) (s : State) : State :=
  let replayed := replayFrom seq s.su.txSeq s.su.retry
  let s1 := bump R.SU_CNT_REPLAY { s with su.retry := replayed }
  if replayed.any (fun x => 8 ≤ x.replays) then fxRetrain 12 (setBits R.SU_ERR 4 s1) else s1

/-- An ERR frame ends a request of the TAL8: 2 and 3 as ABSENT, another as a refused access (R107, R233, R253). -/
def suTakeErr (f : Frame) (s : State) : State :=
  match s.su.reqs.find? (fun r => r.tag == f.tag) with
  | some r =>
    let s0 := { s with su.reqs := s.su.reqs.erase r }
    -- the fill is over: its lines are awaited no longer
    let s1 := if r.op = Op.RD_S then (linesOf r.addr r.len).foldl (fun a l => match hlcLine a l with
        | some x => if x.filled then a else setLine l none a
        | none => a) s0 else s0
    let s2 := if f.attr % 256 = 2 || f.attr % 256 = 3 then hostReqAbsent r s1 else accessFails r.owner r.len (f.attr % 256) s1
    pumpHost s2.su.waits s2
  | none => s

/-- What the link itself does with a frame in sequence: its buffer is freed at once; NAK and ERR act here, every other
frame by the event that names it. -/
def suAccept (f : Frame) (s : State) : State :=
  let s1 := { s with su.rxSeq := (s.su.rxSeq + 1) % 4096, su.rxAny := true, su.nakSent := false,
                     su.owed := if f.ch = 5 then s.su.owed else SMap.upd 0 s.su.owed f.ch (fun c => c + f.chunks) }
  if f.ch = 5 && f.op = 0x61 then suTakeNak (leAt f.data 0 2) s1
  else if f.ch = 2 && f.op = 0x35 then suTakeErr f s1
  else s1

/-- A frame: CRC, acknowledgements and credits, SEQ; what waited goes out (R254, R255, R269). -/
def fxFrameReceived (bytes : Bytes) (s : State) : State :=
  let h := fix 32 bytes
  let data := bytes.drop 32
  let s := countFec R.SU_CNT_FEC_CORR R.SU_CNT_FEC_UNCORR s
  if (crc32c (h.take 28 ++ data)).toNat ≠ leAt h 28 4 then suNak (bump R.SU_CNT_CRC (setBits R.SU_ERR 8 s))
  else
    let s1 := { s with su := suPump (suLinkFields h s.su) }
    let s2 := if leAt h 2 2 % 4096 = s1.su.rxSeq then suAccept (frameOf h (data.take (leAt h 10 2))) s1 else suNak s1
    sendPending [1, 2, 3, 4, 5, 6, 7, 8] s2

def execFrameReceived (bytes : Bytes) (s : State) : Host.Outcome State Fault Refusal :=
  done (if suUp s || s.su.st = .ident then fxFrameReceived bytes s else s)

/-! Requests of the host (R256, R262, R263, R454) -/

/-- A request of the host is taken: its tag stands until it is answered. -/
def hostTag (f : Frame) (s : State) : State := { s with su.hostTags := s.su.hostTags ++ [f.tag] }

/-- The firewall admits the host's request, or it is answered ERR status 4 (R453, R454). -/
def hostAdmits (f : Frame) (n : Nat) (write : Bool) (go : State → State) (s : State) : State :=
  let o : Owner := .host f.tag f.addr n
  if !fwAdmits s 35 f.addr n write then answerErr o 4 (refuseAccess 35 f.addr n write s)
  else if pinnedOut s 35 (f.addr - regBase) then answerErr o 4 s
  else go s

/-- H_RD. -/
def fxHRd (f : Frame) (s : State) : State :=
  let o : Owner := .host f.tag f.addr f.len
  if f.len = 0 || 4096 < f.len then answerErr o 1 (hostTag f s)
  else hostAdmits f f.len false (serveRead false o f.addr f.len) (hostTag f s)

def execHRd (h payload : Bytes) (s : State) : Host.Outcome State Fault Refusal :=
  done (if suUp s then fxHRd (frameOf h payload) s else s)

/-- H_WR: any POISON refuses it whole. -/
def fxHWr (f : Frame) (s : State) : State :=
  let n := f.data.length
  let o : Owner := .host f.tag f.addr n
  if n = 0 || 4096 < n then answerErr o 1 (hostTag f s)
  else if f.poison ≠ 0 then answerErr o 5 (hostTag f s)
  else hostAdmits f n true (serveWrite false 35 o f.addr f.data) (hostTag f s)

def execHWr (h payload : Bytes) (s : State) : Host.Outcome State Fault Refusal :=
  done (if suUp s then fxHWr (frameOf h payload) s else s)

/-- H_WB: whole lines of the host-cacheable range; after HCR_LOST it is answered ABSENT. -/
def writeBack (f : Frame) (s : State) : State :=
  let n := f.data.length
  let o : Owner := .host f.tag f.addr n
  if f.addr % 64 ≠ 0 || n % 64 ≠ 0 || !within f.addr n (hcrBase s) (hcrSize s) then serveDecode o f.addr s
  else if s.su.hcrLost then answerErr o 2 s
  else if !dramOpen s then discard 35 o f.addr s
  else answerStore o f.addr f.data s

def fxHWb (f : Frame) (s : State) : State :=
  let n := f.data.length
  let o : Owner := .host f.tag f.addr n
  if n = 0 || 4096 < n then answerErr o 1 (hostTag f s)
  else if f.poison ≠ 0 then answerErr o 5 (hostTag f s)
  else hostAdmits f n true (writeBack f) (hostTag f s)

def execHWb (h payload : Bytes) (s : State) : Host.Outcome State Fault Refusal :=
  done (if suUp s then fxHWb (frameOf h payload) s else s)

/-! Coherence (R257, R258, R261) -/

/-- SNP_INV on one line: a shared line goes, and a fill outstanding is not installed. -/
def snoopLine (l : Nat) (s : State) : State :=
  match hlcLine s l with
  | some x => if x.filled then setLine l none s else setLine l (some { x with noInstall := true }) s
  | none => s

/-- SNP_INV: every line of the range, answered whether or not they were held. -/
def fxSnpInv (f : Frame) (s : State) : State :=
  let s1 := (linesOf f.addr f.len).foldl (fun a l => snoopLine l a) (bump R.SU_CNT_SNP s)
  sendFrame { ch := 2, op := 0x34, tag := f.tag } s1

def execSnpInv (h payload : Bytes) (s : State) : Host.Outcome State Fault Refusal :=
  done (if suUp s then fxSnpInv (frameOf h payload) s else s)

/-- A write of the TAL8 waits for the fill of a line. -/
def writeWaitsFor (s : State) (l : Nat) : Bool :=
  s.su.waits.any (fun r => r.op == Op.WR_NC && r.addr / 64 ≤ l && l < (r.addr + r.len + 63) / 64)

/-- One line of a fill: installed, unless it was snooped or is poisoned; a line that a waiting write covers is dropped
after its fill (R257, R258, R263, 08). -/
def fillLine (l : Nat) (bs : Bytes) (bad : Bool) (s : State) : State :=
  match hlcLine s l with
  | some x =>
    if x.filled then s
    else if writeWaitsFor s l then dropLine l s
    else if x.noInstall || bad then setLine l none s
    else setLine l (some { x with filled := true, data := bs }) s
  | none => s

/-- Poisoned 32-byte words of a frame. -/
def Frame.badWords (f : Frame) : List Nat := (List.range 128).filter (fun w => f.poison.testBit (w / 4))

/-- Poisoned groups of a frame. -/
def Frame.badGroups (f : Frame) : Nat := ((List.range 32).filter (fun g => f.poison.testBit g)).length

/-- Fills of a request's lines. -/
def fillLines (r : HostReq) (f : Frame) (s : State) : State :=
  if r.op = Op.RD_S then
    (linesOf r.addr r.len).foldl (fun a l => fillLine l (slice f.data (64 * l - r.addr) 64) (f.poison.testBit ((64 * l - r.addr) / 128)) a) s
  else s

/-- A request of the TAL8 is over. -/
def endRequest (r : HostReq) (f : State → State) (s : State) : State :=
  let s1 := f { s with su.reqs := s.su.reqs.erase r }
  pumpHost s1.su.waits s1

/-- The request that a response names. -/
def requestOf (s : State) (p : Nat → Bool) (tag : Nat) : Option HostReq :=
  s.su.reqs.find? (fun r => r.tag == tag && p r.op)

/-- DATA: serves whoever waits, and fills the cache (R258, R263). -/
def fxData (f : Frame) (s : State) : State :=
  match requestOf s (fun op => op == Op.RD_S || op == Op.RD_NC) f.tag with
  | some r =>
    endRequest r (fun t => answerData r.owner (hostBase + r.addr) f.data f.badWords (fillLines r f t))
      (bumpBy R.SU_CNT_POISON f.badGroups s)
  | none => s

def execData (h payload : Bytes) (s : State) : Host.Outcome State Fault Refusal :=
  done (if suUp s then fxData (frameOf h payload) s else s)

/-- GRANT: the claimed access is performed before any later request of the host (R261). -/
def claimed (r : HostReq) (s : State) : State :=
  if !dramOpen s then hostReqAbsent r s
  else match r.owner with
  | .mem m =>
    if r.op = Op.CLAIM_S then fxDramRead r.addr m (r.data.take 36) (r.data.drop 36) s
    else fxDramWrite r.addr m (r.data.take r.len) (r.data.drop r.len) s
  | o => if r.op = Op.CLAIM_S then answerLoad o o.base r.addr r.len s else answerStore o r.addr r.data s

def fxGrant (f : Frame) (s : State) : State :=
  match requestOf s isClaim f.tag with
  | some r => endRequest r (claimed r) s
  | none => s

def execGrant (h payload : Bytes) (s : State) : Host.Outcome State Fault Refusal :=
  done (if suUp s then fxGrant (frameOf h payload) s else s)

/-- ACK of a WR_NC or a DROP. -/
def fxAck (f : Frame) (s : State) : State :=
  match requestOf s (fun op => op == Op.WR_NC || op == Op.DROP) f.tag with
  | some r => endRequest r (answerAck r.owner) s
  | none => s

def execAck (h payload : Bytes) (s : State) : Host.Outcome State Fault Refusal :=
  done (if suUp s then fxAck (frameOf h payload) s else s)

/-! Resets (R264) -/

def execHostReset (s : State) : Host.Outcome State Fault Refusal :=
  done (if suUp s then hostLost (setBits R.SU_ERR 16 s) else s)

def execSuortaLinkDown (s : State) : Host.Outcome State Fault Refusal :=
  done (if s.su.st = .off || s.su.st = .down then s else linkDown 12 s)

/-! Time (R328 to R330) -/

/-- A host TIME frame: answered; with TRACEABLE it closes the previous exchange, whose offset a node that follows the host
takes (R328, R329). -/
def fxTimeFrame (p : Bytes) (s : State) : State :=
  let t := taiNow s
  let s1 := sendFrame { ch := 5, op := 0x62, len := 32, data := leBytes 8 t ++ leBytes 8 t ++ leBytes 4 (leAt p 16 4) ++ zeros 12 } s
  let t1 := leAt p 0 8
  let t4 := leAt p 8 8
  let old := s1.time
  let usable := (leAt p 20 1).testBit 0
  let s2 := { s1 with time.hostT1 := t1, time.hostT2 := t, time.hostT3 := t, time.hostAny := usable }
  if usable && old.hostAny && t4 ≠ 0 && (!seamMode s2 || isTimeRoot s2) then
    correctTime ((((old.hostT2 : Int) - old.hostT1) - ((t4 : Int) - old.hostT3)) / 2) s2
  else s2

def execTimeFrame (h payload : Bytes) (s : State) : Host.Outcome State Fault Refusal :=
  done (if suUp s && (frameOf h payload).ch = 5 then fxTimeFrame payload s else s)

/-! Forwarded frames (R281) -/

/-- The FWD message of a frame. -/
def fwdMsg (f : Frame) (s : State) : Msg :=
  let dst := f.aux % 2048
  let ep := f.aux / 4096 % 16
  { cls := 7, dst := dst, loc := dst == nodeId s && 1 ≤ ep && ep ≤ 8, src := nodeId s, tag := f.tag, len := f.data.length,
    endpoint := ep, hdr := fix 8 (leBytes 1 (f.aux / 65536 % 256)), payload := f.data }

/-- A FWD frame is injected as one FWD message; one that cannot go is answered status 3. -/
def fxFwdFrame (f : Frame) (s : State) : State :=
  let m := fwdMsg f s
  match (if m.dst = nodeId s then deliverFwd m s else sendNode false m s) with
  | some t => { t with torus.fwds := SMap.set none t.torus.fwds m.tag (some 12) }
  | none => hostErr f.tag 3 (bump R.CNT_UNREACH s)

def execFwdFrame (h payload : Bytes) (s : State) : Host.Outcome State Fault Refusal :=
  done (if suUp s then fxFwdFrame (frameOf h payload) s else s)

end Sys2Proof.Machine
end

