-- ==== Sys2Proof/Machine/MailboxCmds.lean ====
section
/-! DEFINITION. The commands on mailboxes and from the rack (08): SUBMIT, RELEASE, ABORT, the responder's time limit, and
the MCTP messages of TW30 and TW31.
Log entries coded here: 143 (DEDUCED), 144 (PRESUMED). -/

namespace Sys2Proof.Machine

/-- Mailboxes that a requester reaches by register; MBX12 to MBX14 are driven by the mailbox hardware (R265, R266). -/
def mbReached (n : Nat) : Bool := n ≤ 11 || n == 15

def execSubmit (n : Fin 16) (s : State) : Host.Outcome State Fault Refusal :=
  done (if aonRuns s && mbReached n then fxSubmit 0 0 n s else s)

def execRelease (n : Fin 16) (s : State) : Host.Outcome State Fault Refusal :=
  done (if aonRuns s then fxMbRelease n s else s)

def execMailboxAbort (n : Fin 16) (s : State) : Host.Outcome State Fault Refusal :=
  done (if aonRuns s then fxMbAbort n s else s)

/-- An order that its core has not taken in 30 µs is answered by the hardware responder (R267, R428). -/
def fxTakeTimeout (n : Nat) (s : State) : State :=
  if (mbox s n).st = .submitted && (servingCore n (mbox s n).req).isSome then replyFail n St.HELD_RESTARTING noDetail 0 s else s

def execOrderTakeTimeout (n : Fin 16) (s : State) : Host.Outcome State Fault Refusal :=
  done (if aonRuns s then fxTakeTimeout n s else s)

/-! MCTP (R278, R279) -/

/-- The endpoint answers on port TW30 + p. -/
def mctpRuns (p : Nat) (s : State) : Bool := aonRuns s && twState (30 + p) s != 0

/-- The endpoint ID of a port. -/
def mctpEid (p : Nat) (s : State) : Nat := rdFld s R.MCTP_EID (8 * p + 7) (8 * p)

/-- Send an MCTP message. -/
def mctpSend (p tag : Nat) (bytes : Bytes) (s : State) : State := { s with mctpOut := s.mctpOut ++ [(p, tag, bytes)] }

/-- An order from the rack: to MBX12 + p, or BUSY; nothing before an endpoint ID is set, nothing for another vendor. -/
def fxMctpOrder (p tag : Nat) (msg : Bytes) (s : State) : State :=
  let n := 12 + p
  let order := msg.drop 5
  if mctpEid p s = 0 || leAt msg 0 1 ≠ 0x7F || slice msg 1 4 ≠ ianaBytes then s
  else if (mbox s n).st = .idle then fxSubmit 1 tag n (setMb n (fun x => { x with req := order }) s)
  else mctpSend p tag (mctpBody (replyBytes order St.BUSY (detail noDetail 0))) s

def execMctpOrder (p : Fin 2) (tagged : Nat) (msg : Bytes) (s : State) : Host.Outcome State Fault Refusal :=
  done (if mctpRuns p s then fxMctpOrder p tagged msg s else s)

/-- A control response: message type 0, the request's number without its request bit, the command, a completion code and
data. PRESUMED: the layouts of DSP0236, which R278 cites. -/
def mctpReply (p tag : Nat) (msg : Bytes) (cmd code : Nat) (data : Bytes) (s : State) : State :=
  mctpSend p tag (leBytes 1 0 ++ leBytes 1 (leAt msg 1 1 % 128) ++ leBytes 1 cmd ++ leBytes 1 code ++ data) s

/-- Set Endpoint ID: set or force; the mailbox of the port returns to version 3.2 when the ID is reassigned (R276). -/
def fxSetEid (p tag : Nat) (msg : Bytes) (s : State) : State :=
  let eid := leAt msg 4 1
  if 2 ≤ leAt msg 3 1 % 4 || eid = 0 || eid = 255 then mctpReply p tag msg 1 2 [] s
  else
    let s1 := setMb (12 + p) (fun m => { m with major := 3, minor := 2 }) (wrFld R.MCTP_EID (8 * p + 7) (8 * p) eid s)
    mctpReply p tag msg 1 0 ([0#8] ++ leBytes 1 eid ++ [0#8]) s1

def execSetEndpointId (p : Fin 2) (tagged : Nat) (msg : Bytes) (s : State) : Host.Outcome State Fault Refusal :=
  done (if mctpRuns p s then fxSetEid p tagged msg s else s)

def execGetEndpointId (p : Fin 2) (tagged : Nat) (msg : Bytes) (s : State) : Host.Outcome State Fault Refusal :=
  done (if mctpRuns p s then mctpReply p tagged msg 2 0 (leBytes 1 (mctpEid p s) ++ [0#8, 0#8]) s else s)

def execGetEndpointUuid (p : Fin 2) (tagged : Nat) (msg : Bytes) (s : State) : Host.Outcome State Fault Refusal :=
  done (if mctpRuns p s then mctpReply p tagged msg 3 0 (fix 16 Config.endpointUuid) s else s)

/-- The version numbers that the endpoint returns are not stated: a free value. -/
def fxMctpVersion (p tag : Nat) (msg : Bytes) (s : State) : State :=
  mctpReply p tag msg 4 0 ([1#8] ++ leBytes 4 (Config.unstated 278 s.fresh % 2 ^ 32)) (takeFresh s)

def execGetMctpVersionSupport (p : Fin 2) (tagged : Nat) (msg : Bytes) (s : State) : Host.Outcome State Fault Refusal :=
  done (if mctpRuns p s then fxMctpVersion p tagged msg s else s)

def execGetMessageTypeSupport (p : Fin 2) (tagged : Nat) (msg : Bytes) (s : State) : Host.Outcome State Fault Refusal :=
  done (if mctpRuns p s then mctpReply p tagged msg 5 0 [1#8, 0x7F#8] s else s)

/-- One vendor: the IANA number of MCTP_IANA, most significant byte first; its command set number is not stated. -/
def fxMctpVendor (p tag : Nat) (msg : Bytes) (s : State) : State :=
  mctpReply p tag msg 6 0 ([0xFF#8, 1#8] ++ ianaBytes
    ++ leBytes 2 (Config.unstated 279 s.fresh % 2 ^ 16)) (takeFresh s)

def execGetVendorDefinedMessageSupport (p : Fin 2) (tagged : Nat) (msg : Bytes) (s : State) :
    Host.Outcome State Fault Refusal :=
  done (if mctpRuns p s then fxMctpVendor p tagged msg s else s)

end Sys2Proof.Machine
end

