-- ==== Sys2Proof/Machine/OrdersChip.lean ====
section
/-! DEFINITION. Chip orders (R275, 0x0101 to 0x0109) and the TAL2 command GET_ID (R277).
Log entries coded here: 45 (DEDUCED), 138 (DEDUCED), 152 (DEDUCED), 153 (DEDUCED), 154 (DEDUCED). -/

namespace Sys2Proof.Machine

/-! HELLO, PING, TRAY_QUERY: served by the mailbox hardware (R267) -/

/-- The version that HELLO selects: the highest one the TAL8 supports within the range asked for; the TAL2 version only on
MBX11 to MBX13 (R276). -/
def helloVersion (n hi minor lo : Nat) : Option (Nat × Nat) :=
  if lo ≤ 3 && 3 ≤ hi then some (3, min minor 2)
  else if lo ≤ 2 && 2 ≤ hi && 11 ≤ n && n ≤ 13 then some (2, 4)
  else none

/-- HELLO: the mailbox takes the version, or keeps its own where none qualifies (R276). -/
def fxHello (n : Nat) (p : Bytes) (s : State) : State :=
  match helloVersion n (leAt p 0 1) (leAt p 1 1) (leAt p 2 1) with
  | some (a, b) =>
    replyDone n (leBytes 1 a ++ leBytes 1 b ++ zeros 2 ++ leBytes 4 chipId ++ leBytes 4 (rdN s R.CHIP_CAP))
      (setMb n (fun m => { m with major := a, minor := b }) s)
  | none => replyFail n St.BAD_VERSION (fieldOff s n 0) 0 s

def execHello (mb : Fin 16) (s : State) : Host.Outcome State Fault Refusal := done (onOrder 0x0101 mb (fxHello mb) s)

/-- PING. -/
def fxPing (n : Nat) (_ : Bytes) (s : State) : State :=
  replyDone n (leBytes 8 (now s) ++ leBytes 4 s.aon.powerCycles ++ zeros 4) s

def execPing (mb : Fin 16) (s : State) : Host.Outcome State Fault Refusal := done (onOrder 0x0102 mb (fxPing mb) s)

/-- TRAY_QUERY. -/
def fxTrayQuery (n : Nat) (_ : Bytes) (s : State) : State :=
  replyDone n (leBytes 4 (trayStateWord s).toNat ++ leBytes 4 (degradeCause s) ++ leBytes 4 s.chip.islands.toNat
    ++ leBytes 4 s.aon.coreDown.toNat ++ leBytes 4 (rdN s R.NODE_ID) ++ zeros 4) s

def execTrayQuery (mb : Fin 16) (s : State) : Host.Outcome State Fault Refusal :=
  done (onOrder 0x0103 mb (fxTrayQuery mb) s)

/-- GET_ID: HELLO in the TAL2 format, whose reply is CHIP_ID (R277). -/
def fxGetId (n : Nat) (_ : Bytes) (s : State) : State := replyDone n (leBytes 4 chipId) s

def execGetId (mb : Fin 16) (s : State) : Host.Outcome State Fault Refusal := done (onCommand 1 mb (fxGetId mb) s)

/-! REG_READ and REG_WRITE -/

/-- Word i of a range. -/
def wordAddr (a i : Nat) : Nat := a + 4 * i

/-- A word of register space. -/
def isRegWord (s : State) (a : Nat) : Bool :=
  match placeOf s a 4 with
  | .reg _ => true
  | _ => false

/-- Every word of a range lies in a firewall window of the source's transport (R275). -/
def wordsAdmitted (s : State) (m a c : Nat) (write : Bool) : Bool :=
  (List.range c).all (fun i => fwAdmits s m (wordAddr a i) 4 write)

/-- The first of COUNT words from ADDR that `bad` names. -/
def firstWord (a c : Nat) (bad : Nat → Bool) : Option Nat := ((List.range c).map (wordAddr a)).find? bad

/-- REG_READ: COUNT words from ADDR; a word that no register holds is a DECODE error, and a word of an island that is down gets
ABSENT and makes a FAULT (R29, R31). -/
def fxRegRead (n : Nat) (p : Bytes) (s : State) : State :=
  let a := leAt p 0 8
  let c := leAt p 8 4
  if !wordsAdmitted s (orderMaster s n) a (min c 1024) false then replyFail n St.DENIED_AUTH (fieldOff s n 0) 0 s
  else if a % 4 ≠ 0 then badParam n 0 s
  else if c = 0 || 1024 < c then badParam n 8 s
  else
    match firstWord a c (fun w => !isRegWord s w), firstWord a c (fun w => !regAnswers s (w - regBase)) with
    | some w, _ => badParam n 0 (decodeError w s)
    | none, some w => replyFail n St.FAULT (fieldOff s n 0) 0 (absentError w s)
    | none, none =>
      let r := fetchWords c (a - regBase) s
      replyDone n r.1 r.2

def execRegRead (mb : Fin 16) (s : State) : Host.Outcome State Fault Refusal := done (onOrder 0x0104 mb (fxRegRead mb) s)

/-- The word that REG_WRITE writes: VALUE under MASK, the other bits as they stand; of a register whose ones act, the ones
under MASK alone. -/
def maskedWord (s : State) (off : Nat) (v mask : W32) : W32 :=
  let keep : Bool := match regRow off with
    | some r => r.acc != .w1c && r.acc != .wo
    | none => true
  if keep then (readWord32 s off &&& ~~~mask) ||| (v &&& mask) else v &&& mask

/-- The master as which an order's write reaches a block: the security core serves the order, and the SEC lock binds it; a
mailbox sees the source's own transport. -/
def writeMaster (s : State) (n off : Nat) : Nat := if off / 0x1000000 = 8 then orderMaster s n else 0

/-- REG_WRITE, with the errors of REG_READ; a write that an island discards is counted (R17, R29, R31). -/
def fxRegWrite (n : Nat) (p : Bytes) (s : State) : State :=
  let a := leAt p 0 8
  let off := a - regBase
  if !fwAdmits s (orderMaster s n) a 4 true then replyFail n St.DENIED_AUTH (fieldOff s n 0) 0 s
  else if a % 4 ≠ 0 then badParam n 0 s
  else if !isRegWord s a then badParam n 0 (decodeError a s)
  else if !regAnswers s off then replyFail n St.FAULT (fieldOff s n 0) 0 (absentWrite (writeMaster s n off) a s)
  else
    let w := maskedWord s off (BitVec.ofNat 32 (leAt p 8 4)) (BitVec.ofNat 32 (leAt p 12 4))
    replyDone n [] (writeReg (writeMaster s n off) true off w s)

def execRegWrite (mb : Fin 16) (s : State) : Host.Outcome State Fault Refusal :=
  done (onOrder 0x0105 mb (fxRegWrite mb) s)

/-! IDENTITY_SET, PEER_WIN_SET -/

/-- Store a word under its register's write mask. -/
def storeMasked (off v : Nat) (s : State) : State :=
  match regRow off with
  | some r => storeReg r off (BitVec.ofNat 32 v) s
  | none => s

/-- IDENTITY_SET: denied once the SEC lock is set (R275); the seams that waited for an identity are released (R32). -/
def fxIdentitySet (n : Nat) (p : Bytes) (s : State) : State :=
  if s.sec.lock.getLsbD 0 then replyFail n St.DENIED_AUTH noDetail 0 s
  else
    let s1 := storeMasked R.TORUS_DIM (leAt p 4 4) (storeMasked R.NODE_ID (leAt p 0 4) s)
    replyDone n [] (releaseSeams (identityEvent s1))

def execIdentitySet (mb : Fin 16) (s : State) : Host.Outcome State Fault Refusal :=
  done (onOrder 0x0106 mb (fxIdentitySet mb) s)

/-- PEER_WIN_SET: one of the 480 windows (R27, R34). -/
def fxPeerWinSet (n : Nat) (p : Bytes) (s : State) : State :=
  if 480 ≤ leAt p 0 2 then badParam n 0 s
  else replyDone n [] (storeMasked (R.PEER_WIN (leAt p 0 2)) (leAt p 4 4) s)

def execPeerWinSet (mb : Fin 16) (s : State) : Host.Outcome State Fault Refusal :=
  done (onOrder 0x0107 mb (fxPeerWinSet mb) s)

/-! HLC_CTRL, HCR_SET -/

/-- EN of SU_HLC changes; an enable that another order waits for does not come about when it is taken back (R259). -/
def hlcOrder (on : Bool) (s : State) : State :=
  if on then hlcEnable (hlcHoldersNow s) s else hlcDisable s

/-- HLC_CTRL: it ends when ACTIVE reads what it asked for (R259, R273). -/
def fxHlcCtrl (n : Nat) (p : Bytes) (s : State) : State :=
  let en := leAt p 0 1
  if 1 < en then badParam n 0 s
  else if !islandOn 24 s then replyFail n St.FAULT noDetail 0 s
  else
    let s1 := if en = 0 then finishLong .hlcCtrl St.FAULT (detail noDetail 0) s else s
    let s2 := hlcOrder (en == 1) (acceptLong .hlcCtrl n s1)
    if s2.su.hlcEnableWaits then s2 else finishLong .hlcCtrl St.DONE [] s2

def execHlcCtrl (mb : Fin 16) (s : State) : Host.Outcome State Fault Refusal := done (onOrder 0x0108 mb (fxHlcCtrl mb) s)

/-- HCR_SET: the host-cacheable range lies in tray DRAM and is at most 64 GiB; BUSY while MEM is READY (R260, R262). -/
def fxHcrSet (n : Nat) (p : Bytes) (s : State) : State :=
  let b := leAt p 0 2
  let z := leAt p 2 2
  if 384 < b then badParam n 0 s
  else if 64 < z || 384 < b + z then badParam n 2 s
  else if memReady s then replyFail n St.BUSY noDetail 0 s
  else if !islandOn 24 s then replyFail n St.FAULT noDetail 0 s
  else replyDone n [] (storeMasked R.SU_HCR (b + 65536 * z) s)

def execHcrSet (mb : Fin 16) (s : State) : Host.Outcome State Fault Refusal := done (onOrder 0x0109 mb (fxHcrSet mb) s)

end Sys2Proof.Machine
end

