-- ==== Sys2Proof/Machine/Stitches.lean ====
section
/-! DEFINITION. The stitches (R296): what each operation does when its strand starts it.
Log entries coded here: 159 (DEDUCED), 166 (PRESUMED), 273 (DEDUCED), 274 (DEDUCED). -/

namespace Sys2Proof.Machine

/-- Strand n is about to start a stitch of operation `op`: it runs, below the limit of R294, and the stitch its
counter names is of that operation. -/
def strandAt (n op : Nat) (s : State) : Bool :=
  (strand s n).run == 1 && (strand s n).exec < 65536 && stOp (stitchAt s.st.image (strand s n).pc) == op

/-- The stitch that strand n's counter names. -/
def curStitch (n : Nat) (s : State) : Nat := stitchAt s.st.image (strand s n).pc

/-- Count a stitch started in the present run (R294). -/
def countStitch (n : Nat) (s : State) : State := setStrand n (fun t => { t with exec := t.exec + 1 }) s

/-- The common start of a MODE 1 power-up: every slot's on-delay runs from now (R313). -/
def slotStart (s : State) : State :=
  { s with st.slotStarted := true, st.slotUp := slotRails s.st.image }

/-- END: the strand stops. The end of strand 0's standby part sets STBY_MARK (R303); the end of its ENTRY[0] part
is the common start of a slot table (R313). -/
def fxEnd (n : Nat) (s : State) : State :=
  let sb := (strand s n).standby
  let s1 := setStrand n (fun t => { t with run := 0, wait := .none, standby := false }) s
  if sb then { s1 with st.stbyMark := s1.st.journal.length, st.phase := 0 }
  else if n = 0 && slotMode s1 && s1.st.phase = 2 && !s1.st.slotStarted then slotStart s1
  else s1

def execStEnd (n : Fin 16) (s : State) : Host.Outcome State Fault Refusal :=
  done (if strandAt n 0x0 s then fxEnd n (countStitch n s) else s)

/-- ENABLE of a rail by a strand (R301, R302, R306). -/
def fxEnable (n r : Nat) (s : State) : State :=
  match enableFinds s r with
  | .complete => stitchDone n s
  | .waits => stitchWait n (.parents r) s
  | .parentFailed => stitchDone n (markFailed r Cause.PARENT { strand := n } s)
  | .issue => stitchWait n (.action r) (enableRail r s)

def execStEnable (n : Fin 16) (s : State) : Host.Outcome State Fault Refusal :=
  done (if strandAt n 0x1 s then fxEnable n (stRail (curStitch n s)) (countStitch n s) else s)

/-- The rails of a shut-down of rail r and its dependants, in reverse journal order (R304). -/
def withDependants (s : State) (rs : List Nat) : List Nat :=
  let ds := rs ++ rs.flatMap (dependants s.st.image)
  s.st.journal.reverse.filter ds.contains

/-- DISABLE: the rail and its dependants go down one at a time, and the strand waits for the last (R296, R304). -/
def fxDisable (n r : Nat) (s : State) : State :=
  let s1 := stitchWait n .disable s
  { s1 with st.downs := s1.st.downs ++ [{ why := .strand n, rails := withDependants s1 [r] }] }

def execStDisable (n : Fin 16) (s : State) : Host.Outcome State Fault Refusal :=
  done (if strandAt n 0x2 s then fxDisable n (stRail (curStitch n s)) (countStitch n s) else s)

/-- WAIT: the strand waits B µs. -/
def execStWait (n : Fin 16) (s : State) : Host.Outcome State Fault Refusal :=
  done (if strandAt n 0x3 s then stitchWait n .time (countStitch n s) else s)

/-- WAITPG: the strand waits for the rail to be ON; the wait is over at once where it need not (R296, R298). -/
def execStWaitpg (n : Fin 16) (s : State) : Host.Outcome State Fault Refusal :=
  done (if strandAt n 0x4 s then stitchWait n (.powerGood (stRail (curStitch n s))) (countStitch n s) else s)

/-- CHECK: samples the rail once, sets or clears C, and with FAIL set fails a rail outside its limits (R296). A
rail that is blocked or not ON only clears C (R302). -/
def fxCheck (n : Nat) (w mv da : Nat) (s : State) : State :=
  let r := stRail w
  if railBlocked s r || (rail s r).st != .on then stitchDone n (setStrand n (fun t => { t with c := false }) s)
  else
    let v := if (stMod w).testBit 0 then da else mv
    let inside := stA w ≤ v && v ≤ stB w % 65536
    let s1 := setStrand n (fun t => { t with c := inside }) s
    stitchDone n (if !inside && (stMod w).testBit 1
      then failRail r Cause.CHECK { mv := mv, da := da, strand := n } s1 else s1)

def execStCheck (n : Fin 16) (mv da : Nat) (s : State) : Host.Outcome State Fault Refusal :=
  done (if strandAt n 0x5 s then fxCheck n (curStitch n s) mv da (countStitch n s) else s)

/-- The next stitch of a strand is `i`. -/
def jumpTo (n i : Nat) (s : State) : State := setStrand n (fun t => { t with run := 1, pc := i, wait := .none }) s

/-- JUMP: the next stitch is B[11:0]. -/
def execStJump (n : Fin 16) (s : State) : Host.Outcome State Fault Refusal :=
  done (if strandAt n 0x6 s then jumpTo n (stB (curStitch n s) % 4096) (countStitch n s) else s)

/-- COND of a JUMPIF (R296). -/
def jumpCond (n : Nat) (w : Nat) (s : State) : Bool :=
  match stMod w with
  | 0 => (strand s n).c
  | 1 => !(strand s n).c
  | 2 => (rail s (stRail w)).st == .on
  | 3 => (rail s (stRail w)).st == .failed
  | 4 => railBlocked s (stRail w)
  | 5 => s.st.signals.getLsbD (stRail w % 32)
  | _ => false

/-- JUMPIF: jumps to B[11:0] if COND holds. -/
def execStJumpif (n : Fin 16) (s : State) : Host.Outcome State Fault Refusal :=
  done (if strandAt n 0x7 s then
    (if jumpCond n (curStitch n s) s then jumpTo n (stB (curStitch n s) % 4096) (countStitch n s)
     else stitchDone n (countStitch n s)) else s)

/-- SIGNAL: sets the signal; any AWAIT on it completes. -/
def execStSignal (n : Fin 16) (s : State) : Host.Outcome State Fault Refusal :=
  done (if strandAt n 0x8 s then
    stitchDone n { countStitch n s with st.signals := s.st.signals ||| (1#32 <<< (stRail (curStitch n s) % 32)) }
    else s)

/-- AWAIT: the strand waits for the signal. -/
def execStAwait (n : Fin 16) (s : State) : Host.Outcome State Fault Refusal :=
  done (if strandAt n 0x9 s then stitchWait n (.signal (stRail (curStitch n s) % 32)) (countStitch n s) else s)

/-- LOG: records an event of CLASS 2, CODE 6, carrying B, the strand and the stitch index (R469). -/
def execStLog (n : Fin 16) (s : State) : Host.Outcome State Fault Refusal :=
  done (if strandAt n 0xA s then
    stitchDone n (raise 2 6 n (leBytes 4 (stB (curStitch n s)) ++ leBytes 1 n.val ++ zeros 1
      ++ leBytes 2 (strand s n).pc) (countStitch n s)) else s)

/-- A 16-bit step as a signed number. -/
def signed16 (n : Nat) : Int := if n < 32768 then (n : Int) else (n : Int) - 65536

/-- A step clamped to ±MARGIN_LIM (R297). -/
def clampStep (lim : Nat) (a : Int) : Int := max (-(lim : Int)) (min (lim : Int) a)

/-- Whether a step would set the VCORE rail above the effective VCORE limit (R297). -/
def aboveStarch (s : State) (r : Nat) (a : Int) : Bool :=
  railIsVcore s.st.image r
    && (s.aon.vcoreEff : Int) * 1000 < (railVnom s.st.image r : Int) * (1000 + a)

/-- The largest step that keeps the VCORE rail at or below the limit. -/
def starchStep (s : State) (r : Nat) : Int :=
  (s.aon.vcoreEff : Int) * 1000 / (railVnom s.st.image r : Int) - 1000

/-- The step a margin applies: clamped to the rail's limit, then to the starch limit (R297). -/
def marginStep (s : State) (r : Nat) (a : Int) : Int :=
  let b := clampStep (railMarginLim s.st.image r) a
  if aboveStarch s r b then starchStep s r else b

/-- PAGE goes first where the rail has a page (R286). -/
def paged (img : Bytes) (r : Nat) (q : TwReq) : TwReq :=
  { q with w := (if railPmPage img r = 0xFF then [] else leBytes 2 (railPmPage img r * 256)) ++ q.w }

/-- The stitch engine's request to a rail's target, past the gate in the port hardware (R443). -/
def railSend (r : Nat) (q : TwReq) (s : State) : State :=
  match passGate (railPmPort s.st.image r) q s with
  | (none, t) => t
  | (some p, t) => twEngine (railPmPort s.st.image r) (paged s.st.image r p) t

/-- Apply a margin step: VOUT_MODE is read where this run has not yet read it, and VOUT_TRIM goes to the rail's target; each clamp
records an event (R297, R419). `trim` is the value in the rail's VOUT_MODE format. -/
def applyMargin (r : Nat) (a : Int) (trim : W32) (known : Bool) (s : State) : State :=
  let b := marginStep s r a
  let s0 := if clampStep (railMarginLim s.st.image r) a = a then s else raise 2 3 r [] s
  let s1 := if aboveStarch s r (clampStep (railMarginLim s.st.image r) a) then raise 2 3 r [] s0 else s0
  let pm := railPmAddr s.st.image r
  let s2 := setRail r (fun x => { x with margin := b }) s1
  let s3 := if known then s2 else railSend r { what := .mode r, addr := pm, w := [0x20#8], rlen := 1 } s2
  railSend r { what := .margin r, addr := pm, w := 0x22#8 :: leBytes 2 trim.toNat } s3

/-- MARGIN: writes VOUT_TRIM of a PMBus rail that is ON; a rail that is RISING or FALLING gets no write. -/
def execStitchMargin (n : Fin 16) (trim : W32) (s : State) : Host.Outcome State Fault Refusal :=
  done (if strandAt n 0xB s then
    (let r := stRail (curStitch n s)
     if (rail s r).st = .on then
       stitchWait n (.margin r) (setStrand n (fun t => { t with modes := t.modes ++ [r] })
         (applyMargin r (signed16 (stA (curStitch n s))) trim ((strand s n).modes.contains r) (countStitch n s)))
     else stitchDone n (countStitch n s)) else s)

/-- The B µs of a WAIT have passed, and it completes (R296). -/
def execWaitElapsed (n : Fin 16) (s : State) : Host.Outcome State Fault Refusal :=
  done (if (strand s n).run = 2 && (strand s n).wait = .time then stitchDone n s else s)

/-- The timeout of a WAITPG passes without power-good: the rail fails with NO_PG, which ends the wait (R298). -/
def execWaitpgTimeout (n : Fin 16) (mv da tUs : Nat) (s : State) : Host.Outcome State Fault Refusal :=
  done (match (strand s n).wait with
    | .powerGood r =>
      if (strand s n).run = 2 && (rail s r).st = .rising
      then failRail r Cause.NO_PG { mv := mv, da := da, tUs := tUs, strand := n } s else s
    | _ => s)

/-- A strand has executed 65,536 stitches without END: it stops, LOOP is set, an event is recorded, and an off
request follows (R294). -/
def execStrandLoopLimit (n : Fin 16) (s : State) : Host.Outcome State Fault Refusal :=
  done (if (strand s n).run ≠ 0 && 65536 ≤ (strand s n).exec then
    offRequest false (raise 2 2 n (leBytes 4 (min (strand s n).exec 65535 * 65536 + (strand s n).pc))
      (setBits R.ST_FAULT 1 (setStrand n (fun t => { t with run := 0, wait := .none }) s)))
    else s)

end Sys2Proof.Machine
end

