-- ==== Sys2Proof/Machine/OrdersPower.lean ====
section
/-! DEFINITION. Power orders (R275, 0x0201 to 0x0208), and the TAL2 commands POWER_ON, POWER_OFF, READ_RAILS, LOAD_SLOTS,
READ_SLOTS and READ_LOG (R277).
Log entries coded here: 41 (DEDUCED), 47 (DEDUCED), 151 (DEDUCED), 156 (DEDUCED), 163 (DEDUCED), 164 (DEDUCED), 165
(DEDUCED). -/

namespace Sys2Proof.Machine

/-! TRAY_ON and TRAY_OFF (R348, R519) -/

/-- An accepted on order in STANDBY clears HSW_LATCH and drives HSW_EN high (R309). -/
def raiseSwitch (s : State) : State :=
  if s.st.hswEn then { s with st.hswLatch := false }
  else { s with st.hswLatch := false, st.hswEn := true, chip.hswRise := some (now s) }

/-- The on order is held until power-up can start (R21). -/
def holdOn (s : State) : State :=
  let s1 := { s with chip.onHeld := true }
  if s1.chip.tray = .standby then raiseSwitch s1 else s1

/-- The control cores have an image. -/
def controlsLoaded (s : State) : Bool := !(coreSt s 3).image.isEmpty

/-- What acceptance of an on order does once the control cores' image has been looked for (R436, R437). -/
def onGoes (s : State) : State :=
  if controlsLoaded s then holdOn s else finishLong .trayOn St.FAULT (detail noDetail 3) s

/-- An on order is accepted: the control cores' image is verified, and without one the order fails. -/
def acceptOn (n : Nat) (s : State) : State := onGoes (loadControls (acceptLong .trayOn n s))

/-- TRAY_ON acts by tray state (R519); while TRIPPED or OFF there is nothing it could start. One that arrives while an
activation is being applied is BUSY (R484). -/
def trayOnActs (n : Nat) (s : State) : State :=
  match s.chip.tray with
  | .ready | .degraded => replyDone n [] s
  | .standby => if cfgPend s && emergLatches s == 0 then replyFail n St.BUSY noDetail 0 s else acceptOn n s
  | .sequencingDown => acceptOn n s
  | .sequencingUp => acceptLong .trayOn n s
  | .tripped | .off => replyFail n St.BUSY noDetail 0 s

/-- TRAY_ON is denied by the hard lines from either source, and to the host while TRAY_HOLD is set (R348). -/
def onDenied (s : State) (n : Nat) : Bool := !permitted s || (orderSource s n == 0 && s.budget.trayHold)

/-- TRAY_ON: never under debug (R457); a rack's clears TRAY_HOLD (R348). -/
def fxTrayOn (n : Nat) (_ : Bytes) (s : State) : State :=
  if s.sec.debugUnlocked then replyFail n St.DENIED_AUTH noDetail 0 s
  else if onDenied s n then replyFail n St.DENIED_PRECEDENCE noDetail 0 s
  else trayOnActs n (if orderSource s n = 1 then { s with budget.trayHold := false } else s)

def execTrayOn (mb : Fin 16) (s : State) : Host.Outcome State Fault Refusal := done (onOrder 0x0201 mb (fxTrayOn mb) s)

def execPowerOn (mb : Fin 16) (s : State) : Host.Outcome State Fault Refusal := done (onCommand 2 mb (fxTrayOn mb) s)

/-- TRAY_OFF: an off request from any source is carried out (R346); the order ends in STANDBY. A rack's sets TRAY_HOLD. -/
def fxTrayOff (n : Nat) (_ : Bytes) (s : State) : State :=
  let s1 := acceptLong .trayOff n (if orderSource s n = 1 then { s with budget.trayHold := true } else s)
  if s1.chip.tray = .standby || s1.chip.tray = .off then finishLong .trayOff St.DONE [] (offRequest false s1)
  else offRequest false s1

def execTrayOff (mb : Fin 16) (s : State) : Host.Outcome State Fault Refusal := done (onOrder 0x0202 mb (fxTrayOff mb) s)

def execPowerOff (mb : Fin 16) (s : State) : Host.Outcome State Fault Refusal := done (onCommand 3 mb (fxTrayOff mb) s)

/-! ACC_POWER (R311, R348) -/

/-- The tray is READY or DEGRADED. -/
def trayRuns (s : State) : Bool := s.chip.tray == .ready || s.chip.tray == .degraded

/-- RACK_HOLD bit a. -/
def setRackHold (a : Nat) (v : Bool) (s : State) : State :=
  { s with budget.rackHold := if v then s.budget.rackHold ||| (1#8 <<< a) else s.budget.rackHold &&& ~~~(1#8 <<< a) }

/-- ACC_POWER ON: denied to the host while its rack hold is set, and BUSY while strand 1 + a runs. -/
def accPowerOn (n a : Nat) (s : State) : State :=
  if groupBlocked s (a + 1) then replyFail n St.BAD_PARAM (fieldOff s n 0) 1 s
  else if !slotMode s && imgAccEntry s.st.image a = 0xFFFF then replyFail n St.BAD_PARAM (fieldOff s n 0) 2 s
  else if orderSource s n = 0 && s.budget.rackHold.getLsbD a then replyFail n St.DENIED_PRECEDENCE noDetail 0 s
  else if !trayRuns s || (strand s (1 + a)).run ≠ 0 || s.st.accWait.contains a then replyFail n St.BUSY noDetail 0 s
  else
    let s1 := if orderSource s n = 1 then setRackHold a false s else s
    let s2 := acceptLong (.accPower a true) n s1
    { s2 with st.accWait := s2.st.accWait ++ [a] }

/-- ACC_POWER OFF: the group's journalled rails fall in reverse journal order; a rack's sets the rack hold. -/
def accPowerOff (n a : Nat) (s : State) : State :=
  if !trayRuns s then replyFail n St.BUSY noDetail 0 s
  else
    let s1 := if orderSource s n = 1 then setRackHold a true s else s
    beginAccOff a (acceptLong (.accPower a false) n s1)

/-- ACC_POWER. -/
def fxAccPower (n : Nat) (p : Bytes) (s : State) : State :=
  let a := leAt p 0 1
  let on := leAt p 1 1
  if 7 < a then badParam n 0 s
  else if 1 < on then badParam n 1 s
  else if on = 1 then accPowerOn n a s
  else accPowerOff n a s

def execAccPower (mb : Fin 16) (s : State) : Host.Outcome State Fault Refusal :=
  done (onOrder 0x0203 mb (fxAccPower mb) s)

/-! RAIL_QUERY -/

/-- FIRST and COUNT of a query over rails: COUNT from 1 to the most that the order returns, all of them below 256. -/
def railsAsked (p : Bytes) (most : Nat) : Option (List Nat) :=
  let f := leAt p 0 2
  let c := leAt p 2 2
  if c = 0 || most < c || 256 < f + c then none else some ((List.range c).map (fun i => f + i))

/-- One record of RAIL_QUERY. -/
def railRecord (s : State) (r : Nat) : Bytes :=
  leBytes 4 (rdN s (R.VOLT_UV r)) ++ leBytes 4 (rdN s (R.CURR_MA r)) ++ leBytes 1 (rail s r).st.code ++ zeros 7

/-- RAIL_QUERY. -/
def fxRailQuery (n : Nat) (p : Bytes) (s : State) : State :=
  match railsAsked p 256 with
  | none => badParam n 2 s
  | some rs => replyDone n (rs.flatMap (railRecord s)) s

def execRailQuery (mb : Fin 16) (s : State) : Host.Outcome State Fault Refusal :=
  done (onOrder 0x0204 mb (fxRailQuery mb) s)

/-- One entry of READ_RAILS: mV and mA. -/
def railShort (s : State) (r : Nat) : Bytes :=
  leBytes 4 ((rd s (R.VOLT_UV r)).toInt / 1000 % 2 ^ 32).toNat ++ leBytes 4 (rdN s (R.CURR_MA r))

/-- READ_RAILS: RAIL_QUERY for at most 64 rails, in mV and mA (R277). -/
def fxReadRails (n : Nat) (p : Bytes) (s : State) : State :=
  match railsAsked p 64 with
  | none => badParam n 2 s
  | some rs => replyDone n (rs.flatMap (railShort s)) s

def execReadRails (mb : Fin 16) (s : State) : Host.Outcome State Fault Refusal := done (onCommand 4 mb (fxReadRails mb) s)

/-! STITCH_LOAD and SLOT_LOAD (R316) -/

/-- A range lies in the host window. -/
def inHostWindow (s : State) (a n : Nat) : Bool := within a n hostBase (hostSize s)

/-- The event of a program or table loaded at run time (R491). -/
def runtimeLoad (op : Nat) (bs : Bytes) (s : State) : State :=
  raise 12 8 noInst (leBytes 2 op ++ (sha512 bs).take 16) s

/-- The most bytes that a stitch program image can have (R299, R312). -/
abbrev maxProgram : Nat := 8256 + 8 * 4096 + 16 + 8 * 64

/-- STITCH_LOAD of the image read: it replaces program and rail table as one step; it is refused under R300, and where it would
change the descriptor of a rail that is ON. -/
def stitchLoaded (n : Nat) (img : Bytes) (s : State) : State :=
  if imageStatus (twClass s) img = St.BAD_LENGTH then replyFail n St.BAD_LENGTH (fieldOff s n 8) 0 s
  else if imageStatus (twClass s) img ≠ St.DONE || changesOnRail s img then replyFail n St.BAD_PARAM noDetail 0 s
  else if s.chip.tray ≠ .standby then replyFail n St.BUSY noDetail 0 s
  else replyDone n [] (runtimeLoad 0x0205 img (loadProgram img s))

/-- STITCH_LOAD: the image is read at ADDR in the host window (R258). -/
def fxStitchLoad (n : Nat) (image p : Bytes) (s : State) : State :=
  let a := leAt p 0 8
  let len := leAt p 8 4
  if !inHostWindow s a len then badParam n 0 s
  else if maxProgram < len then replyFail n St.BAD_LENGTH (fieldOff s n 8) 0 s
  else match fetchImage a len image s with
    | (t, some img) => stitchLoaded n img t
    | (t, none) => replyFail n St.FAULT noDetail 0 t

def execStitchLoad (mb : Fin 16) (image : Bytes) (s : State) : Host.Outcome State Fault Refusal :=
  done (onOrder 0x0205 mb (fxStitchLoad mb image) s)

/-- The program with another slot table. -/
def withSlots (img t : Bytes) : Bytes := img.take (8256 + 8 * nStitch img) ++ t

/-- SLOT_LOAD of the table read. -/
def slotsLoaded (n len : Nat) (t : Bytes) (s : State) : State :=
  if len < 16 || len ≠ 16 + 8 * leAt t 3 1 then replyFail n St.BAD_LENGTH (fieldOff s n 8) 0 s
  else if !slotMode s || !slotTableOk s.st.image t then replyFail n St.BAD_PARAM noDetail 0 s
  else if s.chip.tray ≠ .standby then replyFail n St.BUSY noDetail 0 s
  else replyDone n [] (runtimeLoad 0x0206 t (loadProgram (withSlots s.st.image t) s))

/-- SLOT_LOAD: the slot table of a MODE 1 image alone is replaced; it is read at ADDR in the host window. -/
def fxSlotLoad (n : Nat) (image p : Bytes) (s : State) : State :=
  let a := leAt p 0 8
  let len := leAt p 8 4
  if !inHostWindow s a len then badParam n 0 s
  else if 528 < len then replyFail n St.BAD_LENGTH (fieldOff s n 8) 0 s
  else match fetchImage a len image s with
    | (u, some t) => slotsLoaded n len t u
    | (u, none) => replyFail n St.FAULT noDetail 0 u

def execSlotLoad (mb : Fin 16) (image : Bytes) (s : State) : Host.Outcome State Fault Refusal :=
  done (onOrder 0x0206 mb (fxSlotLoad mb image) s)

/-- LOAD_SLOTS is refused (R277): DENIED, of no version 3 order. -/
def fxLoadSlots (n : Nat) (_ : Bytes) (s : State) : State := replyFail n St.DENIED_PRECEDENCE noDetail 0 s

def execLoadSlots (mb : Fin 16) (s : State) : Host.Outcome State Fault Refusal := done (onCommand 5 mb (fxLoadSlots mb) s)

/-- READ_SLOTS: the active slot table in the format of R312; a program without one has nothing to read. -/
def fxReadSlots (n : Nat) (_ : Bytes) (s : State) : State :=
  if slotMode s then replyDone n (slotTable s.st.image) s else replyFail n St.BAD_PARAM noDetail 0 s

def execReadSlots (mb : Fin 16) (s : State) : Host.Outcome State Fault Refusal := done (onCommand 6 mb (fxReadSlots mb) s)

/-! FAILLOG_READ (R315) -/

/-- The valid record of a SEQ. -/
def failAt (s : State) (q : Nat) : Option FailRec :=
  if s.st.torn.contains ((q - 1) % 1024) then none
  else (s.st.ring.get none ((q - 1) % 1024)).filter (fun f => f.seq == q)

/-- The valid records with SEQ from `first` upwards, in SEQ order. -/
def failsFrom (s : State) (first : Nat) : List FailRec :=
  let lo := failHead s - 1023
  ((List.range 1024).map (fun i => lo + i)).filterMap (fun q => if first ≤ q && 1 ≤ q then failAt s q else none)

/-- The most records that one reply carries: 4,096 bytes go over MCTP, and 4,080 in the TAL2 format. -/
def mostFails (s : State) (n : Nat) : Nat :=
  if isTal2 (mbox s n).req then 127 else if n = 12 || n = 13 || n = 14 then 128 else 1024

/-- FAILLOG_READ. -/
def fxFaillogRead (n : Nat) (p : Bytes) (s : State) : State :=
  replyDone n (((failsFrom s (leAt p 0 4)).take (min (leAt p 4 4) (mostFails s n))).flatMap failBytes) s

def execFaillogRead (mb : Fin 16) (s : State) : Host.Outcome State Fault Refusal :=
  done (onOrder 0x0207 mb (fxFaillogRead mb) s)

def execReadLog (mb : Fin 16) (s : State) : Host.Outcome State Fault Refusal := done (onCommand 9 mb (fxFaillogRead mb) s)

/-! MARGIN (R297) -/

/-- MARGIN: the stitch's step on a rail that is ON and has a PMBus path; one that the stitch would clamp at the starch
limit is denied. -/
def fxMargin (n : Nat) (trim : W32) (p : Bytes) (s : State) : State :=
  let r := leAt p 0 2
  let a := signed16 (leAt p 2 2)
  if 255 < r || (rail s r).st ≠ .on || !railHasPmbus s.st.image r then badParam n 0 s
  else if aboveStarch s r (clampStep (railMarginLim s.st.image r) a) then
    replyFail n St.DENIED_STARCH (fieldOff s n 2) 0 s
  else replyDone n [] (applyMargin r a trim false s)

def execMargin (mb : Fin 16) (trim : W32) (s : State) : Host.Outcome State Fault Refusal :=
  done (onOrder 0x0208 mb (fxMargin mb trim) s)

end Sys2Proof.Machine
end

