-- ==== Sys2Proof/Machine/OrdersHeat.lean ====
section
/-! DEFINITION. Metering orders (R275, 0x0301 to 0x0305), cooling orders (0x0401 to 0x0405), and the TAL2 commands
READ_TEMPS, SET_FAN and READ_ENERGY (R277).
Log entries coded here: 47 (DEDUCED), 173 (DEDUCED), 174 (DEDUCED), 190 (DEDUCED), 192 (DEDUCED), 193 (DEDUCED), 266
(DEDUCED). -/

namespace Sys2Proof.Machine

/-! METER_READ (R326) -/

/-- A rail's energy. -/
def energyNj (s : State) (r : Nat) : Nat := nanoJ (s.meter.acc.get 0 r)

/-- METER_READ. -/
def fxMeterRead (n : Nat) (p : Bytes) (s : State) : State :=
  match railsAsked p 256 with
  | none => badParam n 2 s
  | some rs => replyDone n (rs.flatMap (fun r => leBytes 8 (energyNj s r))) s

def execMeterRead (mb : Fin 16) (s : State) : Host.Outcome State Fault Refusal :=
  done (onOrder 0x0301 mb (fxMeterRead mb) s)

/-- READ_ENERGY: mJ, wrapping (R277). -/
def fxReadEnergy (n : Nat) (p : Bytes) (s : State) : State :=
  match railsAsked p 256 with
  | none => badParam n 2 s
  | some rs => replyDone n (rs.flatMap (fun r => leBytes 4 (energyNj s r / 1000000 % 2 ^ 32))) s

def execReadEnergy (mb : Fin 16) (s : State) : Host.Outcome State Fault Refusal :=
  done (onCommand 10 mb (fxReadEnergy mb) s)

/-! TICKET_FETCH and BATCH_QUERY (R341, R342) -/

/-- The batches of the last delivery are freed, and closes that waited for their slots are applied. -/
def freeDelivered (s : State) : State :=
  let s1 := { s with
    meter.batches := s.meter.batches.filter (fun b => !s.meter.delivered.contains b.idx), meter.delivered := [] }
  applyCloses (s1.meter.closeWait.length) s1

/-- The signed batches that can be delivered, oldest first. -/
def deliverable (s : State) (most : Nat) : List Batch :=
  (s.meter.batches.takeWhile (fun b => !b.record.isEmpty)).take most

/-- A batch as it is written: its record, then its tickets. -/
def batchBytes (b : Batch) : Bytes := b.record ++ b.tickets.flatMap (fun t => t)

/-- Write a stream into the host window, 4,096 bytes a frame. -/
def hostStream (k off : Nat) (bs : Bytes) (s : State) : State :=
  match k with
  | 0 => s
  | j + 1 => if bs.isEmpty then s else hostStream j (off + 4096) (bs.drop 4096) (hostWrite off (bs.take 4096) .plain s)

/-- The last TICKET_SEQ of a delivery. -/
def lastSeqOf (old : Nat) (bs : List Batch) : Nat :=
  match bs.getLast? with
  | some b => b.firstSeq + b.tickets.length - 1
  | none => old

/-- Deliver batches at DEST. FIRST_BATCH of a delivery of none is not stated. -/
def deliverBatches (n dest : Nat) (bs : List Batch) (s : State) : State :=
  let stream := bs.flatMap batchBytes
  let first := match bs with
    | b :: _ => b.idx
    | [] => Config.unstated 342 s.fresh % 2 ^ 64
  let s1 := hostStream (stream.length / 4096 + 1) (dest - hostBase) stream
    { takeFresh s with meter.delivered := bs.map (fun b => b.idx), meter.lastDelivered := lastSeqOf s.meter.lastDelivered bs }
  replyDone n (leBytes 4 bs.length ++ zeros 4 ++ leBytes 8 first) s1

/-- TICKET_FETCH: the ticket DMA writes to DEST in the host window (R342, R452). -/
def fxTicketFetch (n : Nat) (p : Bytes) (s : State) : State :=
  let dest := leAt p 0 8
  let s1 := freeDelivered s
  let bs := deliverable s1 (leAt p 8 4)
  let len := (bs.flatMap batchBytes).length
  if !inHostWindow s dest len then badParam n 0 s
  else if len ≠ 0 && !suOpen s then replyFail n St.FAULT noDetail 0 s
  else deliverBatches n dest bs s1

def execTicketFetch (mb : Fin 16) (s : State) : Host.Outcome State Fault Refusal :=
  done (onOrder 0x0302 mb (fxTicketFetch mb) s)

/-- BATCH_QUERY: the signed record of a batch still in the store. -/
def fxBatchQuery (n : Nat) (p : Bytes) (s : State) : State :=
  match s.meter.batches.find? (fun b => b.idx == leAt p 0 8 && !b.record.isEmpty) with
  | some b => replyDone n b.record s
  | none => badParam n 0 s

def execBatchQuery (mb : Fin 16) (s : State) : Host.Outcome State Fault Refusal :=
  done (onOrder 0x0303 mb (fxBatchQuery mb) s)

/-! CALIBRATE (R325) and TIME_SET (R330) -/

/-- CALIBRATE sweeps the channels it names. -/
def fxCalibrate (n : Nat) (p : Bytes) (s : State) : State :=
  let f := leAt p 0 2
  let c := leAt p 2 2
  if 512 ≤ f then badParam n 0 s
  else if c = 0 || 512 < f + c then badParam n 2 s
  else if !standbyUp s then replyFail n St.BUSY noDetail 0 s
  else
    let chs := (List.range c).map (fun i => f + i)
    let s1 := acceptLong .calibrate n s
    startSweep chs { s1 with meter.calNamed := s1.meter.calNamed ++ chs.filter (fun k => !s1.meter.calNamed.contains k) }

def execCalibrate (mb : Fin 16) (s : State) : Host.Outcome State Fault Refusal :=
  done (onOrder 0x0304 mb (fxCalibrate mb) s)

/-- TIME_SET steps tray time; refused on a node that follows a parent in SEAM mode. -/
def fxTimeSet (n : Nat) (p : Bytes) (s : State) : State :=
  if seamMode s && (timeParent s).isSome then badParam n 0 s
  else replyDone n [] (decideStep ((leAt p 0 8 : Int) - (taiNow s : Int)) s)

def execTimeSet (mb : Fin 16) (s : State) : Host.Outcome State Fault Refusal := done (onOrder 0x0305 mb (fxTimeSet mb) s)

/-! Reports (R400) -/

/-- A temperature in a report. -/
def tempBytes (t : Int) : Bytes := leBytes 2 (field16 t)

/-- The sixteen remote diodes. -/
def diodeBytes (s : State) : Bytes := (List.range 16).flatMap (fun d => tempBytes (diodeRead s d))

/-- The sensor report. -/
def sensorReport (s : State) : Bytes :=
  leBytes 1 ((thrEff s / 10) % 256).toNat ++ leBytes 1 (tripC s) ++ leBytes 2 (bitsOf 16 (fun z => decide (thrEff s ≤ zoneActs s z)))
    ++ tempBytes (headroom8 s) ++ zeros 2 ++ leBytes 12 (bitsOf 96 (fun k => (ro s k).cause != 0)) ++ zeros 4
    ++ (List.range 16).flatMap (fun z => tempBytes (zoneT s z))
    ++ (List.range 96).flatMap (fun k => tempBytes (roRead s k))
    ++ diodeBytes s ++ (List.range 32).flatMap (fun t => tempBytes (thermRead s t))

/-- THERMAL_QUERY. -/
def fxThermalQuery (n : Nat) (_ : Bytes) (s : State) : State := replyDone n (sensorReport s) s

def execThermalQuery (mb : Fin 16) (s : State) : Host.Outcome State Fault Refusal :=
  done (onOrder 0x0401 mb (fxThermalQuery mb) s)

/-- READ_TEMPS: RD_T[0..15]. -/
def fxReadTemps (n : Nat) (_ : Bytes) (s : State) : State := replyDone n (diodeBytes s) s

def execReadTemps (mb : Fin 16) (s : State) : Host.Outcome State Fault Refusal := done (onCommand 7 mb (fxReadTemps mb) s)

/-- An override is in force on some channel. -/
def anyOverride (s : State) : Bool := (List.range 56).any (fun c => rdFld s (R.CH_OVR c) 31 8 != 0)

/-- The cooling report. -/
def coolReport (s : State) : Bytes :=
  leBytes 4 (rdN s R.QCAP) ++ leBytes 1 (b2n (coolFull s) + 2 * b2n s.heat.wdgFired + 4 * b2n (anyOverride s)) ++ zeros 3
    ++ (List.range 56).flatMap (fun c => leBytes 1 (rdFld s (R.CH_DUTY c) 15 8))
    ++ (List.range 40).flatMap (fun c => leBytes 2 (rdFld s (R.CH_SPEED c) 15 0))
    ++ (List.range 16).flatMap (fun f => leBytes 2 (rdFld s (R.FLOW_RATE f) 15 0))
    ++ leBytes 8 (bitsOf 40 (chFailing s) + 2 ^ 40 * bitsOf 16 (fun f => rdBit s (R.FLOW_STAT f) 1))

/-- COOL_QUERY. -/
def fxCoolQuery (n : Nat) (_ : Bytes) (s : State) : State := replyDone n (coolReport s) s

def execCoolQuery (mb : Fin 16) (s : State) : Host.Outcome State Fault Refusal :=
  done (onOrder 0x0402 mb (fxCoolQuery mb) s)

/-- The leak report. -/
def leakReport (s : State) : Bytes :=
  leBytes 8 (loopBits s .leak 0 48) ++ leBytes 8 (loopBits s .lost 0 48) ++ leBytes 2 (bitsOf 16 (zoneActive s))
    ++ leBytes 2 (bitsOf 16 (zoneWarns s)) ++ zeros 4 ++ (List.range 48).flatMap (fun l => leBytes 4 (leakMeas s l).toNat)

/-- LEAK_QUERY. -/
def fxLeakQuery (n : Nat) (_ : Bytes) (s : State) : State := replyDone n (leakReport s) s

def execLeakQuery (mb : Fin 16) (s : State) : Host.Outcome State Fault Refusal :=
  done (onOrder 0x0404 mb (fxLeakQuery mb) s)

/-! COOL_OVERRIDE (R394) -/

/-- MS_LEFT of a new override: all ones where it holds until the next order. -/
def holdField (ms : Nat) : Nat := if ms = 0 then 0xFFFFFF else min ms 0xFFFFFE

/-- The duty that the loop or the curve requires of a channel. -/
def requiredDuty (s : State) (c : Nat) : Nat := max (rdFld s (R.CH_DUTY c) 7 0) (curveDuty s c)

/-- Set a channel's override for a time. -/
def coolOverride (n c d ms : Nat) (s : State) : State :=
  if 55 < c then badParam n 0 s
  else if 100 < d || d < requiredDuty s c then badParam n 1 s
  else if valveClosed s c then replyFail n St.DENIED_PRECEDENCE noDetail 0 s
  else replyDone n [] (setOutput (wr (R.CH_OVR c) (BitVec.ofNat 32 (256 * holdField ms + d)) s) c)

/-- COOL_OVERRIDE. -/
def fxCoolOverride (n : Nat) (p : Bytes) (s : State) : State := coolOverride n (leAt p 0 1) (leAt p 1 1) (leAt p 4 4) s

def execCoolOverride (mb : Fin 16) (s : State) : Host.Outcome State Fault Refusal :=
  done (onOrder 0x0403 mb (fxCoolOverride mb) s)

/-- SET_FAN: until the next order (R277). -/
def fxSetFan (n : Nat) (p : Bytes) (s : State) : State := coolOverride n (leAt p 0 1) (leAt p 1 1) 0 s

def execSetFan (mb : Fin 16) (s : State) : Host.Outcome State Fault Refusal := done (onCommand 8 mb (fxSetFan mb) s)

/-! LEAK_RESET (R399) -/

/-- Loops that raised the response of a zone. -/
def loopsOf (s : State) (z : Nat) : List Nat := (List.range 48).filter (fun l => (leakLoop s l).raised == some z)

/-- A response ends when every loop that raised it reads DRY and has been named. -/
def endResponse (z : Nat) (s : State) : State :=
  if (loopsOf s z).all (fun l => (leakLoop s l).cls == .dry && (leakLoop s l).named) then
    setOutput ((loopsOf s z).foldl (fun a l => setLoop l (fun x => { x with raised := none, named := false }) a) s) (40 + z)
  else s

/-- LEAK_RESET names a loop; of one that raised nothing it has no effect. -/
def fxLeakReset (n : Nat) (p : Bytes) (s : State) : State :=
  let l := leAt p 0 1
  if 47 < l then badParam n 0 s
  else if (leakLoop s l).cls ≠ .dry then replyFail n St.BAD_PARAM (fieldOff s n 0) 1 s
  else match (leakLoop s l).raised with
    | none => replyDone n [] s
    | some z =>
      let s1 := raise 1 10 l [] (setLoop l (fun x => { x with named := true }) s)
      replyDone n [] (endResponse z s1)

def execLeakReset (mb : Fin 16) (s : State) : Host.Outcome State Fault Refusal :=
  done (onOrder 0x0405 mb (fxLeakReset mb) s)

end Sys2Proof.Machine
end

