-- ==== Sys2Proof/Machine/OrdersSched.lean ====
section
/-! DEFINITION. Budget, assurance and Press orders (R275, 0x0501 to 0x0704).
Log entries coded here: 76 (DESIGN CHOICE), 77 (DEDUCED), 78 (DEDUCED), 79 (DEDUCED), 87 (DEDUCED), 92 (DEDUCED), 94
(DEDUCED), 95 (DEDUCED), 98 (DESIGN CHOICE), 178 (DESIGN CHOICE), 181 (DEDUCED), 213 (DEDUCED), 221 (DEDUCED). -/

namespace Sys2Proof.Machine

/-! CAP_SET and CAP_QUERY (R349) -/

/-- The pair of the rack or of the host. -/
def setCaps (rack : Bool) (cap floor : Nat) (s : State) : State :=
  if rack then wr R.BG_FLOOR_RACK (BitVec.ofNat 32 floor) (wr R.BG_CAP_RACK (BitVec.ofNat 32 cap) s)
  else wr R.BG_FLOOR_HOST (BitVec.ofNat 32 floor) (wr R.BG_CAP_HOST (BitVec.ofNat 32 cap) s)

/-- CAP_SET. -/
def fxCapSet (n : Nat) (p : Bytes) (s : State) : State :=
  let cap := leAt p 0 4
  let floor := leAt p 4 4
  if cap ≠ 0 && floor ≠ 0 && cap < floor then badParam n 4 s
  else replyDone n [] (setCaps (orderSource s n == 1) cap floor s)

def execCapSet (mb : Fin 16) (s : State) : Host.Outcome State Fault Refusal := done (onOrder 0x0501 mb (fxCapSet mb) s)

/-- GRANT[0..8], W. -/
def grantBytes (s : State) : Bytes := (List.range 9).flatMap (fun i => leBytes 4 (rdFld s (R.GRANT i) 15 0))

/-- CAP_QUERY. -/
def fxCapQuery (n : Nat) (_ : Bytes) (s : State) : State :=
  replyDone n (leBytes 4 ((capEff s).getD 0) ++ leBytes 4 (rdN s R.BG_CAP_RACK) ++ leBytes 4 (rdN s R.BG_CAP_HOST)
    ++ leBytes 4 (floorEff s).floor.toNat ++ grantBytes s) s

def execCapQuery (mb : Fin 16) (s : State) : Host.Outcome State Fault Refusal :=
  done (onOrder 0x0502 mb (fxCapQuery mb) s)

/-! Work items and the ledger report (R362 to R368) -/

/-- WORK_SUBMIT: the item waits; one whose condition holds already is released at once (R363, R369). -/
def fxWorkSubmit (n : Nat) (p : Bytes) (s : State) : State :=
  let mask := leAt p 8 1
  if mask = 0 then badParam n 8 s
  else if 1024 ≤ s.budget.items.length then replyFail n St.BUSY noDetail 0 s
  else
    let w : WorkItem := ⟨leAt p 0 8, mask, leAt p 12 4, leAt p 16 4, leAt p 24 8, now s⟩
    let s1 := { s with budget.items := s.budget.items ++ [w] }
    releaseGo s1.budget.items 0 (replyDone n [] s1)

def execWorkSubmit (mb : Fin 16) (s : State) : Host.Outcome State Fault Refusal :=
  done (onOrder 0x0503 mb (fxWorkSubmit mb) s)

/-- WORK_CANCEL (R364). -/
def fxWorkCancel (n : Nat) (p : Bytes) (s : State) : State :=
  let id := leAt p 0 8
  match s.budget.items.find? (fun w => w.id == id) with
  | some w => replyDone n [] { s with budget.items := s.budget.items.erase w }
  | none => replyFail n St.BAD_PARAM (fieldOff s n 0) (if s.budget.released.contains id then 1 else 2) s

def execWorkCancel (mb : Fin 16) (s : State) : Host.Outcome State Fault Refusal :=
  done (onOrder 0x0504 mb (fxWorkCancel mb) s)

/-- A signed 4-byte field; a value beyond it is not stated. -/
def signedField (s : State) (i : Nat) (x : Int) : Nat :=
  if -(2 ^ 31) ≤ x && x < 2 ^ 31 then (x % 2 ^ 32).toNat else Config.unstated 368 (16 * s.fresh + i) % 2 ^ 32

/-- Waiting plans of a class. -/
def waitCount (s : State) (cls : Nat) : Nat := (s.press.plans.filter (fun p => p.st == .waiting && p.cls == cls)).length

/-- The ledger report. -/
def ledgerReport (s : State) : Bytes :=
  leBytes 8 s.budget.interval ++ leBytes 4 ((capEff s).getD 0) ++ leBytes 4 s.budget.reserve.floor.toNat
    ++ leBytes 4 (rdN s R.QCAP) ++ leBytes 4 (signedField s 8 s.budget.heat) ++ leBytes 2 s.budget.items.length
    ++ (List.range 4).flatMap (fun c => leBytes 2 (waitCount s c))
    ++ leBytes 2 (b2n s.chip.rackThrottle + 2 * b2n s.budget.underFloor + 4 * b2n s.budget.pressHeld)
    ++ grantBytes s ++ (List.range 8).flatMap (fun a => leBytes 4 (signedField s a (balance s a)))
    ++ (List.range 9).flatMap (fun i => leBytes 4 (s.budget.meas.get {} i).floor.toNat)
    ++ leBytes 1 (bitsOf 8 (fun a => accCause s a != 0)) ++ zeros 3

/-- LEDGER_QUERY. -/
def fxLedgerQuery (n : Nat) (_ : Bytes) (s : State) : State := replyDone n (ledgerReport s) (takeFresh s)

def execLedgerQuery (mb : Fin 16) (s : State) : Host.Outcome State Fault Refusal :=
  done (onOrder 0x0505 mb (fxLedgerQuery mb) s)

/-! The policy and the replay registry (R158, R187, R491) -/

/-- The registers of ASSURE_POLICY with their places in its payload. -/
def policyRegs : List (Nat × Nat) :=
  (List.range 8).map (fun a => (R.RATE a, 4 * a)) ++ [(R.SAMPLE_BIAS, 32), (R.RECENCY_MS, 36), (R.SELF_WINDOW_MS, 40),
    (R.DELEGATE, 44)] ++ (List.range 8).map (fun k => (R.PEER k, 48 + 4 * k)) ++ [(R.AS_CTRL, 80)]

/-- ASSURE_POLICY. -/
def fxAssurePolicy (n : Nat) (p : Bytes) (s : State) : State :=
  replyDone n [] (policyRegs.foldl (fun a r => storeMasked r.1 (leAt p r.2 4) a) s)

def execAssurePolicy (mb : Fin 16) (s : State) : Host.Outcome State Fault Refusal :=
  done (onOrder 0x0601 mb (fxAssurePolicy mb) s)

/-- A plan image may lie there: in tray DRAM or the host window, aligned to 64 bytes (R115). -/
def imageAddrOk (s : State) (a len : Nat) : Bool :=
  a % 64 == 0 && (match placeOf s a len with
    | .dram _ => true
    | .host _ => true
    | _ => false)

/-- Length of a plan image (R116). -/
def imageLenOk (len : Nat) : Bool := 64 ≤ len && len ≤ 16777216

/-- The offset of the entry's first field that is not valid (R158, R275). -/
def entryBreak (s : State) (e : Bytes) : Option Nat :=
  if entStale e then some 76
  else if entNin e < 1 || 16 < entNin e then some 77
  else if !imageLenOk (entLen e) then some 72
  else if !imageAddrOk s (entAddr e) (entLen e) then some 64
  else none

/-- The registry with an entry added, or replaced. -/
def putEntry (e : Bytes) (es : List Bytes) : List Bytes := es.filter (fun x => entGraph x != entGraph e) ++ [e]

/-- REPLAY_REGISTER: capsules in PLAN_WAIT for the graph return to QUEUED (R163); an image in the host window is read now. -/
def fxReplayRegister (n : Nat) (p : Bytes) (s : State) : State :=
  let e := fix 128 p
  match entryBreak s e with
  | some o => badParam n o s
  | none =>
    if (entryOf s (entGraph e)).isNone && 4096 ≤ s.assure.registry.length then replyFail n St.BUSY noDetail 0 s
    else
      let s1 := pressRead 8 (entAddr e) (entLen e) { s with assure.registry := putEntry e s.assure.registry }
      let ws := s1.assure.caps.filter (fun c => c.st == .planWait && c.graph == entGraph e)
      replyDone n [] (ws.foldl (fun a c => toQueued c a) s1)

def execReplayRegister (mb : Fin 16) (s : State) : Host.Outcome State Fault Refusal :=
  done (onOrder 0x0602 mb (fxReplayRegister mb) s)

/-- REPLAY_REMOVE. -/
def fxReplayRemove (n : Nat) (p : Bytes) (s : State) : State :=
  let g := fix 64 p
  if (entryOf s g).isNone then badParam n 0 s
  else replyDone n [] { s with assure.registry := s.assure.registry.filter (fun x => entGraph x != g) }

def execReplayRemove (mb : Fin 16) (s : State) : Host.Outcome State Fault Refusal :=
  done (onOrder 0x0603 mb (fxReplayRemove mb) s)

/-! Jobs (R172, R173) -/

/-- Open capsules of a job and mode. -/
def openMode (s : State) (j m : Nat) : Nat := ((openOf s j).filter (fun c => c.mode == m)).length

/-- JOB_QUERY. -/
def fxJobQuery (n : Nat) (p : Bytes) (s : State) : State :=
  match jobOf s (leAt p 0 8) with
  | none => badParam n 0 s
  | some j => replyDone n (leBytes 8 j.id ++ leBytes 8 (lcsField j.lcs) ++ leBytes 2 (openMode s j.id 0)
      ++ leBytes 2 (openMode s j.id 1) ++ leBytes 1 (b2n j.frozen) ++ zeros 3) s

def execJobQuery (mb : Fin 16) (s : State) : Host.Outcome State Fault Refusal :=
  done (onOrder 0x0604 mb (fxJobQuery mb) s)

/-- L of JOB_ROLLBACK: all ones is NONE. -/
def stepField (v : Nat) : Option Nat := if v = 2 ^ 64 - 1 then none else some v

/-- A step is above L, NONE below every ordinal (R172). -/
def aboveStep (l : Option Nat) (x : Nat) : Bool :=
  match l with
  | none => true
  | some b => decide (b < x)

/-- L exceeds LCS. -/
def exceedsLcs (l lcs : Option Nat) : Bool :=
  match l with
  | none => false
  | some b => (match lcs with
    | none => true
    | some c => decide (c < b))

/-- The host has resumed a job at L: it is unfrozen, its ordinals above L are dropped, and its last clean step is L. -/
def rolledBack (l : Option Nat) (j : Job) : Job :=
  { j with lcs := l, frozen := false, cleans := j.cleans.filter (fun e => !aboveStep l e.2) }

/-- Carry out a rollback: open capsules with a step above L are withdrawn (R173). -/
def rollbackJob (j : Nat) (l : Option Nat) (s : State) : State :=
  advanceJob j (withdraw (fun c => c.job == j && decide (c.src.code < 8) && aboveStep l c.step) (setJob j (rolledBack l) s))

/-- JOB_ROLLBACK. -/
def fxJobRollback (n : Nat) (p : Bytes) (s : State) : State :=
  let l := stepField (leAt p 8 8)
  match jobOf s (leAt p 0 8) with
  | none => badParam n 0 s
  | some j =>
    if exceedsLcs l j.lcs then badParam n 8 s
    else
      let gone := ((openOf s j.id).filter (fun c => aboveStep l c.step)).length
      let s1 := rollbackJob j.id l s
      replyDone n (leBytes 8 j.id ++ leBytes 8 (lcsOf s1 j.id) ++ leBytes 4 gone ++ zeros 4) s1

def execJobRollback (mb : Fin 16) (s : State) : Host.Outcome State Fault Refusal :=
  done (onOrder 0x0605 mb (fxJobRollback mb) s)

/-- JOB_CLOSE frees a job with no open capsule, and an event records it (R187, R469). -/
def fxJobClose (n : Nat) (p : Bytes) (s : State) : State :=
  match jobOf s (leAt p 0 8) with
  | none => badParam n 0 s
  | some j =>
    if !(openOf s j.id).isEmpty then replyFail n St.BUSY noDetail 0 s
    else replyDone n [] (raise 9 6 noInst (leBytes 8 j.id ++ leBytes 8 (lcsField j.lcs))
      { s with assure.jobs := s.assure.jobs.filter (fun x => x.id != j.id) })

def execJobClose (mb : Fin 16) (s : State) : Host.Outcome State Fault Refusal :=
  done (onOrder 0x0606 mb (fxJobClose mb) s)

/-! CAPSULE_RELEASE (R169) -/

/-- A decision ends a capsule: FAULT_ACC as FAULTY-ACC, the others as UNRESOLVED with their meaning for LCS. -/
def releaseCap (c : Capsule) (d : Nat) (s : State) : State :=
  decideCap { c with hostDecision := d } (if d = 3 then Vd.FAULTY_ACC else Vd.UNRESOLVED) s

/-- CAPSULE_RELEASE. -/
def fxCapsuleRelease (n : Nat) (p : Bytes) (s : State) : State :=
  let a := leAt p 0 1
  let d := leAt p 1 1
  if 7 < a then badParam n 0 s
  else if d < 1 || 3 < d then badParam n 1 s
  else match capOf s (.acc a) (leAt p 8 8) with
    | none => badParam n 8 s
    | some c =>
      if c.st = .planWait || c.st = .hostWait then replyDone n [] (releaseCap c d s) else badParam n 8 s

def execCapsuleRelease (mb : Fin 16) (s : State) : Host.Outcome State Fault Refusal :=
  done (onOrder 0x0607 mb (fxCapsuleRelease mb) s)

/-! Tags and darns (R175, R177, R180) -/

/-- ACC_UNTAG. -/
def fxAccUntag (n : Nat) (p : Bytes) (s : State) : State :=
  if 7 < leAt p 0 1 then badParam n 0 s else replyDone n [] (clearTag (leAt p 0 1) s)

def execAccUntag (mb : Fin 16) (s : State) : Host.Outcome State Fault Refusal :=
  done (onOrder 0x0608 mb (fxAccUntag mb) s)

/-- An index entry, 32 bytes: DARN_ID, ORIGIN, KIND, FLAGS, HITS and the slot. -/
def darnEntry (d : Darn) : Bytes :=
  leBytes 16 d.id ++ leBytes 2 d.origin ++ leBytes 1 d.kind
    ++ leBytes 1 (b2n d.isLocal + 2 * b2n d.prepared + 4 * b2n d.quarantined) ++ leBytes 4 d.hits ++ leBytes 4 d.slot ++ zeros 4

/-- The most entries that one reply carries. -/
def mostDarns (n : Nat) : Nat := if n = 12 || n = 13 || n = 14 then 128 else 2048

/-- DARN_QUERY: entries from FIRST on, as many as the index holds. -/
def fxDarnQuery (n : Nat) (p : Bytes) (s : State) : State :=
  let c := leAt p 4 4
  if c < 1 || 2048 < c then badParam n 4 s
  else replyDone n (((s.assure.darns.drop (leAt p 0 4)).take (min c (mostDarns n))).flatMap darnEntry) s

def execDarnQuery (mb : Fin 16) (s : State) : Host.Outcome State Fault Refusal :=
  done (onOrder 0x0609 mb (fxDarnQuery mb) s)

/-- SELF_UNTAG. -/
def fxSelfUntag (n : Nat) (_ : Bytes) (s : State) : State :=
  replyDone n [] { s with assure.selfTag := false, assure.delegated := false }

def execSelfUntag (mb : Fin 16) (s : State) : Host.Outcome State Fault Refusal :=
  done (onOrder 0x060A mb (fxSelfUntag mb) s)

/-! Plans (R115, R137, R139, R265) -/

/-- A plan was submitted by an order. -/
def Plan.isHost (p : Plan) : Bool :=
  match p.owner with
  | .host _ _ => true
  | _ => false

/-- A plan has ended. -/
def Plan.ended (p : Plan) : Bool := p.st == .done || p.st == .fault || p.st == .aborted

/-- Accepted host plans that have not ended. -/
def hostPlans (s : State) : Nat := (s.press.plans.filter (fun p => p.isHost && !p.ended)).length

/-- HOME that a control core's own mailbox fixes. -/
def mailboxHome (n : Nat) : Option Nat := if 3 ≤ n && n ≤ 10 then some (n - 3) else none

/-- A plan enters the scheduler core's list as a host job, and its image is read where it lies in the host window. -/
def submitHost (n addr len : Nat) (s : State) : State :=
  let id := s.press.nextPlan
  let p : Plan := { id := id, owner := .host n (orderTag (mbox s n).req), cls := 2, since := now s, addr := addr, len := len,
                    fixedHome := mailboxHome n }
  pressRead 8 addr len (acceptLong (.planSubmit id) n
    { s with press.plans := s.press.plans ++ [p], press.nextPlan := id + 1 })

/-- PLAN_SUBMIT. A header in tray DRAM whose HOME is another than the mailbox's is refused here, one in the host window
when the plan is to start. -/
def fxPlanSubmit (n : Nat) (p : Bytes) (s : State) : State :=
  let a := leAt p 0 8
  let len := leAt p 8 4
  if !imageLenOk len then badParam n 8 s
  else if !imageAddrOk s a len then badParam n 0 s
  else if hostPlans s ≥ 256 then replyFail n St.BUSY noDetail 0 s
  else submitHost n a len s

def execPlanSubmit (mb : Fin 16) (s : State) : Host.Outcome State Fault Refusal :=
  done (onOrder 0x0701 mb (fxPlanSubmit mb) s)

/-- A host plan that an order on mailbox n may name: on MBX3 + c the plans of that cluster. -/
def planSeen (s : State) (n id : Nat) : Option Plan :=
  (planOf s id).filter (fun p => p.isHost && (match mailboxHome n with
    | some c => p.fixedHome == some c || (p.st != .waiting && p.clusters.contains c)
    | none => true))

/-- The header of a plan. -/
def planHead (s : State) (p : Plan) : Bytes := if p.image.isEmpty then planBytes s p (min 64 p.len) else p.image

/-- HOME of a plan's reply: where it stands, or what is fixed while it waits. -/
def homeShown (s : State) (p : Plan) : Nat := if p.st = .waiting then (homeFixed s p).getD 0xFF else p.home

/-- PLAN_QUERY. -/
def fxPlanQuery (n : Nat) (q : Bytes) (s : State) : State :=
  match planSeen s n (leAt q 0 8) with
  | none => badParam n 0 s
  | some p =>
    let h := planHead s p
    replyDone n (leBytes 8 p.id ++ leBytes 1 p.st.code ++ leBytes 1 (homeShown s p) ++ zeros 2 ++ leBytes 2 p.stagesDone
      ++ leBytes 2 (nStages h) ++ leBytes 8 (leAt h 48 8) ++ leBytes 1 p.flags ++ zeros 7) s

def execPlanQuery (mb : Fin 16) (s : State) : Host.Outcome State Fault Refusal :=
  done (onOrder 0x0702 mb (fxPlanQuery mb) s)

/-- PLAN_ABORT: a plan that waits leaves the queue, one that is loaded is discarded (R111). -/
def fxPlanAbort (n : Nat) (q : Bytes) (s : State) : State :=
  match planSeen s n (leAt q 0 8) with
  | none => badParam n 0 s
  | some p => if p.ended then badParam n 0 s else replyDone n [] (fxAbort p.id s)

def execPlanAbort (mb : Fin 16) (s : State) : Host.Outcome State Fault Refusal :=
  done (onOrder 0x0703 mb (fxPlanAbort mb) s)

/-! CLUSTER_CTRL (R104, R105, R111) -/

/-- An order that could not act on its cluster. -/
def ctrlFails (n c : Nat) (s : State) : State :=
  finishLong (.clusterCtrl c) St.FAULT (detail noDetail 0) (acceptLong (.clusterCtrl c) n s)

/-- Suspension: the order ends with the self-test that it starts. -/
def ctrlSuspend (n c : Nat) (s : State) : State :=
  if (cluster s c).st = .off then ctrlFails n c s else suspendCluster c (acceptLong (.clusterCtrl c) n s)

/-- Resumption; while a self-test runs it waits for it. -/
def ctrlResume (n c : Nat) (s : State) : State :=
  let k := cluster s c
  if k.st = .selftest then fxResume c (acceptLong (.clusterCtrl (8 + c)) n s)
  else if k.st = .off || (k.st = .suspended && !rdBit s (R.SELFTEST_RESULT c) 30) then ctrlFails n c s
  else finishLong (.clusterCtrl (8 + c)) St.DONE [] (fxResume c (acceptLong (.clusterCtrl (8 + c)) n s))

/-- A self-test, only while IDLE or SUSPENDED. -/
def ctrlTest (n c : Nat) (s : State) : State :=
  if (cluster s c).st = .idle || (cluster s c).st = .suspended then startSelftest c (acceptLong (.clusterCtrl c) n s)
  else replyFail n St.BUSY noDetail 0 s

/-- CLUSTER_CTRL. -/
def fxClusterCtrl (n : Nat) (p : Bytes) (s : State) : State :=
  let c := leAt p 0 1
  let a := leAt p 1 1
  if 7 < c then badParam n 0 s
  else if 2 < a then badParam n 1 s
  else if a = 0 then ctrlSuspend n c s
  else if a = 1 then ctrlResume n c s
  else ctrlTest n c s

def execClusterCtrl (mb : Fin 16) (s : State) : Host.Outcome State Fault Refusal :=
  done (onOrder 0x0704 mb (fxClusterCtrl mb) s)

end Sys2Proof.Machine
end

