-- ==== Sys2Proof/Machine/OrdersSec.lean ====
section
/-! DEFINITION. Event, configuration, firmware and security orders (R275, 0x0801 to 0x0908).
Log entries coded here: 47 (DEDUCED), 198 (DEDUCED), 204 (DEDUCED), 206 (DEDUCED), 207 (DEDUCED), 208 (DEDUCED), 209
(DEDUCED), 210 (DEDUCED), 211 (DEDUCED), 275 (DEDUCED). -/

namespace Sys2Proof.Machine

/-! EVENT_READ and EVENT_CLEAR (R472, R473) -/

/-- The records of an area. -/
def areaRecords (s : State) (area : Nat) : List EvRec := if area = 0 then s.rcd.keep else s.rcd.tumble

/-- The most bytes of records that one reply carries (R472). -/
def mostRecords (n : Nat) : Nat := if n = 12 || n = 13 || n = 14 then 4096 else 65504

/-- Whole records while they fit. -/
def takeRecords (rs : List Bytes) (room : Nat) : Bytes :=
  match rs with
  | [] => []
  | r :: t => if r.length ≤ room then r ++ takeRecords t (room - r.length) else []

/-- EVENT_READ. -/
def fxEventRead (n : Nat) (p : Bytes) (s : State) : State :=
  let area := leAt p 0 1
  let most := leAt p 8 4
  if 1 < area then badParam n 0 s
  else if most < 512 then badParam n 8 s
  else
    let rs := ((areaRecords s area).filter (fun r => decide (leAt p 4 4 ≤ r.seq))).map recCopy
    replyDone n (takeRecords rs (min most (mostRecords n))) s

def execEventRead (mb : Fin 16) (s : State) : Host.Outcome State Fault Refusal :=
  done (onOrder 0x0801 mb (fxEventRead mb) s)

/-- Tumble's start moves to the commit pointer, every coalescer entry flushed before; the CLEARED record is the next to be
written, and what waits follows it (R473). -/
def clearTumble (ref src seq : Nat) (r : Recorder) (t : Nat) : Recorder :=
  let f := flushAll r
  let count := f.clearCount + 1
  let first := (f.tumble.head?.map (fun x => x.seq)).getD 0
  let last := (f.tumble.getLast?.map (fun x => x.seq)).getD 0
  let e : Ev := ⟨13, 1, noInst, true, leBytes 8 ref ++ leBytes 2 src ++ zeros 2 ++ leBytes 4 seq ++ leBytes 4 first
    ++ leBytes 4 last ++ leBytes 4 count, none⟩
  takeEntry e t { f with tumble := [], firstPage := f.page, clearCount := count, queue := e :: f.queue }

/-- EVENT_CLEAR. -/
def fxEventClear (n : Nat) (_ : Bytes) (s : State) : State :=
  let req := (mbox s n).req
  replyDone n [] { s with rcd := clearTumble (reqAuthRef req) (orderSource s n) (reqSequence req) s.rcd (now s) }

def execEventClear (mb : Fin 16) (s : State) : Host.Outcome State Fault Refusal :=
  done (onOrder 0x0802 mb (fxEventClear mb) s)

/-! CONFIG_STAGE, CONFIG_ACTIVATE, ROLLBACK, CONFIG_QUERY (R482 to R489) -/

/-- A staging or an activation is under way. -/
def cfgBusy (s : State) : Bool := s.cfg.job != .none

/-- The image goes into its slot, which reads EMPTY meanwhile. -/
def beginStage (n : Nat) (img : Bytes) (s : State) : State :=
  let k := stageSlot s
  let s1 := setSlotState k 0 s
  acceptLong .configStage n { s1 with cfg.job := .staging k img n (orderTag (mbox s n).req) }

/-- Checks of R482, then BUSY. -/
def stageChecked (n len : Nat) (img : Bytes) (s : State) : State :=
  let (st, o, why) := cfgStatus s len img
  if st ≠ St.DONE then replyFail n st o why s
  else if cfgBusy s || s.cfg.probation then replyFail n St.BUSY noDetail 0 s
  else beginStage n img s

/-- CONFIG_STAGE. -/
def fxConfigStage (n : Nat) (image p : Bytes) (s : State) : State :=
  let a := leAt p 0 8
  let len := leAt p 8 4
  if !fwAdmits s (orderMaster s n) a len false then replyFail n St.DENIED_AUTH (fieldOff s n 0) 0 s
  else if 33554432 < len then replyFail n St.BAD_LENGTH noDetail 0 s
  else if placeOf s a len = .none then badParam n 0 s
  else match fetchImage a len image s with
    | (t, some img) => stageChecked n len img t
    | (t, none) => replyFail n St.FAULT (fieldOff t n 0) 0 t

def execConfigStage (mb : Fin 16) (image : Bytes) (s : State) : Host.Outcome State Fault Refusal :=
  done (onOrder 0x0803 mb (fxConfigStage mb image) s)

/-- The STAGED slot that holds a generation. -/
def stagedSlot (s : State) (gen : Nat) : Option Nat := [0, 1].find? (fun i => slotState s i == 1 && slotGen s i == gen)

/-- An activation is deferred: DEFERRED at once, a COMPLETION notice when it has been applied (R440, R484). -/
def deferCfg (n slot : Nat) (rollback : Bool) (s : State) : State :=
  let t := orderTag (mbox s n).req
  replyFail n St.DEFERRED noDetail 0
    { s with cfg.job := .pending slot rollback n t, longs := s.longs ++ [⟨.configActivate, n, t, false⟩] }

/-- CONFIG_ACTIVATE. -/
def fxConfigActivate (n : Nat) (p : Bytes) (s : State) : State :=
  match stagedSlot s (leAt p 0 4) with
  | none => replyFail n St.BAD_PARAM (fieldOff s n 0) 1 s
  | some slot =>
    if s.chip.tray ≠ .standby || s.cfg.probation || cfgBusy s then replyFail n St.BUSY noDetail 0 s
    else if emergLatches s ≠ 0 then deferCfg n slot false s
    else acceptLong .configActivate n { s with cfg.job := .pending slot false n (orderTag (mbox s n).req) }

def execConfigActivate (mb : Fin 16) (s : State) : Host.Outcome State Fault Refusal :=
  done (onOrder 0x0804 mb (fxConfigActivate mb) s)

/-- ROLLBACK activates the PREVIOUS slot at once, or when the latches clear. -/
def fxRollbackOrder (n : Nat) (_ : Bytes) (s : State) : State :=
  match previousSlot s with
  | none => replyFail n St.BAD_PARAM noDetail 1 s
  | some k =>
    if s.chip.tray ≠ .standby || cfgBusy s then replyFail n St.BUSY noDetail 0 s
    else if emergLatches s ≠ 0 then deferCfg n k true s
    else if !ownerImageOk s (cfgImage s k) then replyFail n St.FAULT noDetail 1 (fxActivate k true s)
    else replyDone n (leBytes 4 (imageGen (cfgImage s k))) (fxActivate k true s)

def execRollback (mb : Fin 16) (s : State) : Host.Outcome State Fault Refusal :=
  done (onOrder 0x0805 mb (fxRollbackOrder mb) s)

/-- The CONFIG_QUERY reply. -/
def cfgReport (s : State) : Bytes :=
  leBytes 4 (activeGen s) ++ leBytes 4 (slotGen s 0) ++ leBytes 4 (slotGen s 1) ++ zeros 4 ++ leBytes 1 s.cfg.state0
    ++ leBytes 1 s.cfg.state1 ++ leBytes 1 s.cfg.active ++ leBytes 1 s.cfg.fails
    ++ leBytes 1 (b2n s.cfg.probation + 2 * b2n (cfgPend s) + 4 * b2n s.cfg.rollbackDue + 8 * b2n s.cfg.fallback
        + 16 * b2n s.cfg.passed0 + 32 * b2n s.cfg.passed1)
    ++ zeros 3 ++ leBytes 8 s.cfg.ownerRef

/-- CONFIG_QUERY. -/
def fxConfigQuery (n : Nat) (_ : Bytes) (s : State) : State := replyDone n (cfgReport s) s

def execConfigQuery (mb : Fin 16) (s : State) : Host.Outcome State Fault Refusal :=
  done (onOrder 0x0806 mb (fxConfigQuery mb) s)

/-! ATTEST and KEY_QUERY (R446, R448, R451) -/

/-- What the report tells of a core: SLOT, SVN, VERSION and MEASURE of the image it runs, zeros of none. -/
def coreReport (s : State) (k : Nat) : Bytes :=
  let img := (coreSt s k).image
  leBytes 1 (runningSlot s k) ++ zeros 3 ++ leBytes 4 (fwSvn img) ++ fix 8 (slice img 16 8)
    ++ (if img.isEmpty then zeros 64 else sha512 img)

/-- FLAGS of the report. -/
def attestFlags (s : State) : Nat :=
  b2n s.sec.debugUnlocked + 2 * b2n s.assure.selfTag + 4 * b2n ((List.range 11).any (fun k => (coreSt s k).fallback))
    + 8 * b2n (s.sec.pinned != 0) + 16 * b2n (tightened s)

/-- Bytes 0 to 1,103 of the attestation report. -/
def attestBody (s : State) (nonce : Bytes) : Bytes :=
  leBytes 4 0x54535441 ++ leBytes 1 1 ++ leBytes 1 (attestFlags s) ++ leBytes 2 (nodeId s) ++ leBytes 4 chipId
    ++ leBytes 4 s.aon.powerCycles ++ fix 16 Config.serialNumber ++ leBytes 8 (now s)
    ++ leBytes 8 (if s.time.valid then taiNow s else 0) ++ leBytes 4 (activeGen s) ++ leBytes 4 s.sec.epoch
    ++ leBytes 2 s.aon.vcoreEff ++ leBytes 2 s.aon.iclkEff ++ leBytes 1 s.aon.tjEff ++ leBytes 1 s.chip.tray.code
    ++ leBytes 2 s.aon.coreDown.toNat ++ fix 32 nonce ++ fix 64 (sha512 s.cfg.loaded)
    ++ (List.range 11).flatMap (coreReport s) ++ fix 64 Config.romHash

/-- ATTEST. -/
def fxAttest (n : Nat) (p : Bytes) (s : State) : State :=
  if !secOperational s then replyFail n St.FAULT noDetail 2 s
  else
    let b := attestBody s p
    replyDone n (b ++ signWith s 1 b) (countSign s)

def execAttest (mb : Fin 16) (s : State) : Host.Outcome State Fault Refusal := done (onOrder 0x0901 mb (fxAttest mb) s)

/-- KEY_QUERY. -/
def fxKeyQuery (n : Nat) (p : Bytes) (s : State) : State :=
  let k := leAt p 0 1
  if 2 < k then badParam n 0 s
  else if !secOperational s then replyFail n St.FAULT noDetail 2 s
  else replyDone n (fix 32 (keyPublic s k) ++ keyCert s k) s

def execKeyQuery (mb : Fin 16) (s : State) : Host.Outcome State Fault Refusal :=
  done (onOrder 0x0902 mb (fxKeyQuery mb) s)

/-! FW_STAGE and FW_ACTIVATE (R438 to R440) -/

/-- Cores of a mask. -/
def maskCores (m : Nat) : List Nat := (List.range 11).filter (fun k => m.testBit k)

/-- Some core of a class runs from a slot; a restart of it would load the image again from there. -/
def slotRuns (s : State) (cls slot : Nat) : Bool :=
  (classCores cls).any (fun k => !(coreSt s k).image.isEmpty && runningSlot s k == slot)

/-- The checks of R438 on an image that has been read. -/
def fwStageChecked (n mask slot : Nat) (img : Bytes) (s : State) : State :=
  let cls := leAt img 5 1
  if 2048 ≤ mask || (maskCores mask).any (fun k => coreClass k != cls) then replyFail n St.BAD_PARAM (fieldOff s n 0) 1 s
  else if !fwVerifies s cls img then replyFail n St.BAD_PARAM (fieldOff s n 4) 2 s
  else if slotRuns s cls slot then replyFail n St.BUSY noDetail 0 s
  else acceptLong (.fwStage cls slot (fwWhole img)) n s

/-- FW_STAGE. -/
def fxFwStage (n : Nat) (image p : Bytes) (s : State) : State :=
  let a := leAt p 4 8
  let len := leAt p 12 4
  if !fwAdmits s (orderMaster s n) a len false then replyFail n St.DENIED_AUTH (fieldOff s n 4) 0 s
  else if 1 < leAt p 2 1 then badParam n 2 s
  else if 16777216 < len then replyFail n St.BAD_PARAM (fieldOff s n 12) 2 s
  else if placeOf s a len = .none then badParam n 4 s
  else match fetchImage a len image s with
    | (t, some img) => fwStageChecked n (leAt p 0 2) (leAt p 2 1) img t
    | (t, none) => replyFail n St.FAULT (fieldOff t n 4) 0 t

def execFwStage (mb : Fin 16) (image : Bytes) (s : State) : Host.Outcome State Fault Refusal :=
  done (onOrder 0x0903 mb (fxFwStage mb image) s)

/-- The slot's image of every class that a mask names verifies. -/
def slotVerifies (s : State) (mask slot : Nat) : Bool :=
  (maskCores mask).all (fun k => fwVerifies s (coreClass k) (fwImage s (coreClass k) slot))

/-- FW_ACTIVATE: deferred while a latch is set, else the cores restart one at a time. -/
def fxFwActivate (n : Nat) (p : Bytes) (s : State) : State :=
  let mask := leAt p 0 2
  let slot := leAt p 2 1
  let t := orderTag (mbox s n).req
  if 2048 ≤ mask then badParam n 0 s
  else if 1 < slot then badParam n 2 s
  else if !slotVerifies s mask slot then replyFail n St.BAD_PARAM (fieldOff s n 2) 2 s
  else if s.aon.pendAct.isSome || s.aon.acting.isSome then replyFail n St.BUSY noDetail 0 s
  else if emergLatches s ≠ 0 then
    replyFail n St.DEFERRED noDetail 0
      { s with aon.pendAct := some ⟨slot, mask, n, t⟩, longs := s.longs ++ [⟨.fwActivate, n, t, false⟩] }
  else startActivation ⟨slot, mask, n, t⟩ (acceptLong .fwActivate n s)

def execFwActivate (mb : Fin 16) (s : State) : Host.Outcome State Fault Refusal :=
  done (onOrder 0x0904 mb (fxFwActivate mb) s)

/-! CORE_RESTART, UNPIN, STARCH_TIGHTEN (R431, R444, R455) -/

/-- A core is no longer held and its STOPS are none; a running one stops, and restarts under R429. -/
def restartCore (k : Nat) (s : State) : State :=
  let s1 := setCore k (fun c => { c with stops := [] }) { s with aon.coreHeld := s.aon.coreHeld &&& ~~~(1#11 <<< k) }
  if coreUp k s1 then stopCore k Stop.ORDER false s1 else s1

/-- CORE_RESTART: the reply is written before the core stops. -/
def fxCoreRestart (n : Nat) (p : Bytes) (s : State) : State :=
  let k := leAt p 0 1
  if 10 < k then badParam n 0 s else restartCore k (replyDone n [] s)

def execCoreRestart (mb : Fin 16) (s : State) : Host.Outcome State Fault Refusal :=
  done (onOrder 0x0905 mb (fxCoreRestart mb) s)

/-- UNPIN: the master resumes; a core restarts under R429. -/
def fxUnpin (n : Nat) (p : Bytes) (s : State) : State :=
  let m := leAt p 0 2
  if !isPinned s m then badParam n 0 s
  else replyDone n [] { s with sec.pinned := s.sec.pinned &&& ~~~(1#37 <<< m) }

def execUnpin (mb : Fin 16) (s : State) : Host.Outcome State Fault Refusal := done (onOrder 0x0906 mb (fxUnpin mb) s)

/-- The first field of STARCH_TIGHTEN out of its range (R442). -/
def starchBadField (vcore iclk tj : Nat) : Option Nat :=
  if !starchRange vcore 0 0 then some 0
  else if !starchRange 0 iclk 0 then some 2
  else if !starchRange 0 0 tj then some 4
  else none

/-- The first field that would loosen its limit. -/
def starchLoosens (s : State) (vcore iclk tj : Nat) : Option Nat :=
  if s.aon.vcoreEff < vcore then some 0
  else if s.aon.iclkEff < iclk then some 2
  else if s.aon.tjEff < tj then some 4
  else none

/-- STARCH_TIGHTEN. -/
def fxStarchTighten (n : Nat) (p : Bytes) (s : State) : State :=
  let v := leAt p 0 2
  let i := leAt p 2 2
  let t := leAt p 4 1
  match starchBadField v i t, starchLoosens s v i t with
  | some o, _ => badParam n o s
  | none, some o => replyFail n St.DENIED_STARCH (fieldOff s n o) 0 s
  | none, none => replyDone n [] (tighten v i t s)

def execStarchTighten (mb : Fin 16) (s : State) : Host.Outcome State Fault Refusal :=
  done (onOrder 0x0907 mb (fxStarchTighten mb) s)

/-! DEBUG_UNLOCK (R456, R457) -/

/-- The waiting closed batches are signed with the metering key that stands. -/
def signWaiting (fuel : Nat) (s : State) : State :=
  match fuel with
  | 0 => s
  | k + 1 => match unsigned s with
    | some b => signWaiting k (signBatch b s)
    | none => s

/-- The unlock: the port opens until cold reset and the keys of the old epoch are never used again. -/
def unlock (s : State) : State :=
  let s1 := if secOperational s then signWaiting s.meter.batches.length s else s
  raise 11 8 noInst [] { s1 with sec.debugUnlocked := true, sec.epoch := s1.sec.epoch + 1 }

/-- DEBUG_UNLOCK. -/
def fxDebugUnlock (n : Nat) (p : Bytes) (s : State) : State :=
  if !Config.edVerify Config.debugKey (s.sec.challenge ++ fix 16 Config.serialNumber) (fix 64 p) then
    replyFail n St.DENIED_AUTH (fieldOff s n 0) 0 (raise 8 1 noInst (fix 32 ((mbox s n).req.take 32)) s)
  else if s.chip.tray ≠ .standby then replyFail n St.BUSY noDetail 0 s
  else replyDone n [] (unlock s)

def execDebugUnlock (mb : Fin 16) (s : State) : Host.Outcome State Fault Refusal :=
  done (onOrder 0x0908 mb (fxDebugUnlock mb) s)

end Sys2Proof.Machine
end

