-- ==== Sys2Proof/Machine/PressRun.lean ====
section
/-! DEFINITION. The end of a phase of a plan (R117): register space that its stages read and write, the results and their
stores; and the retry of accesses that were answered ABSENT (R107).
Log entries coded here: 64 (DEDUCED), 65 (DEDUCED), 66 (DESIGN CHOICE), 238 (DESIGN CHOICE), 241 (DESIGN CHOICE). -/

namespace Sys2Proof.Machine

/-! Register space -/

/-- Fetch `k` words of register space for a cluster's plan, one access each; a word of an island that went down meanwhile
reads as nothing. -/
def fetchRegs (c off k : Nat) (s : State) : State :=
  match k with
  | 0 => s
  | j + 1 =>
    let t := if regAnswers s off then
        let r := fetchWords 1 off s
        extWrite c (regBase + off) r.1 r.2
      else s
    fetchRegs c (off + 4) j t

/-- The words of register space that the phase's stages read are fetched, in stage order. -/
def fetchPhaseRegs (p : Plan) (s : State) : State :=
  (phaseStages p.image p.phase).foldl (fun a i =>
    (stageReads p.image (stageRec p.image i)).foldl (fun b t =>
      (p.tensorRanges t).foldl (fun d r => match placeOf d r.1 r.2 with
        | .reg off => fetchRegs p.home (off / 4 * 4) ((off % 4 + r.2 + 3) / 4) d
        | _ => d) b) a) s

/-- Write a run of bytes of register space by master m: word by word; bytes of a word beside the run are written as the word
reads. The spec gives no narrower access of a register. DESIGN CHOICE. -/
def storeRegRun (m a : Nat) (bs : Bytes) (s : State) : State :=
  let off := a - regBase
  let lo := off / 4 * 4
  let n := (off % 4 + bs.length + 3) / 4
  let full : Bytes :=
    if off % 4 = 0 && bs.length % 4 = 0 then bs
    else
      let old := (fetchWords n lo s).1
      old.take (off % 4) ++ bs ++ old.drop (off % 4 + bs.length)
  storeWords m lo full n s

/-- Carry out the writes of register space that STORE stages have issued. -/
def flushRegs (s : State) : State :=
  s.press.regWrites.foldl (fun a w => storeRegRun w.1 w.2.1 w.2.2 a) { s with press.regWrites := [] }

/-! The end of a phase -/

/-- Tray-code errors that the irons corrected while the phase ran, in SRAM words that it read and in words of streams and
data-plane channels: written back and counted (R81, R95). -/
def countCorrected (cs : List (Nat × Nat)) (s : State) : State :=
  cs.foldl (fun a e =>
    if e.2 = 0 then a
    else setBits (R.IRON_ERR (e.1 / 24 % 8) (e.1 % 24)) 4 (bumpBy (R.CL_CNT_TC_CORR (e.1 / 24 % 8)) e.2 a)) s

/-- A store of the phase into tray DRAM was refused in part: an uncorrectable word stands in its range (R202). -/
def storesHurt (p : Plan) (s : State) : Bool :=
  (phaseStages p.image p.phase).any (fun i => (stageWrites (stageRec p.image i)).any (fun t =>
    (p.tensorRanges t).any (fun r => match placeOf s r.1 r.2 with
      | .dram d => dramHurt s d r.2
      | _ => false)))

/-- Every stage of the phase has completed its last beat: the results stand; once the stores beyond this node are
acknowledged, the next phase is bound or the plan is complete (R117). A STORE that receives an error other than ABSENT ends the plan
with FAULT. -/
def fxPhaseComplete (p : Plan) (corrected : List (Nat × Nat)) (s : State) : State :=
  if p.stored then nextPhase p.id s
  else
    let r := runPhase p.id (fetchPhaseRegs p (countCorrected corrected s))
    let t := flushRegs r.st
    if r.failed || storesHurt p t then endPlan p.id .fault 0 t
    else if (planOf t p.id).any (fun q => q.st == .running) then
      (if pressBusy t p.home then setPlan p.id (fun q => { q with stored := true }) t else nextPhase p.id t)
    else t

def execPhaseComplete (ended : PhaseEnd) (s : State) : Host.Outcome State Fault Refusal :=
  done (match runningPlan s ended.cluster with
    | some p => if pressBusy s ended.cluster || s.press.hashWait.any (fun h => h.1 == p.id) then s
      else fxPhaseComplete p ended.corrected s
    | none => s)

/-! Retry -/

/-- An access of a Press stage that was answered ABSENT is made again (R107). -/
def reissue (r : Remote) (s : State) : State :=
  if r.port = 12 then hostRequest r.win r.addr r.len r.data r.owner s
  else if r.port = 13 then
    (match r.owner with
     | .press c _ => if r.write then pressWrite c r.win r.addr r.data s else pressReadPiece c r.win r.addr r.len s
     | _ => s)
  else issueRemote r.port r.write r.dst r.win r.addr r.len r.data r.owner s

/-- Retry every access of an owner that was answered ABSENT. -/
def retryAbsent (p : Owner → Bool) (s : State) : State :=
  let mine := s.torus.absent.filter (fun r => p r.owner)
  flushRegs (mine.foldl (fun a r => reissue r a) { s with torus.absent := s.torus.absent.filter (fun r => !p r.owner) })

def execAbsentRetry (c : Fin 9) (answered : Bool) (s : State) : Host.Outcome State Fault Refusal :=
  done (if answered then retryAbsent (fun o => o.ofPress c) s else s)

end Sys2Proof.Machine
end

