-- ==== Sys2Proof/Machine/Dispatch.lean ====
section
/-! DEFINITION. The dispatch of a command to its meaning, one arm per constructor. -/

namespace Sys2Proof.Machine

/-- The effect of one command on everything but the queue. -/
def exec (i : Instr) (s : State) : Host.Outcome State Fault Refusal :=
  match i with
  | .sysrstNLow pulseNs taken board => Sys2Proof.Machine.execSysrstNLow pulseNs taken board s
  | .sysrstNRelease selfTest adopt => Sys2Proof.Machine.execSysrstNRelease selfTest adopt s
  | .secFirmwareRunning => Sys2Proof.Machine.execSecFirmwareRunning s
  | .bootComplete => Sys2Proof.Machine.execBootComplete s
  | .vaonLeavesWindow => Sys2Proof.Machine.execVaonLeavesWindow s
  | .vstbyLow => Sys2Proof.Machine.execVstbyLow s
  | .vstbyRestored => Sys2Proof.Machine.execVstbyRestored s
  | .pfailNFall => Sys2Proof.Machine.execPfailNFall s
  | .refclkLost => Sys2Proof.Machine.execRefclkLost s
  | .refclkReturned => Sys2Proof.Machine.execRefclkReturned s
  | .xtalStopped => Sys2Proof.Machine.execXtalStopped s
  | .xtalReturned => Sys2Proof.Machine.execXtalReturned s
  | .optimeTick => Sys2Proof.Machine.execOptimeTick s
  | .rackPermitLow => Sys2Proof.Machine.execRackPermitLow s
  | .rackPermitHigh => Sys2Proof.Machine.execRackPermitHigh s
  | .rackOffNLow => Sys2Proof.Machine.execRackOffNLow s
  | .rackOffNHigh => Sys2Proof.Machine.execRackOffNHigh s
  | .rackThrottleNLow => Sys2Proof.Machine.execRackThrottleNLow s
  | .rackThrottleNHigh => Sys2Proof.Machine.execRackThrottleNHigh s
  | .sequencingUpStart => Sys2Proof.Machine.execSequencingUpStart s
  | .sequencingUpEnd => Sys2Proof.Machine.execSequencingUpEnd s
  | .reverseSequenceEnd => Sys2Proof.Machine.execReverseSequenceEnd s
  | .aonTripSequenceEnd => Sys2Proof.Machine.execAonTripSequenceEnd s
  | .tripRestart => Sys2Proof.Machine.execTripRestart s
  | .islandDrained island => Sys2Proof.Machine.execIslandDrained island s
  | .gradientCheck => Sys2Proof.Machine.execGradientCheck s
  | .registerWrite master addr value => Sys2Proof.Machine.execRegisterWrite master addr value s
  | .suspend cluster => Sys2Proof.Machine.execSuspend cluster s
  | .resume cluster => Sys2Proof.Machine.execResume cluster s
  | .selftest cluster => Sys2Proof.Machine.execSelftest cluster s
  | .abort cluster => Sys2Proof.Machine.execAbort cluster s
  | .clFreqWrite cluster value => Sys2Proof.Machine.execClFreqWrite cluster value s
  | .bridgeCtrlWrite cluster value => Sys2Proof.Machine.execBridgeCtrlWrite cluster value s
  | .planLoad cluster => Sys2Proof.Machine.execPlanLoad cluster s
  | .scratchSpaceFreed cluster => Sys2Proof.Machine.execScratchSpaceFreed cluster s
  | .phaseComplete ended => Sys2Proof.Machine.execPhaseComplete ended s
  | .checkFailure cluster iron kind unit => Sys2Proof.Machine.execCheckFailure cluster iron kind unit s
  | .quickTestComplete cluster pass => Sys2Proof.Machine.execQuickTestComplete cluster pass s
  | .selftestComplete cluster badIrons badUp badDown => Sys2Proof.Machine.execSelftestComplete cluster badIrons badUp badDown s
  | .restartTimeout cluster => Sys2Proof.Machine.execRestartTimeout cluster s
  | .sourcePoisonReload cluster iron still => Sys2Proof.Machine.execSourcePoisonReload cluster iron still s
  | .stall1s cluster => Sys2Proof.Machine.execStall1s cluster s
  | .absentRetry cluster answered => Sys2Proof.Machine.execAbsentRetry cluster answered s
  | .sramScrub cluster iron corrected uncorrectable => Sys2Proof.Machine.execSramScrub cluster iron corrected uncorrectable s
  | .hashEngineGrant => Sys2Proof.Machine.execHashEngineGrant s
  | .clusterPowerUp cluster => Sys2Proof.Machine.execClusterPowerUp cluster s
  | .clusterPowerDown cluster => Sys2Proof.Machine.execClusterPowerDown cluster s
  | .stepOpen acc payload => Sys2Proof.Machine.execStepOpen acc payload s
  | .capsule acc payload => Sys2Proof.Machine.execCapsule acc payload s
  | .capsuleFetchComplete src capsule => Sys2Proof.Machine.execCapsuleFetchComplete src capsule s
  | .replayComplete src capsule => Sys2Proof.Machine.execReplayComplete src capsule s
  | .peerPlanCopyComplete src capsule => Sys2Proof.Machine.execPeerPlanCopyComplete src capsule s
  | .thirdReq node payload => Sys2Proof.Machine.execThirdReq node payload s
  | .thirdExecutionComplete node req => Sys2Proof.Machine.execThirdExecutionComplete node req s
  | .thirdResult node payload => Sys2Proof.Machine.execThirdResult node payload s
  | .peerRetry src capsule => Sys2Proof.Machine.execPeerRetry src capsule s
  | .verdictDelivered src capsule => Sys2Proof.Machine.execVerdictDelivered src capsule s
  | .darnCaptureComplete src capsule => Sys2Proof.Machine.execDarnCaptureComplete src capsule s
  | .darnOffer seam payload => Sys2Proof.Machine.execDarnOffer seam payload s
  | .darnFetchComplete darn => Sys2Proof.Machine.execDarnFetchComplete darn s
  | .darnPreparationComplete darn => Sys2Proof.Machine.execDarnPreparationComplete darn s
  | .darnWant seam payload => Sys2Proof.Machine.execDarnWant seam payload s
  | .screenResult acc payload => Sys2Proof.Machine.execScreenResult acc payload s
  | .delegateCapsule node payload => Sys2Proof.Machine.execDelegateCapsule node payload s
  | .delegateVerdict node payload => Sys2Proof.Machine.execDelegateVerdict node payload s
  | .dramRead addr master err1 err2 => Sys2Proof.Machine.execDramRead addr master err1 err2 s
  | .dramWrite addr store err => Sys2Proof.Machine.execDramWrite addr store err s
  | .patrolScrubRead stack err1 err2 => Sys2Proof.Machine.execPatrolScrubRead stack err1 err2 s
  | .scrubNow => Sys2Proof.Machine.execScrubNow s
  | .scrubPassComplete stack => Sys2Proof.Machine.execScrubPassComplete stack s
  | .dramTempRead stack temps => Sys2Proof.Machine.execDramTempRead stack temps s
  | .refreshBandLower stack => Sys2Proof.Machine.execRefreshBandLower stack s
  | .tcModeWrite value => Sys2Proof.Machine.execTcModeWrite value s
  | .memTrainingComplete stack ok => Sys2Proof.Machine.execMemTrainingComplete stack ok s
  | .memZeroFillComplete stack => Sys2Proof.Machine.execMemZeroFillComplete stack s
  | .portEnable port => Sys2Proof.Machine.execPortEnable port s
  | .portRetrainRequest port => Sys2Proof.Machine.execPortRetrainRequest port s
  | .lanesTrained port inverted => Sys2Proof.Machine.execLanesTrained port inverted s
  | .flitAligned port => Sys2Proof.Machine.execFlitAligned port s
  | .linkId port payload => Sys2Proof.Machine.execLinkId port payload s
  | .linkMap seam payload => Sys2Proof.Machine.execLinkMap seam payload s
  | .keyCert seam payload => Sys2Proof.Machine.execKeyCert seam payload s
  | .trainingTimeout port => Sys2Proof.Machine.execTrainingTimeout port s
  | .downRetry port => Sys2Proof.Machine.execDownRetry port s
  | .identRecheck seam => Sys2Proof.Machine.execIdentRecheck seam s
  | .portFailure port align => Sys2Proof.Machine.execPortFailure port align s
  | .retrainComplete port ok => Sys2Proof.Machine.execRetrainComplete port ok s
  | .flitReceived port bytes => Sys2Proof.Machine.execFlitReceived port bytes s
  | .nak port seq => Sys2Proof.Machine.execNak port seq s
  | .ctrlSlotDue port => Sys2Proof.Machine.execCtrlSlotDue port s
  | .trayStatusSend => Sys2Proof.Machine.execTrayStatusSend s
  | .accStatus acc payload => Sys2Proof.Machine.execAccStatus acc payload s
  | .messageInject header payload => Sys2Proof.Machine.execMessageInject header payload s
  | .flitForward port header payload => Sys2Proof.Machine.execFlitForward port header payload s
  | .linkNotice seam payload => Sys2Proof.Machine.execLinkNotice seam payload s
  | .linkUpDeclare seam => Sys2Proof.Machine.execLinkUpDeclare seam s
  | .timeExchange seam => Sys2Proof.Machine.execTimeExchange seam s
  | .timeFlit seam payload arrival => Sys2Proof.Machine.execTimeFlit seam payload arrival s
  | .loopReq port payload => Sys2Proof.Machine.execLoopReq port payload s
  | .windowDecl acc payload => Sys2Proof.Machine.execWindowDecl acc payload s
  | .rdReq port header payload => Sys2Proof.Machine.execRdReq port header payload s
  | .rdData port header payload => Sys2Proof.Machine.execRdData port header payload s
  | .wrReq port header payload => Sys2Proof.Machine.execWrReq port header payload s
  | .wrAck port header payload => Sys2Proof.Machine.execWrAck port header payload s
  | .err port header payload => Sys2Proof.Machine.execErr port header payload s
  | .fwd port header payload => Sys2Proof.Machine.execFwd port header payload s
  | .order port header payload => Sys2Proof.Machine.execOrder port header payload s
  | .orderReply port header payload => Sys2Proof.Machine.execOrderReply port header payload s
  | .routeCtrlWrite value => Sys2Proof.Machine.execRouteCtrlWrite value s
  | .frameReceived bytes => Sys2Proof.Machine.execFrameReceived bytes s
  | .hRd header payload => Sys2Proof.Machine.execHRd header payload s
  | .hWr header payload => Sys2Proof.Machine.execHWr header payload s
  | .hWb header payload => Sys2Proof.Machine.execHWb header payload s
  | .snpInv header payload => Sys2Proof.Machine.execSnpInv header payload s
  | .grant header payload => Sys2Proof.Machine.execGrant header payload s
  | .data header payload => Sys2Proof.Machine.execData header payload s
  | .ack header payload => Sys2Proof.Machine.execAck header payload s
  | .hostReset => Sys2Proof.Machine.execHostReset s
  | .suortaLinkDown => Sys2Proof.Machine.execSuortaLinkDown s
  | .timeFrame header payload => Sys2Proof.Machine.execTimeFrame header payload s
  | .fwdFrame header payload => Sys2Proof.Machine.execFwdFrame header payload s
  | .submit mb => Sys2Proof.Machine.execSubmit mb s
  | .release mb => Sys2Proof.Machine.execRelease mb s
  | .mailboxAbort mb => Sys2Proof.Machine.execMailboxAbort mb s
  | .orderTakeTimeout mb => Sys2Proof.Machine.execOrderTakeTimeout mb s
  | .mctpOrder port tagged message => Sys2Proof.Machine.execMctpOrder port tagged message s
  | .setEndpointId port tagged message => Sys2Proof.Machine.execSetEndpointId port tagged message s
  | .getEndpointId port tagged message => Sys2Proof.Machine.execGetEndpointId port tagged message s
  | .getEndpointUuid port tagged message => Sys2Proof.Machine.execGetEndpointUuid port tagged message s
  | .getMctpVersionSupport port tagged message => Sys2Proof.Machine.execGetMctpVersionSupport port tagged message s
  | .getMessageTypeSupport port tagged message => Sys2Proof.Machine.execGetMessageTypeSupport port tagged message s
  | .getVendorDefinedMessageSupport port tagged message => Sys2Proof.Machine.execGetVendorDefinedMessageSupport port tagged message s
  | .hello mb => Sys2Proof.Machine.execHello mb s
  | .ping mb => Sys2Proof.Machine.execPing mb s
  | .trayQuery mb => Sys2Proof.Machine.execTrayQuery mb s
  | .regRead mb => Sys2Proof.Machine.execRegRead mb s
  | .regWrite mb => Sys2Proof.Machine.execRegWrite mb s
  | .identitySet mb => Sys2Proof.Machine.execIdentitySet mb s
  | .peerWinSet mb => Sys2Proof.Machine.execPeerWinSet mb s
  | .hlcCtrl mb => Sys2Proof.Machine.execHlcCtrl mb s
  | .hcrSet mb => Sys2Proof.Machine.execHcrSet mb s
  | .trayOn mb => Sys2Proof.Machine.execTrayOn mb s
  | .trayOff mb => Sys2Proof.Machine.execTrayOff mb s
  | .accPower mb => Sys2Proof.Machine.execAccPower mb s
  | .railQuery mb => Sys2Proof.Machine.execRailQuery mb s
  | .stitchLoad mb image => Sys2Proof.Machine.execStitchLoad mb image s
  | .slotLoad mb image => Sys2Proof.Machine.execSlotLoad mb image s
  | .faillogRead mb => Sys2Proof.Machine.execFaillogRead mb s
  | .margin mb trim => Sys2Proof.Machine.execMargin mb trim s
  | .meterRead mb => Sys2Proof.Machine.execMeterRead mb s
  | .ticketFetch mb => Sys2Proof.Machine.execTicketFetch mb s
  | .batchQuery mb => Sys2Proof.Machine.execBatchQuery mb s
  | .calibrate mb => Sys2Proof.Machine.execCalibrate mb s
  | .timeSet mb => Sys2Proof.Machine.execTimeSet mb s
  | .thermalQuery mb => Sys2Proof.Machine.execThermalQuery mb s
  | .coolQuery mb => Sys2Proof.Machine.execCoolQuery mb s
  | .coolOverride mb => Sys2Proof.Machine.execCoolOverride mb s
  | .leakQuery mb => Sys2Proof.Machine.execLeakQuery mb s
  | .leakReset mb => Sys2Proof.Machine.execLeakReset mb s
  | .capSet mb => Sys2Proof.Machine.execCapSet mb s
  | .capQuery mb => Sys2Proof.Machine.execCapQuery mb s
  | .workSubmit mb => Sys2Proof.Machine.execWorkSubmit mb s
  | .workCancel mb => Sys2Proof.Machine.execWorkCancel mb s
  | .ledgerQuery mb => Sys2Proof.Machine.execLedgerQuery mb s
  | .assurePolicy mb => Sys2Proof.Machine.execAssurePolicy mb s
  | .replayRegister mb => Sys2Proof.Machine.execReplayRegister mb s
  | .replayRemove mb => Sys2Proof.Machine.execReplayRemove mb s
  | .jobQuery mb => Sys2Proof.Machine.execJobQuery mb s
  | .jobRollback mb => Sys2Proof.Machine.execJobRollback mb s
  | .jobClose mb => Sys2Proof.Machine.execJobClose mb s
  | .capsuleRelease mb => Sys2Proof.Machine.execCapsuleRelease mb s
  | .accUntag mb => Sys2Proof.Machine.execAccUntag mb s
  | .darnQuery mb => Sys2Proof.Machine.execDarnQuery mb s
  | .selfUntag mb => Sys2Proof.Machine.execSelfUntag mb s
  | .planSubmit mb => Sys2Proof.Machine.execPlanSubmit mb s
  | .planQuery mb => Sys2Proof.Machine.execPlanQuery mb s
  | .planAbort mb => Sys2Proof.Machine.execPlanAbort mb s
  | .clusterCtrl mb => Sys2Proof.Machine.execClusterCtrl mb s
  | .eventRead mb => Sys2Proof.Machine.execEventRead mb s
  | .eventClear mb => Sys2Proof.Machine.execEventClear mb s
  | .configStage mb image => Sys2Proof.Machine.execConfigStage mb image s
  | .configActivate mb => Sys2Proof.Machine.execConfigActivate mb s
  | .rollback mb => Sys2Proof.Machine.execRollback mb s
  | .configQuery mb => Sys2Proof.Machine.execConfigQuery mb s
  | .attest mb => Sys2Proof.Machine.execAttest mb s
  | .keyQuery mb => Sys2Proof.Machine.execKeyQuery mb s
  | .fwStage mb image => Sys2Proof.Machine.execFwStage mb image s
  | .fwActivate mb => Sys2Proof.Machine.execFwActivate mb s
  | .coreRestart mb => Sys2Proof.Machine.execCoreRestart mb s
  | .unpin mb => Sys2Proof.Machine.execUnpin mb s
  | .starchTighten mb => Sys2Proof.Machine.execStarchTighten mb s
  | .debugUnlock mb => Sys2Proof.Machine.execDebugUnlock mb s
  | .getId mb => Sys2Proof.Machine.execGetId mb s
  | .powerOn mb => Sys2Proof.Machine.execPowerOn mb s
  | .powerOff mb => Sys2Proof.Machine.execPowerOff mb s
  | .readRails mb => Sys2Proof.Machine.execReadRails mb s
  | .loadSlots mb => Sys2Proof.Machine.execLoadSlots mb s
  | .readSlots mb => Sys2Proof.Machine.execReadSlots mb s
  | .readTemps mb => Sys2Proof.Machine.execReadTemps mb s
  | .setFan mb => Sys2Proof.Machine.execSetFan mb s
  | .readLog mb => Sys2Proof.Machine.execReadLog mb s
  | .readEnergy mb => Sys2Proof.Machine.execReadEnergy mb s
  | .stEnd strand => Sys2Proof.Machine.execStEnd strand s
  | .stEnable strand => Sys2Proof.Machine.execStEnable strand s
  | .stDisable strand => Sys2Proof.Machine.execStDisable strand s
  | .stWait strand => Sys2Proof.Machine.execStWait strand s
  | .stWaitpg strand => Sys2Proof.Machine.execStWaitpg strand s
  | .stCheck strand mv da => Sys2Proof.Machine.execStCheck strand mv da s
  | .stJump strand => Sys2Proof.Machine.execStJump strand s
  | .stJumpif strand => Sys2Proof.Machine.execStJumpif strand s
  | .stSignal strand => Sys2Proof.Machine.execStSignal strand s
  | .stAwait strand => Sys2Proof.Machine.execStAwait strand s
  | .stLog strand => Sys2Proof.Machine.execStLog strand s
  | .stitchMargin strand trim => Sys2Proof.Machine.execStitchMargin strand trim s
  | .parentsOn rail => Sys2Proof.Machine.execParentsOn rail s
  | .enableActionComplete rail => Sys2Proof.Machine.execEnableActionComplete rail s
  | .pmbusAttemptRetry rail => Sys2Proof.Machine.execPmbusAttemptRetry rail s
  | .waitElapsed strand => Sys2Proof.Machine.execWaitElapsed strand s
  | .powerGood rail => Sys2Proof.Machine.execPowerGood rail s
  | .waitpgTimeout strand mv da tUs => Sys2Proof.Machine.execWaitpgTimeout strand mv da tUs s
  | .railBelowOff rail => Sys2Proof.Machine.execRailBelowOff rail s
  | .offGapElapsed rail => Sys2Proof.Machine.execOffGapElapsed rail s
  | .fallTimeout rail mv da tUs => Sys2Proof.Machine.execFallTimeout rail mv da tUs s
  | .railFailureDetected rail cause mv da tUs => Sys2Proof.Machine.execRailFailureDetected rail cause mv da tUs s
  | .statusWordPoll rail word pastBlank tUs => Sys2Proof.Machine.execStatusWordPoll rail word pastBlank tUs s
  | .strandLoopLimit strand => Sys2Proof.Machine.execStrandLoopLimit strand s
  | .pfailFallCheck mv tUs => Sys2Proof.Machine.execPfailFallCheck mv tUs s
  | .slotEnableTime rail => Sys2Proof.Machine.execSlotEnableTime rail s
  | .slotDisableTime rail => Sys2Proof.Machine.execSlotDisableTime rail s
  | .firstFailureWritten torn => Sys2Proof.Machine.execFirstFailureWritten torn s
  | .stGroupBlockWrite value => Sys2Proof.Machine.execStGroupBlockWrite value s
  | .meterSample volts amps => Sys2Proof.Machine.execMeterSample volts amps s
  | .calSweepStart => Sys2Proof.Machine.execCalSweepStart s
  | .channelCalComplete channel gain offset dac => Sys2Proof.Machine.execChannelCalComplete channel gain offset dac s
  | .calSweepEnd => Sys2Proof.Machine.execCalSweepEnd s
  | .timeStepApply => Sys2Proof.Machine.execTimeStepApply s
  | .attribInterval acc payload => Sys2Proof.Machine.execAttribInterval acc payload s
  | .intervalAttribution => Sys2Proof.Machine.execIntervalAttribution s
  | .ticketIdleClose request => Sys2Proof.Machine.execTicketIdleClose request s
  | .ticketMaxClose request => Sys2Proof.Machine.execTicketMaxClose request s
  | .batchTimeClose => Sys2Proof.Machine.execBatchTimeClose s
  | .batchSigned => Sys2Proof.Machine.execBatchSigned s
  | .budgetPeriod => Sys2Proof.Machine.execBudgetPeriod s
  | .heldGrantRepeat => Sys2Proof.Machine.execHeldGrantRepeat s
  | .demand acc payload => Sys2Proof.Machine.execDemand acc payload s
  | .guardCompare acc meanW => Sys2Proof.Machine.execGuardCompare acc meanW s
  | .guardLevelUpdate acc => Sys2Proof.Machine.execGuardLevelUpdate acc s
  | .accThrCauseClear acc guard => Sys2Proof.Machine.execAccThrCauseClear acc guard s
  | .ledgerPeriod => Sys2Proof.Machine.execLedgerPeriod s
  | .traySummary => Sys2Proof.Machine.execTraySummary s
  | .ringSensorConversion counts temps => Sys2Proof.Machine.execRingSensorConversion counts temps s
  | .remoteDiodeConversion diode reading => Sys2Proof.Machine.execRemoteDiodeConversion diode reading s
  | .diodeSafetyClear acc => Sys2Proof.Machine.execDiodeSafetyClear acc s
  | .thermistorConversion input ohms => Sys2Proof.Machine.execThermistorConversion input ohms s
  | .inputFaultClear thermistor input => Sys2Proof.Machine.execInputFaultClear thermistor input s
  | .trimUpdate => Sys2Proof.Machine.execTrimUpdate s
  | .thermalLimitStep => Sys2Proof.Machine.execThermalLimitStep s
  | .coolingOutputUpdate => Sys2Proof.Machine.execCoolingOutputUpdate s
  | .kick value => Sys2Proof.Machine.execKick value s
  | .wdgRelease => Sys2Proof.Machine.execWdgRelease s
  | .coolingWatchdogFire => Sys2Proof.Machine.execCoolingWatchdogFire s
  | .fanPumpFailure channel rpm => Sys2Proof.Machine.execFanPumpFailure channel rpm s
  | .flowLow flow rate => Sys2Proof.Machine.execFlowLow flow rate s
  | .coolingFailureRecovery isFlow index speed => Sys2Proof.Machine.execCoolingFailureRecovery isFlow index speed s
  | .tachReport rpm rates => Sys2Proof.Machine.execTachReport rpm rates s
  | .qcapReport => Sys2Proof.Machine.execQcapReport s
  | .overrideExpiry channel => Sys2Proof.Machine.execOverrideExpiry channel s
  | .leakMeasurement loop ins cont => Sys2Proof.Machine.execLeakMeasurement loop ins cont s
  | .relaxedResponseEnd loop => Sys2Proof.Machine.execRelaxedResponseEnd loop s
  | .go port value => Sys2Proof.Machine.execGo port value s
  | .twTransactionEnd port result data => Sys2Proof.Machine.execTwTransactionEnd port result data s
  | .busIdleDetect port => Sys2Proof.Machine.execBusIdleDetect port s
  | .sclLowTimeout port => Sys2Proof.Machine.execSclLowTimeout port s
  | .stuckSdaDetect port => Sys2Proof.Machine.execStuckSdaDetect port s
  | .resetLineRelease port sclHigh sdaHigh => Sys2Proof.Machine.execResetLineRelease port sclHigh sdaHigh s
  | .stuckRetry port sclHigh sdaHigh => Sys2Proof.Machine.execStuckRetry port sclHigh sdaHigh s
  | .targetStandbyEntry port => Sys2Proof.Machine.execTargetStandbyEntry port s
  | .targetWake port => Sys2Proof.Machine.execTargetWake port s
  | .targetProtocolError port pecError => Sys2Proof.Machine.execTargetProtocolError port pecError s
  | .targetWriteReceived port data => Sys2Proof.Machine.execTargetWriteReceived port data s
  | .twStestGo port pass => Sys2Proof.Machine.execTwStestGo port pass s
  | .coreWatchdogExpiry core => Sys2Proof.Machine.execCoreWatchdogExpiry core s
  | .coreKick core => Sys2Proof.Machine.execCoreKick core s
  | .coreFatalException core memory => Sys2Proof.Machine.execCoreFatalException core memory s
  | .coreRestartComplete core => Sys2Proof.Machine.execCoreRestartComplete core s
  | .probationPass core => Sys2Proof.Machine.execProbationPass core s
  | .deferredActivationStart => Sys2Proof.Machine.execDeferredActivationStart s
  | .configActivationApply => Sys2Proof.Machine.execConfigActivationApply s
  | .rollbackApply => Sys2Proof.Machine.execRollbackApply s
  | .firewallViolation master addr length write => Sys2Proof.Machine.execFirewallViolation master addr length write s
  | .vcoreBackstop mv => Sys2Proof.Machine.execVcoreBackstop mv s
  | .vcoreCapRelease => Sys2Proof.Machine.execVcoreCapRelease s
  | .eventRaised cls code inst data => Sys2Proof.Machine.execEventRaised cls code inst data s
  | .recordCommit => Sys2Proof.Machine.execRecordCommit s
  | .coalescerFlush index => Sys2Proof.Machine.execCoalescerFlush index s
  | .pfailNRise => Sys2Proof.Machine.execPfailNRise s
  | .vaonRestored selfTest adopt => Sys2Proof.Machine.execVaonRestored selfTest adopt s
  | .portDisable port => Sys2Proof.Machine.execPortDisable port s
  | .twCtrlWrite port value => Sys2Proof.Machine.execTwCtrlWrite port value s
  | .scrubPeriodWrite value => Sys2Proof.Machine.execScrubPeriodWrite value s
  | .slotPgTimeout rail mv da tUs => Sys2Proof.Machine.execSlotPgTimeout rail mv da tUs s
  | .configStageComplete => Sys2Proof.Machine.execConfigStageComplete s
  | .fwStageComplete => Sys2Proof.Machine.execFwStageComplete s
  | .targetReadReceived port count => Sys2Proof.Machine.execTargetReadReceived port count s
  | .busStartSeen port => Sys2Proof.Machine.execBusStartSeen port s
  | .busStopSeen port => Sys2Proof.Machine.execBusStopSeen port s

end Sys2Proof.Machine
end

