-- ==== Sys2Proof/Machine/Step.lean ====
section
/-! DEFINITION. The step of the machine: the command at the front of the queue takes its effect.
Log entries coded here: 1 (DESIGN CHOICE), 2 (DESIGN CHOICE), 7 (DEDUCED), 8 (DESIGN CHOICE). -/

namespace Sys2Proof.Machine

/-- One step: the front command leaves the queue and takes its effect; with an empty queue the part idles. -/
def step (s : State) : Host.Outcome State Fault Refusal :=
  match s.pending with
  | [] => .next s
  | c :: rest => exec c { s with pending := rest }

/-- The state with the command that a table word spells put at the front of its queue; unchanged where the word
spells none. -/
def State.withFetchWord (s : State) (nbits w : Nat) : State :=
  match decodeTableWord nbits w with
  | some c => { s with pending := c :: s.pending }
  | none => s

end Sys2Proof.Machine
end

