-- ==== Sys2Proof/Safety.lean ====
section
/-! DEFINITION. The terms in which claims about the part are stated: what may only move one way, which commands are a
cold reset, when an order is carried out. -/

namespace Sys2Proof.Machine

/-- The commands that are a cold reset: a low pulse on SYSRST_N, and VAON outside its window (R26, R500, R502). -/
def coldResets (c : Instr) : Bool :=
  match c with
  | .sysrstNLow .. => true
  | .vaonLeavesWindow => true
  | _ => false

/-- From s to t nothing that may only move one way moves the other way: no effective starch limit rises (R442), no SVN
floor falls (R441), the key epoch does not fall (R447), an unlocked debug port stays unlocked (R457); and the commands that
wait stay as they are. -/
structure Tightens (s t : State) : Prop where
  pending : t.pending = s.pending
  vcore : t.aon.vcoreEff ≤ s.aon.vcoreEff
  iclk : t.aon.iclkEff ≤ s.aon.iclkEff
  tj : t.aon.tjEff ≤ s.aon.tjEff
  floor : ∀ k, s.aon.svnFloor.get 0 k ≤ t.aon.svnFloor.get 0 k
  epoch : s.sec.epoch ≤ t.sec.epoch
  unlocked : s.sec.debugUnlocked = true → t.sec.debugUnlocked = true

/-- No effective starch limit stands above its manufacture value (R442). -/
structure LimitsHold (s : State) : Prop where
  vcore : s.aon.vcoreEff ≤ 900
  iclk : s.aon.iclkEff ≤ 1600
  tj : s.aon.tjEff ≤ 120

/-- Tray time but for its holdover, which the settling of a command's effect may begin (R328). -/
def TrayTime.kept (t : TrayTime) : TrayTime := { t with holdover := false, holdSince := 0, holdBase := 0 }

/-- The security core's state but for the masters that it has pinned: a read that the settling sends out may be refused (R453). -/
def Sec.kept (x : Sec) : Sec := { x with pinned := 0 }

/-- The version 3 order `op` stands SUBMITTED in mailbox n, its core runs, and it passes the checks 1 to 6 of R271. -/
def taken (s : State) (n op : Nat) : Bool :=
  orderStands s n op && !serverDown s n && checkOrder (executing n s) n == none

/-- The TAL2 command `cmd` stands SUBMITTED in mailbox n, its core runs, and it passes the checks of R277. -/
def takenV2 (s : State) (n cmd : Nat) : Bool :=
  commandStands s n cmd && !serverDown s n && checkOrder (executing n s) n == none

/-- The state in which the part of a taken order that is its own begins. -/
def begun (n : Nat) (s : State) : State := acceptSeq n (executing n s)

/-- The payload of the order in mailbox n. -/
def payload (s : State) (n : Nat) : Bytes := reqPayload (mbox s n).req

end Sys2Proof.Machine
end

