-- ==== Sys2Proof/Certificates/Slice0/Obligations.lean ====
section
/-! DEFINITION. The statements for the provers. -/

open Sys2Proof Sys2Proof.Machine

/-- Each event of start-up, of the supplies and of the clocks, in a state it fits, answers a next state: the settling of
the state that its rules give. SYSRST_N_LOW and VAON_LEAVES_WINDOW are the cold reset; SYSRST_N_RELEASE and
VAON_RESTORED start the AON island; SEC_FIRMWARE_RUNNING starts the manager cores, loads a configuration and starts
strand 0's standby part, unless no configuration verifies; BOOT_COMPLETE enters STANDBY; VSTBY_LOW and PFAIL_N_FALL
begin PFAIL mode, and the rises end it where nothing else holds it; the clock events switch the lanes and the AON
clock (the code of their event is a free value, log entries 4 and 61); OPTIME_TICK counts 1 ms. (R21, R25, R26, R308,
R435, R436, R464, R486, R500, R502, R503, R507) -/
def Obligations.StartAndSupplyEventsComplete : Prop :=
  (∀ ns tk b s, pulseTaken ns tk → xspiReleased s = false →
    exec (.sysrstNLow ns tk b) s = .next (settled (coldReset { s with chip.sysrstLow := true }))) ∧
  (∀ ns tk b s, pulseTaken ns tk → xspiReleased s →
    exec (.sysrstNLow ns tk b) s = .next (settled (coldReset { program b s with chip.sysrstLow := true }))) ∧
  (∀ t a s, s.chip.sysrstLow → s.chip.vaonOk →
    exec (.sysrstNRelease t a) s = .next (settled (aonStarts (t % 5) a { s with chip.sysrstLow := false }))) ∧
  (∀ s, aonRuns s → s.chip.boot = .rom →
    exec .secFirmwareRunning s = .next (settled (
      let s1 := setCore 0 (fun c => { c with kick := s.aon.optime }) { s with
        aon.coreDown := s.aon.coreDown &&& ~~~1#11, chip.islands := s.chip.islands ||| 7#26,
        sec.state := if s.sec.state = 3 then 3 else 2 }
      let s2 := bootConfig (startPorts (startManager 2 (startManager 1 s1)))
      if s2.chip.boot = .failed then s2
      else setStrand 0 (fun t => { t with standby := true }) (startStrand 0 (imgStby s2.st.image)
        { s2 with sec.lock := 0x7FF, chip.boot := .firmware, st.phase := 1 })))) ∧
  (∀ s, bootMayEnd s →
    exec .bootComplete s = .next (settled (enterStandby { s with chip.boot := .complete }))) ∧
  (∀ s, s.chip.vaonOk →
    exec .vaonLeavesWindow s = .next (settled (coldReset { s with chip.vaonOk := false, sec.challenge := [] }))) ∧
  (∀ t a s, s.chip.vaonOk = false → s.chip.sysrstLow = false →
    exec (.vaonRestored t a) s = .next (settled (aonStarts (t % 5) a
      { s with chip.vaonOk := true, aon.powerCycles := (s.aon.powerCycles + 1) % 2 ^ 32, assure.seedHeld := none }))) ∧
  (∀ s, aonRuns s → s.chip.vstbyBad = false →
    exec .vstbyLow s = .next (settled (pfailTaken (setBits R.SUP_STATUS 8 { s with chip.vstbyBad := true })))) ∧
  (∀ s, s.chip.pfailPin = false →
    exec .vstbyRestored s = .next (settled { s with chip.vstbyBad := false, st.pfailMode := false })) ∧
  (∀ s, aonRuns s →
    exec .pfailNFall s = .next (settled (pfailTaken { s with chip.pfailPin := true }))) ∧
  (∀ s, s.chip.vstbyBad = false →
    exec .pfailNRise s = .next (settled { s with chip.pfailPin := false, st.pfailMode := false })) ∧
  (∀ s, aonRuns s → s.chip.onBackupClock = false →
    ∃ code, exec .refclkLost s = .next (settled (
      let s1 := beginHoldover (setBits R.CLK_STATUS 4 (clockChanges true s))
      raiseEvent ⟨0, code, noInst, false, [], none⟩ (takeFresh s1)))) ∧
  (∀ s, exec .refclkReturned s = .next (settled (clockChanges false s))) ∧
  (∀ s, aonRuns s → s.chip.onRc = false →
    ∃ code, exec .xtalStopped s = .next (settled (
      raiseEvent ⟨0, code, noInst, false, [], none⟩ (takeFresh (setBits R.CLK_STATUS 8 { s with chip.onRc := true }))))) ∧
  (∀ s, exec .xtalReturned s = .next (settled { s with chip.onRc := false })) ∧
  (∀ s, s.chip.vaonOk →
    exec .optimeTick s = .next (settled (stallTick { s with aon.optime := (s.aon.optime + 1) % 2 ^ 48 })))

/-- Each edge of a rack line, each transition of the tray that an event ends or starts, the drain of an island and the
comparison of islands answers, in a state it fits, the settling of the state that its rules give. (R16, R17, R18, R21,
R24, R304, R307, R309, R310, R347, R358, R385) -/
def Obligations.RackLinesAndTransitionsComplete : Prop :=
  (∀ s, aonRuns s → exec .rackPermitLow s = .next (settled (offRequest false { s with chip.permit := false }))) ∧
  (∀ s, exec .rackPermitHigh s = .next (settled { s with chip.permit := true })) ∧
  (∀ s, aonRuns s → exec .rackOffNLow s = .next (settled (offRequest false { s with chip.rackOff := true }))) ∧
  (∀ s, exec .rackOffNHigh s = .next (settled { s with chip.rackOff := false })) ∧
  (∀ s, aonRuns s → exec .rackThrottleNLow s = .next (settled (
    (List.range 8).foldl (fun a c => if (cluster a c).st = .off then a else setCl c (fun k => { k with capMhz := 400 }) a)
      ((List.range 8).foldl (fun a n => setAcc n (fun b => { b with rack := true, rackMs := false, freed := false }) a)
        { s with chip.rackThrottle := true })))) ∧
  (∀ s, aonRuns s → s.chip.rackThrottle → exec .rackThrottleNHigh s = .next (settled (
    (List.range 8).foldl (fun a n => setAcc n (fun b => { b with rack := true }) a) { s with chip.rackThrottle := false }))) ∧
  (∀ s, s.chip.rackThrottle = false → exec .rackThrottleNHigh s = .next (settled { s with chip.rackThrottle := false })) ∧
  (∀ s, upMayStart s → exec .sequencingUpStart s = .next (settled (beginUp { s with chip.hswRise := none }))) ∧
  (∀ s, upMayEnd s → exec .sequencingUpEnd s = .next (settled (
    let s1 := { s with st.phase := 0, st.seqFailed := false }
    let s2 := setTray (if degradeCause s1 = 0 then .ready else .degraded) s1
    finishLong .trayOn St.DONE [] (judgeAttempt (attemptPasses s2) s2)))) ∧
  (∀ s, reverseMayEnd s → s.chip.tray = .sequencingDown → s.chip.offFromRail = false →
    exec .reverseSequenceEnd s = .next (settled (switchAgain (finishLong .trayOff St.DONE []
      (enterStandby (leaveDown { endReverse s with cfg.attempt := false, chip.offFromRail := false })))))) ∧
  (∀ s, reverseMayEnd s → s.chip.tray = .tripped → exec .reverseSequenceEnd s = .next (settled (endReverse s))) ∧
  (∀ s, aonMayEnd s → ∃ t, exec .aonTripSequenceEnd s = .next (settled t) ∧ t.chip.tray = .off ∧ t.chip.islands = 0 ∧
    t.aon.coreDown = 0x7FF ∧ t.st.phase = 0 ∧ t.st.hswEn = false ∧ t.mbx = [] ∧ t.ports = [] ∧
    t.meter.batches = [] ∧ t.meter.opens = []) ∧
  (∀ s, coolEnough s → s.chip.tray = .tripped → s.st.phase ≠ 4 → exec .tripRestart s = .next (settled (
    let s2 := setOutputs (raise 1 3 noInst [] { s with chip.tripForce := false, heat.coolSince := none })
    if s2.chip.tray = .tripped then
      (if restartsUp s2 then beginUp s2
       else if reverseRuns s2 then onOrderEnds (setTray .sequencingDown s2) else beginDown s2)
    else bootRom s2))) ∧
  (∀ (i : Fin 26) s, s.chip.draining.getLsbD i → i.val < 3 ∨ 11 < i.val → exec (.islandDrained i) s = .next (settled
    { s with chip.draining := s.chip.draining &&& ~~~(1#26 <<< i.val), chip.reenable := s.chip.reenable &&& ~~~(1#26 <<< i.val),
             chip.islands := s.chip.islands &&& ~~~(1#26 <<< i.val) })) ∧
  (∀ (i : Fin 26) s, s.chip.draining.getLsbD i → 3 ≤ i.val → i.val < 11 → (cluster s (i.val - 3)).st ≠ .off →
    exec (.islandDrained i) s = .next (settled (fxClusterPowerDown (i.val - 3)
      { s with chip.draining := s.chip.draining &&& ~~~(1#26 <<< i.val), chip.reenable := s.chip.reenable &&& ~~~(1#26 <<< i.val) }))) ∧
  (∀ (i : Fin 26) s, s.chip.draining.getLsbD i → i = 11 → exec (.islandDrained i) s = .next (settled (memPowerDown
    { s with chip.draining := s.chip.draining &&& ~~~(1#26 <<< 11), chip.reenable := s.chip.reenable &&& ~~~(1#26 <<< 11) }))) ∧
  (∀ s, coreUp 1 s → exec .gradientCheck s = .next (settled ((List.range adjacent.length).foldl gradPair s)))

/-- Cluster control, the loading and running of plans, self-checks, stalls and power of the clusters: each command
answers, on a cluster or plan it fits, the settling of the state that its rules give. PLAN_LOAD of a plan that passes
the load checks and finds scratch space binds phase 0; one that fails a check is refused with that check's status.
(R82, R85, R95, R98, R99, R101, R102, R104, R105, R106, R107, R117) -/
def Obligations.PressCommandsComplete : Prop :=
  (∀ (c : Fin 8) s, (cluster s c).st ≠ .off → exec (.suspend c) s = .next (settled (
    let ids := (match (cluster s c).plan with | some id => [id] | none => []) ++ plansOver s c ++ plansOver s ((c.val + 7) % 8)
    let s1 := ids.foldl (fun a id => stopPlan id a) s
    startSelftest c (setCl c (fun k => { k with susp := true })
      (raise 10 4 c (regData (rd s1 (R.FAULT_STATUS c)) ++ regData (rd s1 (R.FAULT_LOC c))) s1))))) ∧
  (∀ (c : Fin 8) s, (cluster s c).st = .suspended → rdBit s (R.SELFTEST_RESULT c) 30 → memFailed s = false →
    exec (.resume c) s = .next (settled (setCl c (fun x => { x with st := .idle, susp := false }) s))) ∧
  (∀ (c : Fin 8) s, (cluster s c).st = .selftest →
    exec (.resume c) s = .next (settled (setCl c (fun x => { x with resumeWaits := true }) s))) ∧
  (∀ (c : Fin 8) s, (cluster s c).st = .idle ∨ (cluster s c).st = .suspended →
    exec (.selftest c) s = .next (settled (startSelftest c s))) ∧
  (∀ (c : Fin 8) s id, (cluster s c).plan = some id → exec (.abort c) s = .next (settled (
    ((planOf s id).elim [] (fun p => p.clusters)).foldl
      (fun a d => setCl d (fun k => { k with st := if k.st = .frozen && k.plan.isNone then .idle else k.st }) a)
      (endPlan id .aborted 0 s)))) ∧
  (∀ (c : Fin 8) v s, islandAnswers (clusterIsland c) s →
    exec (.clFreqWrite c v) s = .next (settled (wr (R.CL_FREQ c) (v &&& 0x7FF) s))) ∧
  (∀ (c : Fin 8) v s, islandAnswers (clusterIsland c) s → v &&& 3 = 3#32 →
    exec (.bridgeCtrlWrite c v) s = .next (settled (wr (R.BRIDGE_CTRL c) 3 s))) ∧
  (∀ (c : Fin 8) s p parts t, loadingPlan s c = some p → imageReady s p → p.budgetWaits = false → p.spaceWaits = false →
    planStatus s p.isSelf (planBytes s p p.len) = St.DONE →
    t = (List.range (planSpan (planBytes s p p.len))).foldl (fun a k => setCl ((p.home + k) % 8)
        (fun x => { x with restartable := p.restarts (planBytes s p p.len) }) a)
      (setPlan p.id (fun q => { q with image := planBytes s p p.len, flags := 0 }) s) →
    planOf s p.id = some p →
    allocScratch (planBytes s p p.len)
      (scratchLevels t (planBytes s p p.len) p.home ((placePlan (planBytes s p p.len)).getD [])) (scratchUsed t) = .ok parts →
    ∃ f, exec (.planLoad c) s = .next (settled (enterPhase p.id (setPlan p.id f t))) ∧
      (∀ q, (f q).st = .running ∧ (f q).phase = 0 ∧ (f q).id = q.id ∧ (f q).image = q.image ∧ (f q).parts = parts)) ∧
  (∀ (c : Fin 8) s p, loadingPlan s c = some p → planOf s p.id = some p → imageReady s p → p.budgetWaits = false →
    p.spaceWaits = false → planStatus s p.isSelf (planBytes s p p.len) ≠ St.DONE →
    exec (.planLoad c) s = .next (settled (refusePlan p.id (planStatus s p.isSelf (planBytes s p p.len)) s))) ∧
  (∀ (c : Fin 8) s p parts, loadingPlan s c = some p → planOf s p.id = some p → p.spaceWaits →
    allocScratch p.image (scratchLevels s p.image p.home ((placePlan p.image).getD [])) (scratchUsed s) = .ok parts →
    ∃ f, exec (.scratchSpaceFreed c) s = .next (settled (enterPhase p.id (setPlan p.id f s))) ∧
      (∀ q, (f q).st = .running ∧ (f q).phase = 0 ∧ (f q).spaceWaits = false ∧ (f q).image = q.image ∧ (f q).parts = parts)) ∧
  (∀ (c : Fin 8) corrected s p, runningPlan s c = some p → pressBusy s c = false →
    (s.press.hashWait.any (fun h => h.1 == p.id)) = false → p.stored →
    exec (.phaseComplete ⟨c, corrected⟩) s = .next (settled (nextPhase p.id s))) ∧
  (∀ (c : Fin 8) corrected s p r t, runningPlan s c = some p → pressBusy s c = false →
    (s.press.hashWait.any (fun h => h.1 == p.id)) = false → p.stored = false →
    r = runPhase p.id (fetchPhaseRegs p (countCorrected corrected s)) → t = flushRegs r.st →
    r.failed = false → storesHurt p t = false → (planOf t p.id).any (fun q => q.st == .running) → pressBusy t p.home = false →
    exec (.phaseComplete ⟨c, corrected⟩) s = .next (settled (nextPhase p.id t))) ∧
  (∀ (c : Fin 8) corrected s p r t, runningPlan s c = some p → pressBusy s c = false →
    (s.press.hashWait.any (fun h => h.1 == p.id)) = false → p.stored = false →
    r = runPhase p.id (fetchPhaseRegs p (countCorrected corrected s)) → t = flushRegs r.st →
    r.failed ∨ storesHurt p t →
    exec (.phaseComplete ⟨c, corrected⟩) s = .next (settled (endPlan p.id .fault 0 t))) ∧
  (∀ (c : Fin 8) (i : Fin 24) (kind : Fin 3) (u : Fin 16) s, (cluster s c).st ≠ .off →
    exec (.checkFailure c i kind u) s = .next (settled (
      let s1 := latchFault c kind.val u.val (faultIron u.val i.val) s
      let s2 := bump (if kind.val = 0 then R.CL_CNT_RESIDUE c else if kind.val = 1 then R.CL_CNT_CHECKSUM c
        else R.CL_CNT_TC_UNCORR c) s1
      let s3 := setBits (R.IRON_ERR c i) (if kind.val = 0 then 1 else if kind.val = 1 then 2 else 8) s2
      let s4 := setIrons c (fun x => if x.st = .active then { x with st := .frozen } else x) s3
      let s5 := setIron (24 * c + i) (fun x => { x with st := .halted, poison := true })
        (match (cluster s c).plan with | some id => spreadPoison id (24 * c + i) s4 | none => s4)
      if (cluster s c).plan.isSome && ((cluster s c).st = .running || (cluster s c).st = .frozen) then
        setCl c (fun k => { k with st := .frozen, failed := some i }) s5
      else s5))) ∧
  (∀ (c : Fin 8) s id, (cluster s c).plan = some id → (cluster s c).failed.isSome → coreUp (3 + c.val) s →
    (cluster s c).restartable → (cluster s c).rerun = false →
    exec (.quickTestComplete c true) s = .next (settled (enterPhase id
      (setPlan id (fun p => { p with phase := 0, stagesDone := 0, stored := false, wrote := [] })
        (setCl c (fun k => { k with failed := none, rerun := true, ctlFroze := false }) (raise 10 1 c [] (bump (R.CL_CNT_RERUN c) s))))))) ∧
  (∀ (c : Fin 8) s id, (cluster s c).plan = some id → (cluster s c).failed.isSome → coreUp (3 + c.val) s →
    (cluster s c).restartable →
    exec (.quickTestComplete c false) s = .next (settled (suspendCluster c (latchFault c 6 0 ((cluster s c).failed.getD 0) s)))) ∧
  (∀ (c : Fin 8) bad up down s, (cluster s c).st = .selftest → bitAt (selftestWord bad up down) 30 →
    exec (.selftestComplete c bad up down) s = .next (settled (endCtl c St.DONE (finishLong (.clusterCtrl c) St.DONE []
      (setCl c (fun k => { k with st := if memFailed s then .suspended else if coreUp (3 + c.val) s then .idle else .frozen,
                                  susp := false, resumeWaits := false, passed := true, plan := none })
        (setIrons c (fun _ => {}) (wr (R.SELFTEST_RESULT c) (selftestWord bad up down) s))))))) ∧
  (∀ (c : Fin 8) s, (cluster s c).st ≠ .off → coreUp (3 + c.val) s = false →
    exec (.restartTimeout c) s = .next (settled (restartFailed c s))) ∧
  (∀ (c : Fin 8) (i : Fin 24) s id p s1 mine, (cluster s c).plan = some id → (cluster s c).st = .running → planOf s id = some p →
    s1 = setBits (R.IRON_ERR c i) 16 (latchFault c 3 6 i s) → mine = s.press.poisoned.filter (fun r => r.1 == p.home) →
    mine.any (fun r => s.press.reloads.contains (p.home, r.2.1)) = false →
    exec (.sourcePoisonReload c i false) s = .next (settled (mine.foldl (fun a r => pressReadPiece p.home (15 + c) r.2.1 r.2.2 a)
      (setCl p.home (fun k => { k with poison := false }) (setCl c (fun k => { k with poison := false })
        { s1 with press.poisoned := s1.press.poisoned.filter (fun r => r.1 != p.home)
                  press.reloads := s1.press.reloads ++ mine.map (fun r => (p.home, r.2.1)) }))))) ∧
  (∀ (c : Fin 8) (i : Fin 24) (again : Bool) s id p, (cluster s c).plan = some id → (cluster s c).st = .running → planOf s id = some p →
    again ∨ (s.press.poisoned.filter (fun r => r.1 == p.home)).any (fun r => s.press.reloads.contains (p.home, r.2.1)) →
    exec (.sourcePoisonReload c i again) s = .next (settled (endPlan id .fault 2
      ((match p.stageOn (24 * c + i) with | some k => dependents p.image p.phase k | none => []).foldl (fun a k => undecided id k a)
        (spreadPoison id (24 * c + i) (setBits (R.IRON_ERR c i) 16 (latchFault c 3 6 i s))))))) ∧
  (∀ (c : Fin 8) s, stallCause s c ≠ 0 → (cluster s c).stallTold = false → exec (.stall1s c) s =
    .next (settled (raise 10 2 c (leBytes 4 (stallCause s c)) (setCl c (fun k => { k with stallTold := true }) s)))) ∧
  (∀ (c : Fin 9) s, exec (.absentRetry c true) s = .next (settled (flushRegs ((s.torus.absent.filter (fun r => r.owner.ofPress c)).foldl
    (fun a r => reissue r a) { s with torus.absent := s.torus.absent.filter (fun r => !r.owner.ofPress c) })))) ∧
  (∀ (c : Fin 8) (i : Fin 24) n s, (cluster s c).st ≠ .off → (iron s (24 * c + i)).st = .idle ∨ (iron s (24 * c + i)).st = .bound →
    0 < n → exec (.sramScrub c i n false) s = .next (settled (setBits (R.IRON_ERR c i) 4 (bumpBy (R.CL_CNT_TC_CORR c) n s)))) ∧
  (∀ (c : Fin 8) (i : Fin 24) s, (cluster s c).st ≠ .off → (iron s (24 * c + i)).st = .idle ∨ (iron s (24 * c + i)).st = .bound →
    exec (.sramScrub c i 0 true) s =
      .next (settled (setBits (R.IRON_ERR c i) 8 (latchFault c 2 4 i (bump (R.CL_CNT_TC_UNCORR c) s))))) ∧
  (∀ s, exec .hashEngineGrant s = .next (settled (grantHash s.press.hashWait.length s))) ∧
  (∀ (c : Fin 8) s t, (cluster s c).st = .off → s.chip.tray = .sequencingUp ∨ s.chip.tray = .ready ∨ s.chip.tray = .degraded →
    t = clusterPower c true s → (t.aon.coreHeld.getLsbD (3 + c) || isPinned t (3 + c) ||
      ((t.aon.cores.get {} (3 + c)).image).isEmpty) = false →
    exec (.clusterPowerUp c) s = .next (settled (startSelftest c
      { t with aon.coreDown := t.aon.coreDown &&& ~~~(1#11 <<< (3 + c.val)) }))) ∧
  (∀ (c : Fin 8) s, (cluster s c).st ≠ .off → s.chip.tray = .sequencingDown → exec (.clusterPowerDown c) s = .next (settled (
    let s1 := match (cluster s c).plan with | some id => endPlan id .aborted 0 s | none => s
    coreDownSet (3 + c) (clusterPower c false
      (((s1.su.hlc.filter (fun e => e.1 % 8 == c.val)).map (fun e => e.1)).foldl (fun a l => dropLine l a) s1)))))

/-- Steps that are announced, capsules that arrive, their fetch and replay, the peers that are asked, and capsules
delegated by another node: with the scheduler core up each command answers the settling of the state that its rules
give. A replay that agrees ends CLEAN; one that differs leads to the peer plan; a peer that agrees with the Press
alone makes the verdict FAULTY-ACC, one that agrees with the accelerator alone FAULTY-SELF. (R150, R152, R153, R155,
R159, R161, R163, R164, R165, R167, R170, R177) -/
def Obligations.CapsuleCommandsComplete : Prop :=
  (∀ (a : Fin 8) p s t, (port s a).st = .up → coreUp 2 s → t = touchJob (leAt p 0 8) (takeInbox a 1 1 p s) →
    exec (.stepOpen a p) s = .next (settled (
      let d := stepDecision t a (leAt p 0 8) (leAt p 8 8) (slice p 16 64)
      sendAcc a true { cls := 1, typ := 2, len := 18,
                       payload := leBytes 8 (leAt p 0 8) ++ leBytes 8 (leAt p 8 8) ++ leBytes 1 (b2n d.1) ++ leBytes 1 d.2 }
        (if d.1 then bump R.AS_CNT_SELECTED (noteSelect a (leAt p 0 8) (leAt p 8 8) (leAt (slice p 16 64) 0 8) t)
         else bump R.AS_CNT_SKIPPED t)))) ∧
  (∀ (a : Fin 8) p s c t, (port s a).st = .up → coreUp 2 s → (port (takeInbox a 1 3 p s) a).windows.isNone = false →
    c = { src := .acc a, id := leAt p 8 8, body := p } → t = touchJob c.job (takeInbox a 1 3 p s) → capsuleStatus t a c = 0 →
    exec (.capsule a p) s = .next (settled (
      sendAcc a true { cls := 1, typ := 4, len := 9, payload := leBytes 8 (leAt p 8 8) ++ leBytes 1 0 } (acceptCapsule c t)))) ∧
  (∀ (a : Fin 8) p s c t, (port s a).st = .up → coreUp 2 s → (port (takeInbox a 1 3 p s) a).windows.isNone = false →
    c = { src := .acc a, id := leAt p 8 8, body := p } → t = touchJob c.job (takeInbox a 1 3 p s) → capsuleStatus t a c ≠ 0 →
    exec (.capsule a p) s = .next (settled (
      sendAcc a true { cls := 1, typ := 4, len := 9, payload := leBytes 8 (leAt p 8 8) ++ leBytes 1 (capsuleStatus t a c) }
        (if c.mode = 0 then raise 9 2 a [] t else t)))) ∧
  (∀ src cid s c, capIn s src cid .fetching = some c → fetchOver s c → c.delegated = false →
    exec (.capsuleFetchComplete src cid) s = .next (settled (
      let img := boundPlan c c.image
      let t := submitSelf (.replay c.src.code c.id) c.mode c.plan.1 img.length (homeOf img) (engineWrite c.plan.1 img
        ((List.range c.nin).foldl (fun a i => copyDesc c.src (c.inDesc i) (c.inputs.getD i (0, 0)) a) s))
      setCap c.order (fun _ => { c with
        st := .replaying
        plan := (c.plan.1, img.length)
        planId := some ((List.range c.nin).foldl
          (fun a i => copyDesc c.src (c.inDesc i) (c.inputs.getD i (0, 0)) a) s).press.nextPlan }) t))) ∧
  (∀ src cid s c, capIn s src cid .fetching = some c → fetchOver s c → c.delegated →
    exec (.capsuleFetchComplete src cid) s = .next (settled (
      let s1 := (List.range c.nin).foldl (fun a i => copyDesc c.src (c.inDesc i) (c.inputs.getD i (0, 0)) a) s
      let s2 := match c.output with | some q => copyDesc c.src c.outDesc q s1 | none => s1
      delegateNext { c with st := .replaying, tried := [] } (setCap c.order (fun _ => { c with st := .replaying, tried := [] }) s2)))) ∧
  (∀ src cid s c p, capIn s src cid .replaying = some c → endedPlan s c.planId = some p → p.st = .done →
    c.cmp ≠ 2 → compareResult p = 2 →
    exec (.replayComplete src cid) s = .next (settled (toQueued { takeReports c p with planId := none } (dropPlan p.id s)))) ∧
  (∀ src cid s c p, capIn s src cid .replaying = some c → endedPlan s c.planId = some p → p.st = .aborted →
    exec (.replayComplete src cid) s = .next (settled (toQueued c (dropPlan p.id s)))) ∧
  (∀ src cid s c p, capIn s src cid .replaying = some c → endedPlan s c.planId = some p → p.st = .done →
    c.cmp = 2 ∨ compareResult p ≠ 2 → replayAgrees { takeReports c p with planId := none } p →
    exec (.replayComplete src cid) s = .next (settled (
      finishCap { takeReports c p with planId := none } Vd.CLEAN id (dropPlan p.id s)))) ∧
  (∀ src cid s c p e, capIn s src cid .replaying = some c → endedPlan s c.planId = some p → p.st = .done →
    c.cmp = 2 ∨ compareResult p ≠ 2 → replayAgrees { takeReports c p with planId := none } p = false →
    e = { takeReports c p with planId := none, st := .peerWait, tried := [], peers := [], peerDigests := [] } →
    exec (.replayComplete src cid) s = .next (settled (startPeerPlan e (setCap c.order (fun _ => e) (dropPlan p.id s))))) ∧
  (∀ src cid s c p, capIn s src cid .replaying = some c → endedPlan s c.planId = some p → p.st = .fault → p.reason = 2 →
    exec (.replayComplete src cid) s = .next (settled (
      toHostWait { c with sourcePoison := true, planId := none, clusters := planMask p }
        (raise 9 8 c.src.code (leBytes 8 c.id ++ leBytes 1 c.src.code) (dropPlan p.id s))))) ∧
  (∀ src cid s c a n, capIn s src cid .peerWait = some c → c.req = none → c.tried = [] → c.peers = [] → c.peerPlan = some (a, n) →
    peerCopiesReady s c → exec (.peerPlanCopyComplete src cid) s = .next (settled (fxPeerPlan c a s))) ∧
  (∀ src cid s c, capIn s src cid .peerWait = some c → c.req = none → c.tried = [] → c.peers = [] → c.peerPlan = none →
    exec (.peerPlanCopyComplete src cid) s = .next (settled (startPeerPlan c s))) ∧
  (∀ node p s c t, coreUp 2 s → t = takeSeams 1 0x11 node p s →
    t.assure.caps.find? (fun c => c.st == .peerWait && c.req == some (leAt p 0 8, node)) = some c → leAt p 10 1 = 0 →
    (peerAgrees t c (slice p 16 64)).1 → (peerAgrees t c (slice p 16 64)).2 = false →
    exec (.thirdResult node p) s = .next (settled (
      decideCap { c with req := none, peers := c.peers ++ [node], peerDigests := c.peerDigests ++ [slice p 16 64] } Vd.FAULTY_ACC t))) ∧
  (∀ node p s c t, coreUp 2 s → t = takeSeams 1 0x11 node p s →
    t.assure.caps.find? (fun c => c.st == .peerWait && c.req == some (leAt p 0 8, node)) = some c → leAt p 10 1 = 0 →
    (peerAgrees t c (slice p 16 64)).1 = false → (peerAgrees t c (slice p 16 64)).2 →
    exec (.thirdResult node p) s = .next (settled (
      decideCap { c with req := none, peers := c.peers ++ [node], peerDigests := c.peerDigests ++ [slice p 16 64] } Vd.FAULTY_SELF t))) ∧
  (∀ node p s c t d, coreUp 2 s → t = takeSeams 1 0x11 node p s →
    t.assure.caps.find? (fun c => c.st == .peerWait && c.req == some (leAt p 0 8, node)) = some c → leAt p 10 1 = 0 →
    (peerAgrees t c (slice p 16 64)).1 = (peerAgrees t c (slice p 16 64)).2 →
    d = { c with req := none, peers := c.peers ++ [node], peerDigests := c.peerDigests ++ [slice p 16 64] } →
    exec (.thirdResult node p) s = .next (settled (
      let u := match c.src with
        | .acc k => logVerdict k Vd.UNRESOLVED (fun n => verdictRecord t n d Vd.UNRESOLVED) t
        | .node _ => t
      if d.peers.length < 3 then askNext d (setCap c.order (fun _ => d) u) else toHostWait d u))) ∧
  (∀ node p s c t, coreUp 2 s → t = takeSeams 1 0x11 node p s →
    t.assure.caps.find? (fun c => c.st == .peerWait && c.req == some (leAt p 0 8, node)) = some c → leAt p 10 1 ≠ 0 →
    exec (.thirdResult node p) s = .next (settled (askNext { c with req := none } t))) ∧
  (∀ src cid s c, capIn s src cid .peerWait = some c → c.st = .peerWait → c.req = none →
    exec (.peerRetry src cid) s = .next (settled (askNext { c with tried := [] } s))) ∧
  (∀ src cid s c, capIn s src cid .peerWait = none → capIn s src cid .replaying = some c → c.st = .replaying → c.delegated →
    c.sentTo = none → exec (.peerRetry src cid) s = .next (settled (delegateNext { c with tried := [] } s))) ∧
  (∀ src cid s c, s.assure.caps.find? (fun c => c.src == srcOf src && c.id == cid && c.st == .done) = some c →
    exec (.verdictDelivered src cid) s =
      .next (settled { s with assure.caps := s.assure.caps.filter (fun x => x.order != c.order) })) ∧
  (∀ node p s t, coreUp 2 s → peerWork s < 256 → t = takeSeams 1 0x14 node p s → rdBit t R.AS_CTRL 4 → t.assure.selfTag = false →
    exec (.delegateCapsule node p) s =
      .next (settled (acceptCapsule { src := .node node, id := leAt p 8 8, body := p } t))) ∧
  (∀ node p s c, coreUp 2 s → s.assure.caps.find? (fun c => c.st == .replaying && c.sentTo == some node && c.id == leAt p 0 8
      && c.job == leAt p 16 8 && c.step == leAt p 24 8) = some c →
    exec (.delegateVerdict node p) s =
      .next (settled (decideCap (fromRecord c (slice p 40 512)) (leAt p 8 1) (takeSeams 1 0x15 node p s)))) ∧
  (∀ node p s t, coreUp 2 s → peerWork s < 256 → t = takeSeams 1 0x10 node p s → rdBit t R.AS_CTRL 4 → t.assure.selfTag = false →
    exec (.thirdReq node p) s = .next (settled (
      pressRead 8 (nodeAddr node (leAt p 80 8)) (leAt p 88 4)
        { t with assure.thirds := t.assure.thirds.concat { node := node, body := p, slot := freeWork t } }))) ∧
  (∀ node p s t, coreUp 2 s → peerWork s < 256 → t = takeSeams 1 0x10 node p s → t.assure.selfTag →
    exec (.thirdReq node p) s = .next (settled (sendThird node (leAt p 0 8) 1 [] t))) ∧
  (∀ node req s w p, s.assure.thirds.find? (fun t => t.node == node && leAt t.body 0 8 == req) = some w →
    endedPlan s w.planId = some p → coreUp 2 s → w.st = .running → reportInput p (nStages p.image - 1) 0 = none ∨ leAt w.body 10 1 ≠ 1 →
    exec (.thirdExecutionComplete node req) s = .next (settled (thirdAnswer w p s)))

/-- A darn captured, offered, fetched, prepared, asked for, and the result of a screening: with the scheduler core up each
command answers the settling of the state that its rules give. A darn that was prepared to its expected digest is
entered into the library and offered onward; one that two clusters contradict is quarantined; one that fails its
checks is forgotten; an accelerator that answers a screening with another digest is drained, tagged and recorded
FAULTY-ACC. (R175, R178, R179, R180, R181, R182, R183, R184) -/
def Obligations.DarnCommandsComplete : Prop :=
  (∀ src cid s k p d e, s.assure.captures.find? (fun k => k.src == srcOf src && k.id == cid) = some k →
    endedPlan s (some k.planId) = some p → coreUp 2 s → secOperational s → p.st = .done →
    d = makeDarn s k (reportBytes p (nStages p.image - 1)) (((reportInput p (nStages p.image - 1) 0).map rowsBytes).getD []) →
    e = { id := darnNum (slice d 8 16), origin := nodeId s, isLocal := true, prepared := true, slot := 0 } →
    exec (.darnCaptureComplete src cid) s = .next (settled (
      let t := enterDarn e d (countSign (dropCapture k s))
      if (darnOf t e.id).isSome then
        offerAll e.id (raise 9 5 k.src.code (slice d 8 16) (patchRecord k.seq (slice d 8 16) (frontDarn e.id t)))
      else t))) ∧
  (∀ (j : Fin 4) p s, (port s (8 + j)).st = .up → coreUp 2 s → memReady s → (originKeys s (leAt p 16 2)).isEmpty = false →
    offerIgnored s (leAt p 0 16) (leAt p 18 4) = false →
    exec (.darnOffer j p) s = .next (settled (
      let t := takeInbox (8 + j) 1 0x12 p s
      let w : DarnWork := { id := leAt p 0 16, node := seamNeighbour s j, origin := leAt p 16 2, len := leAt p 18 4
                            addr := leAt p 22 8, slot := freeWork s }
      pressRead 8 (nodeAddr w.node w.addr) w.len { t with assure.fetches := t.assure.fetches.concat w }))) ∧
  (∀ (j : Fin 4) p s, (port s (8 + j)).st = .up → coreUp 2 s → offerIgnored s (leAt p 0 16) (leAt p 18 4) →
    exec (.darnOffer j p) s = .next (settled (takeInbox (8 + j) 1 0x12 p s))) ∧
  (∀ darn s w, s.assure.fetches.find? (fun w => w.id == darn) = some w → coreUp 2 s → w.planId = none →
    rangeReady s (nodeAddr w.node w.addr) w.len → darnOf s w.id = none →
    exec (.darnFetchComplete darn) s = .next (settled (
      if darnOk s w (fetchedDarn s w) then submitPrep w (fetchedDarn s w) none s else dropFetch w s))) ∧
  (∀ darn s w x, s.assure.fetches.find? (fun w => w.id == darn) = some w → coreUp 2 s → w.planId = none →
    rangeReady s (nodeAddr w.node w.addr) w.len → darnOf s w.id = some x →
    exec (.darnFetchComplete darn) s = .next (settled (
      if darnOk s w (fetchedDarn s w) then fillSlot x (fetchedDarn s w) (dropFetch w s) else dropFetch w s))) ∧
  (∀ darn s w p, s.assure.fetches.find? (fun w => w.id == darn) = some w → endedPlan s w.planId = some p → coreUp 2 s →
    p.st = .done → reportBytes p (nStages p.image - 1) = darnExpect (fetchedDarn s w) → w.firstOn = none →
    exec (.darnPreparationComplete darn) s = .next (settled (fxPrepared w (fetchedDarn s w) (dropPlan p.id s)))) ∧
  (∀ darn s w p m, s.assure.fetches.find? (fun w => w.id == darn) = some w → endedPlan s w.planId = some p → coreUp 2 s →
    p.st = .done → reportBytes p (nStages p.image - 1) ≠ darnExpect (fetchedDarn s w) → w.firstOn = some m →
    exec (.darnPreparationComplete darn) s = .next (settled (raise 9 5 noInst (leBytes 16 w.id)
      (enterDarn { id := w.id, origin := w.origin, kind := darnKind (fetchedDarn s w), quarantined := true, slot := 0 }
        (fetchedDarn s w) (dropFetch w (dropPlan p.id s)))))) ∧
  (∀ (j : Fin 4) p s d, (port s (8 + j)).st = .up → coreUp 2 s → rdBit (takeInbox (8 + j) 1 0x13 p s) R.AS_CTRL 3 →
    darnOf (takeInbox (8 + j) 1 0x13 p s) (leAt p 0 16) = some d → darnHeld (takeInbox (8 + j) 1 0x13 p s) d → d.quarantined = false →
    exec (.darnWant j p) s = .next (settled (
      sendSeam j false (offerMsg (takeInbox (8 + j) 1 0x13 p s) d) (takeInbox (8 + j) 1 0x13 p s)))) ∧
  (∀ (a : Fin 8) p s r t d u, (port s a).st = .up → coreUp 2 s → r = takeInbox a 1 7 p s →
    r.assure.screening.get none a.val = some (leAt p 0 16) → darnOf r (leAt p 0 16) = some d →
    t = (dramLoad 4 (slotAddr r d.slot + 144) 64 r).1 →
    u = bump R.AS_CNT_SCREEN_RUNS { t with assure.screening := SMap.set none t.assure.screening a none } →
    slice p 16 64 = dramRead t (slotAddr t d.slot + 144) 64 → exec (.screenResult a p) s = .next (settled u)) ∧
  (∀ (a : Fin 8) p s r t d u, (port s a).st = .up → coreUp 2 s → r = takeInbox a 1 7 p s →
    r.assure.screening.get none a.val = some (leAt p 0 16) → darnOf r (leAt p 0 16) = some d →
    t = (dramLoad 4 (slotAddr r d.slot + 144) 64 r).1 →
    u = bump R.AS_CNT_SCREEN_RUNS { t with assure.screening := SMap.set none t.assure.screening a none } →
    slice p 16 64 ≠ dramRead t (slotAddr t d.slot + 144) 64 →
    exec (.screenResult a p) s = .next (settled (
      let v := beginDrain a (bump R.AS_CNT_FAULTY_ACC (setDarn d.id (fun x => { x with hits := x.hits + 1 }) u))
      let c : Capsule := { src := .acc a, id := 0, body := zeros 1 ++ [2#8] ++ zeros 270
                           pressDigest := dramRead t (slotAddr t d.slot + 144) 64, accDigest := slice p 16 64
                           darnId := leBytes 16 d.id }
      accFaulty a 2 (leBytes 16 d.id) (logVerdict a Vd.FAULTY_ACC (fun n => verdictRecord v n c Vd.FAULTY_ACC) v))))

/-- Reads, writes, scrubbing, die temperatures, refresh bands, training and zero fill: each answers the settling of the
state that its rules give. A word that decodes clean changes nothing, a corrected one is counted and written back, one
that is uncorrectable twice is logged and delivered with POISON; a whole-word write replaces the word, and one of part
of a word reads it first. An access inside the host-coherent region is sent to the host as a claim; one while the
memory is not ready is ABSENT, one beyond it is undecoded. A word holds the errors that were written into it until it
is written again, which is the model's (log entry 113). (R193, R194, R200, R201, R202, R203, R204, R205, R209, R210) -/
def Obligations.MemoryCommandsComplete : Prop :=
  (∀ a (m : Fin 37) e1 e2 s r, a + 1 ≤ dramSize → dramOpen s → m.val = 35 ∨ inHcr s a 1 = false →
    r = xorBytes (tcEncode (dramRead s (a / 32 * 32) 32)) (s.mem.errs.get [] (a / 32 * 32)) →
    tcDecode (modeC2 s) (xorBytes r e1) = .clean → exec (.dramRead a m e1 e2) s = .next (settled s)) ∧
  (∀ a (m : Fin 37) e1 e2 s r w bs, a + 1 ≤ dramSize → dramOpen s → m.val = 35 ∨ inHcr s a 1 = false →
    r = xorBytes (tcEncode (dramRead s (a / 32 * 32) 32)) (s.mem.errs.get [] (a / 32 * 32)) →
    tcDecode (modeC2 s) (xorBytes r e1) = .corrected w bs ∨
      tcDecode (modeC2 s) (xorBytes r e1) = .uncorrectable ∧ tcDecode (modeC2 s) (xorBytes r e2) = .corrected w bs →
    exec (.dramRead a m e1 e2) s = .next (settled (
      dramPut (a / 32 * 32) (w.take 32) (bs.foldl (fun t j => countLane (stackOf s (a / 32 * 32)).1 j t)
        (bump (R.MEM_CNT_CE (stackOf s (a / 32 * 32)).1) s))))) ∧
  (∀ a (m : Fin 37) e1 e2 s r, a + 1 ≤ dramSize → dramOpen s → m.val = 35 ∨ inHcr s a 1 = false →
    r = xorBytes (tcEncode (dramRead s (a / 32 * 32) 32)) (s.mem.errs.get [] (a / 32 * 32)) →
    tcDecode (modeC2 s) (xorBytes r e1) = .uncorrectable → tcDecode (modeC2 s) (xorBytes r e2) = .clean →
    exec (.dramRead a m e1 e2) s = .next (settled (
      dramPut (a / 32 * 32) ((xorBytes r e2).take 32) (bump (R.MEM_CNT_CE (stackOf s (a / 32 * 32)).1) s)))) ∧
  (∀ a (m : Fin 37) e1 e2 s r, a + 1 ≤ dramSize → dramOpen s → m.val = 35 ∨ inHcr s a 1 = false →
    r = xorBytes (tcEncode (dramRead s (a / 32 * 32) 32)) (s.mem.errs.get [] (a / 32 * 32)) →
    tcDecode (modeC2 s) (xorBytes r e1) = .uncorrectable → tcDecode (modeC2 s) (xorBytes r e2) = .uncorrectable →
    exec (.dramRead a m e1 e2) s = .next (settled (poisonTo m a
      (wordLost (a / 32 * 32) (readerCode m) (xorBytes r e2) s)))) ∧
  (∀ a (m : Fin 37) d err s, a + d.length ≤ dramSize → dramOpen s → m.val = 35 ∨ inHcr s a d.length = false →
    a % 32 = 0 → d.length = 32 → exec (.dramWrite a ⟨m, d⟩ err) s = .next (settled (dramWrite a d s))) ∧
  (∀ a (m : Fin 37) d err s r, a + d.length ≤ dramSize → dramOpen s → m.val = 35 ∨ inHcr s a d.length = false →
    a % 32 + d.length < 32 → d ≠ [] → r = readWord (a / 32 * 32) 6 err err s →
    exec (.dramWrite a ⟨m, d⟩ err) s =
      .next (settled (if r.2 then writeError m r.1 else dramWrite (a / 32 * 32 + a % 32) d r.1))) ∧
  (∀ a (m : Fin 37) e1 e2 s, a + 1 ≤ dramSize → dramOpen s → m.val ≠ 35 → inHcr s a 1 →
    exec (.dramRead a m e1 e2) s = .next (settled (hostRequest Op.CLAIM_S a 1 (fix 36 e1 ++ fix 36 e2) (.mem m) s))) ∧
  (∀ a (m : Fin 37) d err s, a + d.length ≤ dramSize → dramOpen s → m.val ≠ 35 → inHcr s a d.length →
    exec (.dramWrite a ⟨m, d⟩ err) s = .next (settled (hostRequest Op.CLAIM_E a d.length (d ++ err) (.mem m) s))) ∧
  (∀ a (m : Fin 37) e1 e2 d err s, a + 1 ≤ dramSize → a + d.length ≤ dramSize → dramOpen s = false →
    exec (.dramRead a m e1 e2) s = .next (settled (absentError a s)) ∧
    exec (.dramWrite a ⟨m, d⟩ err) s = .next (settled (absentWrite m a s))) ∧
  (∀ a (m : Fin 37) e1 e2 d err s, dramSize < a + 1 → dramSize < a + d.length →
    exec (.dramRead a m e1 e2) s = .next (settled (decodeError a s)) ∧
    exec (.dramWrite a ⟨m, d⟩ err) s = .next (settled (decodeError a s))) ∧
  (∀ (q : Fin 4) e1 e2 s p, memReady s → (stack s q).immediate = some p →
    exec (.patrolScrubRead q e1 e2) s = .next (settled (
      setStack q (fun k => { k with immediate := some ((p + 1) % stackWords) }) (readWord (addrOf s q (32 * p)) 0 e1 e2 s).1))) ∧
  (∀ (q : Fin 4) e1 e2 s, memReady s → (stack s q).immediate = none → rdFld s R.SCRUB_CTRL 7 0 ≠ 0 →
    exec (.patrolScrubRead q e1 e2) s =
      .next (settled (patrolOn q (readWord (addrOf s q (32 * rdN s (R.SCRUB_POS q))) 0 e1 e2 s).1))) ∧
  (∀ s, islandAnswers 11 s → passRuns s = false → memReady s →
    exec .scrubNow s = .next (settled (startPass (setBits R.SCRUB_CTRL (2 ^ 31) s)))) ∧
  (∀ v s, islandAnswers 11 s → fld v 7 0 = 0 → bitAt v 31 = false → exec (.scrubPeriodWrite v) s =
    .next (settled (raise 6 5 noInst [] (wrFld R.SCRUB_CTRL 7 0 0 s)))) ∧
  (∀ v s, islandAnswers 11 s → fld v 7 0 ≠ 0 → bitAt v 31 = false → exec (.scrubPeriodWrite v) s =
    .next (settled (wrFld R.SCRUB_CTRL 7 0 (fld v 7 0) s))) ∧
  (∀ (q : Fin 4) s, (stack s q).immediate.isSome →
    passRuns (setStack q (fun k => { k with immediate := none }) s) = false →
    exec (.scrubPassComplete q) s =
      .next (settled (clrBits R.SCRUB_CTRL (2 ^ 31) (setStack q (fun k => { k with immediate := none }) s)))) ∧
  (∀ (q : Fin 4) temps s, islandOn 11 s → exec (.dramTempRead q temps) s = .next (settled (
    let s1 := (List.range 16).foldl (dieRead q temps s) s
    let ts := (List.range 16).map (dieT s1 q)
    let t := maxInt 0 ts
    let k := stack s1 q
    let s2 := setStack q (fun x => { x with
      tmax := t
      hotDie := ((List.range 16).find? (fun d => ts.getD d 0 == t)).getD 0
      below := if k.band ≠ 0 && t + 20 ≤ bandFloor k.band then k.below + 1 else 0 }) s1
    if k.band < bandOf t then enterBand q (bandOf t) s2 else s2))) ∧
  (∀ (q : Fin 4) s, (stack s q).band ≠ 0 → 100 ≤ (stack s q).below →
    exec (.refreshBandLower q) s = .next (settled (enterBand q ((stack s q).band - 1) s))) ∧
  (∀ v s, exec (.tcModeWrite v) s = .next (settled (wr R.TC_MODE (v &&& 1) s))) ∧
  (∀ (q : Fin 4) s t, memStateOf s = 1 → (stack s q).trained = false →
    t = setStack q (fun k => { k with tries := k.tries + 1, trained := true }) s → (∀ r < 4, (stack t r).trained) →
    exec (.memTrainingComplete q true) s = .next (settled (wrFld R.MEM_STATE 2 0 2 t))) ∧
  (∀ (q : Fin 4) s t, memStateOf s = 1 → (stack s q).trained = false →
    t = setStack q (fun k => { k with tries := k.tries + 1, trained := false }) s → 3 ≤ (stack t q).tries →
    exec (.memTrainingComplete q false) s = .next (settled (
      (List.range 8).foldl (fun a c => suspendCluster c a) (raise 6 4 q [] (wrFld R.MEM_STATE 2 0 4 t))))) ∧
  (∀ (q : Fin 4) s t, memStateOf s = 2 → t = setBits R.MEM_STATE (2 ^ (4 + q.val)) s → rdFld t R.MEM_STATE 7 4 = 15 →
    t.mem.nowWaits = false →
    exec (.memZeroFillComplete q) s = .next (settled (wrFld R.MEM_STATE 2 0 3 { t with su.hcrLost := false })))

/-- Enable and disable, lock, alignment, identity, failures and retraining of the 12 Gheplane ports and of the Suorta link
(port 12), the control flits of a port, and the key certificates of a neighbour: each command answers, in the port
state that it fits, the settling of the state that its rules give. (R216, R218, R219, R220, R223, R225, R226, R227,
R237, R244, R251, R449) -/
def Obligations.LinkTrainingCommandsComplete : Prop :=
  (∀ (k : Fin 13) s t, t = setBits (ctrlReg k) 1 s → t.chip.draining.getLsbD (portIsland k) = false → linkPowered k t →
    linkSt k t = .off → exec (.portEnable k) s = .next (settled (linkStart k t))) ∧
  (∀ (k : Fin 13) s t, t = setBits (ctrlReg k) 1 s → t.chip.draining.getLsbD (portIsland k) = false →
    linkPowered k t = false ∨ linkSt k t ≠ .off → exec (.portEnable k) s = .next (settled t)) ∧
  (∀ (k : Fin 13) s t, t = setBits (ctrlReg k) 1 s → t.chip.draining.getLsbD (portIsland k) →
    exec (.portEnable k) s = .next (settled { t with chip.reenable := t.chip.reenable ||| (1#26 <<< portIsland k) })) ∧
  (∀ (k : Fin 13) s, k.val ≠ 12 → exec (.portDisable k) s =
    .next (settled (portLose k (portGo k .off (seamFails k (clrBits (R.PORT_CTRL k) 1 s)))))) ∧
  (∀ s, exec (.portDisable 12) s = .next (settled (suLeave .off (clrBits R.SU_CTRL 1 s)))) ∧
  (∀ (k : Fin 13) s, k.val ≠ 12 → (port s k).st = .up → exec (.portRetrainRequest k) s = .next (settled (
    bump (R.GH_CNT_RETRAIN k) (setPort k (fun p => { p with upSince := none }) (portGo k .retrain (seamFails k s)))))) ∧
  (∀ s, s.su.st = .up → exec (.portRetrainRequest 12) s = .next (settled (bump R.SU_CNT_RETRAIN (suGo .retrain s)))) ∧
  (∀ (k : Fin 13) inv s, k.val ≠ 12 → (port s k).st = .training → exec (.lanesTrained k inv) s = .next (settled (
    let t := (List.range 4).foldl (fun a l => wr (R.GH_LANE_STAT k l)
      (BitVec.ofNat 32 (1 + 256 * (Config.unstated 7 (a.fresh + l) % 256) + 65536 * b2n (inv.testBit l))) a) s
    setPort k (fun p => { p with lanes := 0xF }) (portGo k .locked { t with fresh := t.fresh + 4 })))) ∧
  (∀ inv s, s.su.st = .training → exec (.lanesTrained 12 inv) s = .next (settled (
    let t := suGo .locked ((fun u : State => { u with fresh := u.fresh + 16 }) ((List.range 16).foldl (fun a l => wr (R.SU_LANE_STAT l)
      (BitVec.ofNat 32 (1 + 256 * (Config.unstated 7 (a.fresh + l) % 256) + 65536 * b2n (inv.testBit l))) a) s))
    { t with su.lanes := 0xFFFF }))) ∧
  (∀ (k : Fin 13) s, linkMode k s = 1 → linkSt k s = .locked →
    exec (.flitAligned k) s = .next (settled (linkGo k .test s))) ∧
  (∀ (k : Fin 13) s, k.val < 8 → linkMode k s ≠ 1 → linkSt k s = .locked →
    exec (.flitAligned k) s = .next (settled (sendCtrl k 0x03 (linkIdBytes (portGo k .ident s) k) (portGo k .ident s)))) ∧
  (∀ (k : Fin 13) s, 8 ≤ k.val → k.val < 12 → linkMode k s ≠ 1 → linkSt k s = .locked →
    exec (.flitAligned k) s = .next (settled (
      let t := sendCtrl k 0x03 (linkIdBytes (portGo k .ident s) k) (portGo k .ident s)
      let known := t.torus.links.map (fun e => e.1)
      sendCtrl k 0x08 (leBytes 1 1 ++ zeros 7 ++ keyCert s 1) (sendCtrl k 0x08 (leBytes 1 0 ++ zeros 7 ++ keyCert s 0)
        (sendFlits k (linkMapFlits (known.length + 1) known t) t))))) ∧
  (∀ s, linkMode 12 s ≠ 1 → s.su.st = .locked → exec (.flitAligned 12) s = .next (settled (
    sendFrame { ch := 5, op := 0x63, len := (suLinkIdBytes s).length, data := suLinkIdBytes s } (suGo .ident s)))) ∧
  (∀ (k : Fin 13) p s, k.val < 8 → (port s k).st = .ident → linkMode k s = 0 → leAt p 0 1 = 1 → leAt p 4 1 = 1 →
    ∃ t, exec (.linkId k p) s = .next (settled (fxPortUp k t)) ∧ t.pending = s.pending ∧ t.mem = s.mem ∧ t.su = s.su) ∧
  (∀ (k : Fin 13) p s, k.val ≠ 12 → (port s k).st = .ident → identMatches k p s = false →
    exec (.linkId k p) s = .next (settled (identMismatch k
      (wr (R.PARTNER k) (BitVec.ofNat 32 (leAt p 2 2 % 2048 + leAt p 1 1 * 65536 + leAt p 0 1 * 16777216))
        (setPort k (fun q => { q with credit := linkCredits p, linkId := p }) s))))) ∧
  (∀ (j : Fin 4) p s, (port s (8 + j)).st = .ident → leAt p 0 1 = 1 → exec (.linkMap j p) s = .next (settled (
    let t := takeCtrl (8 + j) 0x05 p s
    let l := leAt (slice p 1 5) 0 2
    let e : LinkEntry := ⟨leAt (slice p 1 5) 2 1 == 1, leAt (slice p 1 5) 3 2⟩
    if noticeApplies (linkOf t l) e then flood j l (setLink l e t) else t))) ∧
  (∀ (j : Fin 4) p s, (port s (8 + j)).st = .up ∨ (port s (8 + j)).st = .ident → leAt p 0 1 = 0 → exec (.keyCert j p) s =
    .next (settled { takeCtrl (8 + j) 0x08 p s with
      sec.certPart := SMap.set [] (takeCtrl (8 + j) 0x08 p s).sec.certPart j.val (slice p 8 136) })) ∧
  (∀ (j : Fin 4) p s t, (port s (8 + j)).st = .ident → leAt p 0 1 ≠ 0 →
    t = { takeCtrl (8 + j) 0x08 p s with
      sec.certPart := SMap.set [] (takeCtrl (8 + j) 0x08 p s).sec.certPart j.val [] } → (port t (8 + j)).st = .ident →
    exec (.keyCert j p) s = .next (settled (
      let first := (takeCtrl (8 + j) 0x08 p s).sec.certPart.get [] j.val
      if certPairOk first (slice p 8 136) then
        let u := enterKey (seamNeighbour t j) (slice p 8 136) t
        let v := setPort (8 + j) (fun q => { q with certOk := true })
          (if keyHeld t (slice p 8 136) then u else passKeys j first (slice p 8 136) u)
        if (port v (8 + j)).identOk then identGo (8 + j) v else v
      else identMismatch (8 + j) t))) ∧
  (∀ (j : Fin 4) s, (port s (8 + j)).st = .ident → rdBit s (R.PORT_ERR (8 + j)) 3 → (port s (8 + j)).identOk = false →
    (port s (8 + j)).linkId ≠ [] → identMatches (8 + j) (port s (8 + j)).linkId s →
    exec (.identRecheck j) s = .next (settled (identGo (8 + j) (setPort (8 + j) (fun q => { q with identOk := true })
      (sendCtrl (8 + j) 0x03 (linkIdBytes s (8 + j)) s))))) ∧
  (∀ (j : Fin 4) s, (port s (8 + j)).st = .ident → rdBit s (R.PORT_ERR (8 + j)) 3 → (port s (8 + j)).identOk →
    exec (.identRecheck j) s = .next (settled (identGo (8 + j) (sendCtrl (8 + j) 0x03 (linkIdBytes s (8 + j)) s)))) ∧
  (∀ (k : Fin 13) s, linkSt k s = .training ∨ linkSt k s = .locked →
    exec (.trainingTimeout k) s = .next (settled (linkDown k (setBits (errReg k) 1
      (bump (if k.val = 12 then R.SU_CNT_RETRAIN else R.GH_CNT_RETRAIN k) s))))) ∧
  (∀ (k : Fin 13) s, linkSt k s = .down → linkPowered k s → exec (.downRetry k) s = .next (settled (linkGo k .training s))) ∧
  (∀ (k : Fin 13) s, linkSt k s = .up → exec (.portFailure k true) s = .next (settled (fxRetrain k (setBits (errReg k) 2 s)))) ∧
  (∀ (k : Fin 13) s, linkSt k s = .up → exec (.portFailure k false) s = .next (settled (fxRetrain k s))) ∧
  (∀ (k : Fin 13) s, linkSt k s = .retrain → exec (.retrainComplete k false) s = .next (settled (linkDown k s))) ∧
  (∀ (k : Fin 13) s, k.val ≠ 12 → (port s k).st = .retrain → exec (.retrainComplete k true) s = .next (settled (
    setPort k (fun p => portPump { p with st := .up, upSince := some (now s), naks := []
                                          retry := p.retry.map (fun x => { x with replays := 0 }) }) s))) ∧
  (∀ s, s.su.st = .retrain → exec (.retrainComplete 12 true) s = .next (settled
    { s with su := suPump { s.su with st := .up, retry := s.su.retry.map (fun x => { x with replays := 0 }) } })) ∧
  (∀ (k : Fin 13) s, k.val ≠ 12 → (port s k).st = .up ∨ (port s k).st = .ident ∨ (port s k).st = .test →
    (port s k).farLoop = false → exec (.ctrlSlotDue k) s = .next (settled (
      let t := setPort k (fun p => { p with idles := idleFlits 16 p, owed := [] }) (generate k (sendCtrl k 0x07 [] s))
      if (port s k).st = .test ∧ linkMode k s = 1 then loopBack k t else t))) ∧
  (∀ s, s.su.st = .up → exec (.ctrlSlotDue 12) s = .next (settled (sendFrame { ch := 5, op := 0x64 } s))) ∧
  (∀ (k : Fin 12) p s, (port s k).st = .up ∨ (port s k).st = .ident → exec (.loopReq k p) s = .next (settled (
    setPort k (fun q => { q with farLoop := true }) (portGo k .test (portLose k (seamFails k (takeCtrl k 0x06 p s))))))) ∧
  (∀ (a : Fin 8) p s, (port s a).st = .up → exec (.windowDecl a p) s = .next (settled (
    setPort a (fun q => { q with windows := some (parseWindows 16 p) }) (takeInbox a 5 1 p s))))

/-- A flit received, a NAK, telemetry, injection and forwarding, link notices, the exchange of time, and the messages that
an UP port delivers: each command answers the settling of the state that its rules give. A flit whose words all decode
and whose SEQ is the expected one is accepted, one with an uncorrectable word is answered by a NAK, one out of
sequence likewise; a forwarded flit goes straight on over an UP link. (R207, R220, R222, R224, R225, R232, R233, R234,
R235, R236, R237, R238) -/
def Obligations.FlitAndMessageCommandsComplete : Prop :=
  (∀ (k : Fin 12) bs s, (port s k).st = .up → (port s k).farLoop = false → (flitWords bs).any (fun w => tcDecode (rdBit s R.TC_MODE 0) w == .uncorrectable) →
    (flitWords bs).all (fun w => match tcDecode (rdBit s R.TC_MODE 0) w with | .corrected _ _ => false | _ => true) →
    exec (.flitReceived k bs) s = .next (settled (
      sendNak k (bump (R.GH_CNT_TC_UNCORR k) (countFec (R.GH_CNT_FEC_CORR k) (R.GH_CNT_FEC_UNCORR k) s))))) ∧
  (∀ (k : Fin 12) bs s f h, (port s k).st = .up → (port s k).farLoop = false →
    (flitWords bs).all (fun w => tcDecode (rdBit s R.TC_MODE 0) w == .clean) →
    h = (fix 36 (slice bs 0 36)).take 32 →
    f = parseFlit h (((flitWords bs).drop 1).flatMap (fun w => w.take 32)) → f.ftype ≠ 0 →
    leAt h 2 2 % 4096 = (port s k).rxSeq →
    exec (.flitReceived k bs) s = .next (settled (acceptFlit k f (setPort k (takeLinkFields h)
      (countFec (R.GH_CNT_FEC_CORR k) (R.GH_CNT_FEC_UNCORR k) s))))) ∧
  (∀ (k : Fin 12) bs s f h, (port s k).st = .up → (port s k).farLoop = false →
    (flitWords bs).all (fun w => tcDecode (rdBit s R.TC_MODE 0) w == .clean) →
    h = (fix 36 (slice bs 0 36)).take 32 →
    f = parseFlit h (((flitWords bs).drop 1).flatMap (fun w => w.take 32)) → f.ftype ≠ 0 →
    leAt h 2 2 % 4096 ≠ (port s k).rxSeq → exec (.flitReceived k bs) s = .next (settled (
      sendNak k (countFec (R.GH_CNT_FEC_CORR k) (R.GH_CNT_FEC_UNCORR k) s)))) ∧
  (∀ (k : Fin 12) bs s f h t, (port s k).st = .up → (port s k).farLoop = false →
    (flitWords bs).all (fun w => tcDecode (rdBit s R.TC_MODE 0) w == .clean) → h = (fix 36 (slice bs 0 36)).take 32 →
    f = parseFlit h (((flitWords bs).drop 1).flatMap (fun w => w.take 32)) → f.ftype = 0 →
    t = countFec (R.GH_CNT_FEC_CORR k) (R.GH_CNT_FEC_UNCORR k) s →
    exec (.flitReceived k bs) s = .next (settled (setPort k (takeLinkFields h) t))) ∧
  (∀ (k : Fin 12) bs s, (port s k).st = .test → (port s k).farLoop →
    (flitWords bs).all (fun w => tcDecode (rdBit s R.TC_MODE 0) w == .clean) →
    exec (.flitReceived k bs) s = .next (settled (setPort k (fun p => { p with looped := fix 288 bs })
      (countFec (R.GH_CNT_FEC_CORR k) (R.GH_CNT_FEC_UNCORR k) s)))) ∧
  (∀ (k : Fin 12) seq s t, (port s k).st = .up →
    (replayFrom seq (port s k).txSeq (port s k).retry).all (fun x => x.replays < 8) →
    t = bump (R.GH_CNT_REPLAY k) (takeCtrl k 0x01 (leBytes 2 seq) s) → exec (.nak k seq) s = .next (settled (
      setPort k (fun p => portPump { p with
        retry := replayFrom seq (port s k).txSeq (port s k).retry
        naks := ((port s k).naks.filter (fun u => now s < u + 1)) ++ [now s]
        upSince := if 16 ≤ (((port s k).naks.filter (fun u => now s < u + 1)) ++ [now s]).length then some (now s) else p.upSince })
        t))) ∧
  (∀ (k : Fin 12) seq s t, (port s k).st = .up →
    (replayFrom seq (port s k).txSeq (port s k).retry).any (fun x => 8 ≤ x.replays) →
    t = bump (R.GH_CNT_REPLAY k) (takeCtrl k 0x01 (leBytes 2 seq) s) → exec (.nak k seq) s = .next (settled (
      fxRetrain k (setBits (R.PORT_ERR k) 4 (setPort k (fun p => portPump { p with
        retry := replayFrom seq (port s k).txSeq (port s k).retry
        naks := ((port s k).naks.filter (fun u => now s < u + 1)) ++ [now s]
        upSince := if 16 ≤ (((port s k).naks.filter (fun u => now s < u + 1)) ++ [now s]).length then some (now s) else p.upSince })
        t))))) ∧
  (∀ s, exec .trayStatusSend s = .next (settled (((List.range 12).filter (fun k => (port s k).st == .up)).foldl (fun a k =>
    let m : Msg := { cls := 4, typ := 1, len := 16, payload := trayStatusBytes s, src := nodeId s }
    if k < 8 then sendAcc k true m a
    else sendFlits k (msgFlits { m with dst := seamNeighbour s (k - 8) } (vcOf false true (crossesDateline s (k - 8)))) a) s))) ∧
  (∀ h p s t, sendNode (isRsp (msgOf h p).cls (msgOf h p).typ) (msgOf h p) s = some t →
    exec (.messageInject h p) s = .next (settled t)) ∧
  (∀ h p s, sendNode (isRsp (msgOf h p).cls (msgOf h p).typ) (msgOf h p) s = none → s.torus.remotes = [] →
    exec (.messageInject h p) s = .next (settled (if isRsp (msgOf h p).cls (msgOf h p).typ then bump R.CNT_UNREACH s
      else ownFails (msgOf h p).cls (msgOf h p).tag (bump R.CNT_UNREACH s)))) ∧
  (∀ (k : Fin 12) h p s f t g j, 8 ≤ k.val → f = parseFlit h p → (port s k).st = .up → f.dst ≠ nodeId s → f.loc = false →
    t = setPort k (fun q => { q with transit := q.transit.erase f }) s → g = { f with via := some k.val } →
    rdBit t R.ROUTE_CTRL 0 → f.hops < 126 → turnedSeam t g = none → j = onwardSeam t k g → seamGoes t j →
    exec (.flitForward k h p) s = .next (settled (forwardStraight j k g t))) ∧
  (∀ (k : Fin 12) h p s f t g, 8 ≤ k.val → f = parseFlit h p → (port s k).st = .up → f.dst ≠ nodeId s → f.loc = false →
    t = setPort k (fun q => { q with transit := q.transit.erase f }) s → g = { f with via := some k.val } →
    rdBit t R.ROUTE_CTRL 0 = false ∨ 126 ≤ f.hops →
    exec (.flitForward k h p) s = .next (settled (bump R.CNT_DROP (dropFlit g t)))) ∧
  (∀ (k : Fin 12) h p s f t g j, 8 ≤ k.val → f = parseFlit h p → (port s k).st = .up → f.dst ≠ nodeId s → f.loc = false →
    t = setPort k (fun q => { q with transit := q.transit.erase f }) s → g = { f with via := some k.val } →
    rdBit t R.ROUTE_CTRL 0 → f.hops < 126 → turnedSeam t g = none → j = onwardSeam t k g → seamGoes t j = false →
    exec (.flitForward k h p) s = .next (settled (
      match turnTo t g j with
      | some (j', yx) => forwardOn j' yx g (keepTurn g j' (bump R.CNT_TURNED t))
      | none => dropFlit g t))) ∧
  (∀ (j : Fin 4) p s t, (port s (8 + j)).st = .up → t = takeCtrl (8 + j) 0x04 (p.take 5) s →
    exec (.linkNotice j p) s = .next (settled (
      if noticeApplies (linkOf t (leAt p 0 2)) ⟨leAt p 2 1 == 1, leAt p 3 2⟩ then
        flood j (leAt p 0 2) (setLink (leAt p 0 2) ⟨leAt p 2 1 == 1, leAt p 3 2⟩ t)
      else t))) ∧
  (∀ (j : Fin 4) s u, ownsLink j → (port s (8 + j)).st = .up → rdBit s R.ROUTE_CTRL 0 → (port s (8 + j)).upSince = some u →
    u + 100 ≤ now s → exec (.linkUpDeclare j) s = .next (settled (ownLink j true s))) ∧
  (∀ (j : Fin 4) s, (port s (8 + j)).st = .up → exec (.timeExchange j) s = .next (settled (
    setPort (8 + j) (fun q => { q with stampSent := taiNow s
                                       stampsPast := ((port s (8 + j)).stampSent :: (port s (8 + j)).stampsPast).take 3 })
      (sendCtrl (8 + j) 0x02 (leBytes 8 (port s (8 + j)).stampSent ++ leBytes 8 (port s (8 + j)).stampRx) s)))) ∧
  (∀ (j : Fin 4) p at_ s (t1 t2 t3 t4 : Int) u, (port s (8 + j)).st = .up → t2 = leAt p 8 8 → t3 = leAt p 0 8 →
    t4 = (port s (8 + j)).stampRx → t1 = ownStamp (port s (8 + j)) t2 t3 t4 → t1 ≠ 0 → t2 ≠ 0 → t3 ≠ 0 → t4 ≠ 0 →
    u = wr (R.LINK_DELAY (8 + j)) (BitVec.ofNat 32 (min 0xFFFF (max 0 (((t4 - t1) - (t3 - t2)) / 2)).toNat))
      (setPort (8 + j) (fun q => { q with stampRx := at_ }) (takeCtrl (8 + j) 0x02 p s)) →
    exec (.timeFlit j p at_) s = .next (settled (
      if seamMode u && timeParent u == some j.val then correctTime (((t1 - t2) + (t4 - t3)) / 2) u else u))) ∧
  (∀ (j : Fin 4) p at_ s, (port s (8 + j)).st = .up → leAt p 8 8 = 0 ∨ leAt p 0 8 = 0 ∨ (port s (8 + j)).stampRx = 0 ∨
      ownStamp (port s (8 + j)) (leAt p 8 8 : Nat) (leAt p 0 8 : Nat) ((port s (8 + j)).stampRx : Nat) = 0 →
    exec (.timeFlit j p at_) s =
      .next (settled (setPort (8 + j) (fun q => { q with stampRx := at_ }) (takeCtrl (8 + j) 0x02 p s)))) ∧
  (∀ v s, bitAt v 0 = false → exec (.routeCtrlWrite v) s = .next (settled (
    [0, 1, 2, 3].foldl (fun a j => ownLink j false a) (wr R.ROUTE_CTRL (v &&& 1) s)))) ∧
  (∀ v s, bitAt v 0 → exec (.routeCtrlWrite v) s = .next (settled ([8, 9, 10, 11].foldl (fun a k =>
    if (port a k).st = .up then setPort k (fun p => { p with upSince := some (now a) }) a else a) (wr R.ROUTE_CTRL (v &&& 1) s)))) ∧
  (∀ (k : Fin 12) h p s m, (port s k).st = .up → m = arrived k h p s → msgHeld k m s = false →
    exec (.rdReq k h p) s = .next (settled (servePort k m false (takeMsg k m s))) ∧
    exec (.wrReq k h p) s = .next (settled (servePort k m true (takeMsg k m s))) ∧
    exec (.orderReply k h p) s = .next (settled (takeMsg k m s))) ∧
  (∀ (k : Fin 12) h p s m t r, (port s k).st = .up → m = arrived k h p s → msgHeld k m s = false → t = takeMsg k m s → remoteOf t k m.tag false = some r →
    exec (.rdData k h p) s =
      .next (settled (endRemote r (answerData r.owner r.owner.base m.payload m.poison) t))) ∧
  (∀ (k : Fin 12) h p s m t r, (port s k).st = .up → m = arrived k h p s → msgHeld k m s = false → t = takeMsg k m s → remoteOf t k m.tag true = some r →
    exec (.wrAck k h p) s = .next (settled (endRemote r (answerAck r.owner) t))) ∧
  (∀ (k : Fin 12) h p s m t r, (port s k).st = .up → m = arrived k h p s → msgHeld k m s = false → t = takeMsg k m s →
    t.torus.remotes.find? (fun r => r.tag == m.tag && (if k.val < 8 then r.port == k.val else 8 ≤ r.port)) = some r →
    exec (.err k h p) s = .next (settled (
      pumpRemotes (failRemote r (leAt m.payload 0 1) t).torus.waiting (failRemote r (leAt m.payload 0 1) t)))) ∧
  (∀ (k : Fin 12) h p s m t u, (port s k).st = .up → m = arrived k h p s → msgHeld k m s = false → t = takeMsg k m s → m.loc → deliverFwd m t = some u →
    exec (.fwd k h p) s = .next (settled (if k.val < 8 then { u with torus.fwds := SMap.set none u.torus.fwds m.tag (some k.val) } else u))) ∧
  (∀ (k : Fin 12) h p s m, (port s k).st = .up → m = arrived k h p s → msgHeld k m s →
    exec (.fwd k h p) s = .next (settled s)) ∧
  (∀ (k : Fin 12) h p s m t, 8 ≤ k.val → (port s k).st = .up → m = arrived k h p s → msgHeld k m s = false → t = takeMsg k m s → (mbox t 14).st = .idle →
    exec (.order k h p) s = .next (settled (
      fxSubmit 3 (m.src + 2048 * m.tag) 14 (setMb 14 (fun x => { x with req := m.payload }) t)))) ∧
  (∀ (k : Fin 12) h p s m t, 8 ≤ k.val → (port s k).st = .up → m = arrived k h p s → msgHeld k m s = false → t = takeMsg k m s → (mbox t 14).st ≠ .idle →
    exec (.order k h p) s = .next (settled (
      sendNodeOrCount true (orderReplyMsg m.src m.tag (replyV3 m.payload St.BUSY (detail noDetail 0))) t))) ∧
  (∀ (a : Fin 8) p s, (port s a).st = .up → exec (.accStatus a p) s = .next (settled (drainedOff a
    (setAcc a (fun b => { b with running := leAt p 0 4, hotC := leAt p 6 1, statusAt := some (now s) }) (takeInbox a 4 2 p s)))))

/-- A frame received, the host's reads, writes and write-backs, snoops, grants, data and acknowledgements, time and
forwarded frames, HOST_RESET and the link going down: with the link UP each answers the settling of the state that its
rules give. A frame with a bad CRC sets CRC_ERR, counts and is answered by a NAK; a request of a length outside 1 to
4,096 is answered ERR status 1, one with POISON status 5. (R224, R252, R255, R256, R257, R258, R261, R262, R263, R264,
R281, R329) -/
def Obligations.HostLinkCommandsComplete : Prop :=
  (∀ bs s, s.su.st = .up → (crc32c ((fix 32 bs).take 28 ++ bs.drop 32)).toNat ≠ leAt (fix 32 bs) 28 4 →
    exec (.frameReceived bs) s = .next (settled (suNak (bump R.SU_CNT_CRC (setBits R.SU_ERR 8
      (countFec R.SU_CNT_FEC_CORR R.SU_CNT_FEC_UNCORR s)))))) ∧
  (∀ bs s c t, s.su.st = .up → c = countFec R.SU_CNT_FEC_CORR R.SU_CNT_FEC_UNCORR s → (crc32c ((fix 32 bs).take 28 ++ bs.drop 32)).toNat = leAt (fix 32 bs) 28 4 →
    t = { c with su := suPump (suLinkFields (fix 32 bs) c.su) } →
    exec (.frameReceived bs) s = .next (settled (sendPending [1, 2, 3, 4, 5, 6, 7, 8]
      (if leAt (fix 32 bs) 2 2 % 4096 = t.su.rxSeq then
        suAccept (frameOf (fix 32 bs) ((bs.drop 32).take (leAt (fix 32 bs) 10 2))) t else suNak t)))) ∧
  (∀ h p s f, s.su.st = .up → f = frameOf h p → f.len = 0 ∨ 4096 < f.len →
    exec (.hRd h p) s = .next (settled (answerErr (.host f.tag f.addr f.len) 1 (hostTag f s)))) ∧
  (∀ h p s f, s.su.st = .up → f = frameOf h p → 1 ≤ f.len → f.len ≤ 4096 → fwAdmits (hostTag f s) 35 f.addr f.len false →
    pinnedOut (hostTag f s) 35 (f.addr - regBase) = false →
    exec (.hRd h p) s = .next (settled (serveRead false (.host f.tag f.addr f.len) f.addr f.len (hostTag f s)))) ∧
  (∀ h p s f, s.su.st = .up → f = frameOf h p → 1 ≤ f.data.length → f.data.length ≤ 4096 → f.poison = 0 →
    fwAdmits (hostTag f s) 35 f.addr f.data.length true → pinnedOut (hostTag f s) 35 (f.addr - regBase) = false →
    exec (.hWr h p) s =
      .next (settled (serveWrite false 35 (.host f.tag f.addr f.data.length) f.addr f.data (hostTag f s))) ∧
    exec (.hWb h p) s = .next (settled (writeBack f (hostTag f s)))) ∧
  (∀ h p s f, s.su.st = .up → f = frameOf h p → 1 ≤ f.data.length → f.data.length ≤ 4096 → f.poison ≠ 0 →
    exec (.hWr h p) s = .next (settled (answerErr (.host f.tag f.addr f.data.length) 5 (hostTag f s))) ∧
    exec (.hWb h p) s = .next (settled (answerErr (.host f.tag f.addr f.data.length) 5 (hostTag f s)))) ∧
  (∀ h p s f, s.su.st = .up → f = frameOf h p → exec (.snpInv h p) s = .next (settled (
    sendFrame { ch := 2, op := 0x34, tag := f.tag }
      ((linesOf f.addr f.len).foldl (fun a l => snoopLine l a) (bump R.SU_CNT_SNP s))))) ∧
  (∀ h p s f r, s.su.st = .up → f = frameOf h p → requestOf s isClaim f.tag = some r → dramOpen s →
    exec (.grant h p) s = .next (settled (
      let t := { s with su.reqs := s.su.reqs.erase r }
      let u := match r.owner with
        | .mem m => if r.op = Op.CLAIM_S then fxDramRead r.addr m (r.data.take 36) (r.data.drop 36) t
          else fxDramWrite r.addr m (r.data.take r.len) (r.data.drop r.len) t
        | o => if r.op = Op.CLAIM_S then answerLoad o o.base r.addr r.len t else answerStore o r.addr r.data t
      pumpHost u.su.waits u))) ∧
  (∀ h p s f r, s.su.st = .up → f = frameOf h p → requestOf s (fun op => op == Op.RD_S || op == Op.RD_NC) f.tag = some r →
    exec (.data h p) s = .next (settled (
      let t := bumpBy R.SU_CNT_POISON f.badGroups s
      let u := answerData r.owner (hostBase + r.addr) f.data f.badWords (fillLines r f { t with su.reqs := t.su.reqs.erase r })
      pumpHost u.su.waits u))) ∧
  (∀ h p s f r, s.su.st = .up → f = frameOf h p → requestOf s (fun op => op == Op.WR_NC || op == Op.DROP) f.tag = some r →
    exec (.ack h p) s = .next (settled (
      let u := answerAck r.owner { s with su.reqs := s.su.reqs.erase r }
      pumpHost u.su.waits u))) ∧
  (∀ s, s.su.st = .up → exec .hostReset s = .next (settled (hostLost (setBits R.SU_ERR 16 s)))) ∧
  (∀ s, s.su.st ≠ .off → s.su.st ≠ .down → exec .suortaLinkDown s = .next (settled (linkDown 12 s))) ∧
  (∀ h p s, s.su.st = .up → (frameOf h p).ch = 5 → (leAt p 20 1).testBit 0 = false → exec (.timeFrame h p) s = .next (settled (
    let t := sendFrame { ch := 5, op := 0x62, len := 32,
                         data := leBytes 8 (taiNow s) ++ leBytes 8 (taiNow s) ++ leBytes 4 (leAt p 16 4) ++ zeros 12 } s
    { t with time.hostT1 := leAt p 0 8, time.hostT2 := taiNow s, time.hostT3 := taiNow s, time.hostAny := false }))) ∧
  (∀ h p s t u, s.su.st = .up → (frameOf h p).ch = 5 → (leAt p 20 1).testBit 0 →
    t = sendFrame { ch := 5, op := 0x62, len := 32,
                    data := leBytes 8 (taiNow s) ++ leBytes 8 (taiNow s) ++ leBytes 4 (leAt p 16 4) ++ zeros 12 } s →
    u = { t with time.hostT1 := leAt p 0 8, time.hostT2 := taiNow s, time.hostT3 := taiNow s, time.hostAny := true } →
    exec (.timeFrame h p) s = .next (settled (
      if t.time.hostAny && leAt p 8 8 != 0 && (!seamMode u || isTimeRoot u) then
        correctTime ((((t.time.hostT2 : Int) - t.time.hostT1) - ((leAt p 8 8 : Nat) - (t.time.hostT3 : Int))) / 2) u
      else u))) ∧
  (∀ h p s m t, s.su.st = .up → m = fwdMsg (frameOf h p) s → m.dst ≠ nodeId s → sendNode false m s = some t →
    exec (.fwdFrame h p) s = .next (settled { t with torus.fwds := SMap.set none t.torus.fwds m.tag (some 12) })) ∧
  (∀ h p s m t, s.su.st = .up → m = fwdMsg (frameOf h p) s → m.dst = nodeId s → deliverFwd m s = some t →
    exec (.fwdFrame h p) s = .next (settled { t with torus.fwds := SMap.set none t.torus.fwds m.tag (some 12) }))

/-- SUBMIT, RELEASE, ABORT, the time limit of the responder, orders over MCTP and the MCTP control messages: while the
standby part runs, each answers the settling of the state that its rules give. SUBMIT outside IDLE sets COLLIDE;
RELEASE acts in REPLIED and ABORT in SUBMITTED; an order from the rack goes into its port's mailbox, or is answered
BUSY. (R264, R265, R266, R267, R276, R278, R279, R428) -/
def Obligations.MailboxAndMctpCommandsComplete : Prop :=
  (∀ (n : Fin 16) s, aonRuns s → mbReached n → (mbox s n).st = .idle → exec (.submit n) s = .next (settled (answerUnknown n
    (setMb n (fun m => { m with st := .submitted, source := 0, backTo := 0, committed := false, req := sealed n m.req }) s)))) ∧
  (∀ (n : Fin 16) s, aonRuns s → mbReached n → (mbox s n).st ≠ .idle →
    exec (.submit n) s = .next (settled (setBits (R.MB_ERR n) 2 s))) ∧
  (∀ (n : Fin 16) s, aonRuns s → (mbox s n).st = .replied → exec (.release n) s = .next (settled (mbIdle n s))) ∧
  (∀ (n : Fin 16) s, aonRuns s → (mbox s n).st ≠ .replied → exec (.release n) s = .next (settled s)) ∧
  (∀ (n : Fin 16) s, aonRuns s → (mbox s n).st = .submitted → exec (.mailboxAbort n) s = .next (settled (mbIdle n s))) ∧
  (∀ (n : Fin 16) s, aonRuns s → (mbox s n).st ≠ .submitted → exec (.mailboxAbort n) s = .next (settled s)) ∧
  (∀ (n : Fin 16) s k, aonRuns s → (mbox s n).st = .submitted → servingCore n (mbox s n).req = some k →
    exec (.orderTakeTimeout n) s = .next (settled (replyFail n St.HELD_RESTARTING noDetail 0 s))) ∧
  (∀ (p : Fin 2) tag msg s, mctpRuns p s → mctpEid p s ≠ 0 → leAt msg 0 1 = 0x7F → slice msg 1 4 = ianaBytes →
    (mbox s (12 + p)).st = .idle → exec (.mctpOrder p tag msg) s =
      .next (settled (fxSubmit 1 tag (12 + p) (setMb (12 + p) (fun x => { x with req := msg.drop 5 }) s)))) ∧
  (∀ (p : Fin 2) tag msg s, mctpRuns p s → mctpEid p s ≠ 0 → leAt msg 0 1 = 0x7F → slice msg 1 4 = ianaBytes →
    (mbox s (12 + p)).st ≠ .idle → exec (.mctpOrder p tag msg) s = .next (settled
      { s with mctpOut := s.mctpOut ++ [(p.val, tag, mctpBody (replyBytes (msg.drop 5) St.BUSY (detail noDetail 0)))] })) ∧
  (∀ (p : Fin 2) tag msg s, mctpRuns p s → leAt msg 3 1 % 4 < 2 → leAt msg 4 1 ≠ 0 → leAt msg 4 1 ≠ 255 →
    exec (.setEndpointId p tag msg) s = .next (settled (mctpReply p tag msg 1 0 ([0#8] ++ leBytes 1 (leAt msg 4 1) ++ [0#8])
      (setMb (12 + p) (fun m => { m with major := 3, minor := 2 })
        (wrFld R.MCTP_EID (8 * p + 7) (8 * p) (leAt msg 4 1) s))))) ∧
  (∀ (p : Fin 2) tag msg s, mctpRuns p s →
    exec (.getEndpointId p tag msg) s =
      .next (settled (mctpReply p tag msg 2 0 (leBytes 1 (mctpEid p s) ++ [0#8, 0#8]) s)) ∧
    exec (.getEndpointUuid p tag msg) s = .next (settled (mctpReply p tag msg 3 0 (fix 16 Config.endpointUuid) s)) ∧
    (∃ v, exec (.getMctpVersionSupport p tag msg) s =
      .next (settled (mctpReply p tag msg 4 0 ([1#8] ++ leBytes 4 v) { s with fresh := s.fresh + 1 }))) ∧
    exec (.getMessageTypeSupport p tag msg) s = .next (settled (mctpReply p tag msg 5 0 [1#8, 0x7F#8] s)) ∧
    (∃ v, exec (.getVendorDefinedMessageSupport p tag msg) s =
      .next (settled (mctpReply p tag msg 6 0 ([0xFF#8, 1#8] ++ ianaBytes ++ leBytes 2 v) { s with fresh := s.fresh + 1 }))))

/-- For every chip and power order (0x0101 to 0x0109, 0x0201 to 0x0208) and the TAL2 commands 1 to 6 and 9: one that
stands SUBMITTED with its serving core up, passes the checks 1 to 6 and is admissible by its own rule answers the
settling of the state of its effect, with its reply written. (R267, R270, R271, R274, R275, R276, R277, R297, R311,
R316, R348, R519) -/
def Obligations.ChipAndPowerOrdersComplete : Prop :=
  ∀ (n : Fin 16) s t p, t = begun n s → p = payload s n → /- common -/
  (∀ a b, taken s n 0x0101 → helloVersion n (leAt p 0 1) (leAt p 1 1) (leAt p 2 1) = some (a, b) →
    exec (.hello n) s = .next (settled (replyDone n
      (leBytes 1 a ++ leBytes 1 b ++ zeros 2 ++ leBytes 4 chipId ++ leBytes 4 (rdN t R.CHIP_CAP))
      (setMb n (fun m => { m with major := a, minor := b }) t)))) ∧
  (taken s n 0x0102 → exec (.ping n) s =
    .next (settled (replyDone n (leBytes 8 (now t) ++ leBytes 4 t.aon.powerCycles ++ zeros 4) t))) ∧
  (taken s n 0x0103 → exec (.trayQuery n) s = .next (settled (replyDone n (leBytes 4 (trayStateWord t).toNat
    ++ leBytes 4 (degradeCause t) ++ leBytes 4 t.chip.islands.toNat ++ leBytes 4 t.aon.coreDown.toNat
    ++ leBytes 4 (rdN t R.NODE_ID) ++ zeros 4) t))) ∧
  (takenV2 s n 1 → exec (.getId n) s = .next (settled (replyDone n (leBytes 4 chipId) t))) ∧
  (taken s n 0x0104 → wordsAdmitted t (orderMaster t n) (leAt p 0 8) (min (leAt p 8 4) 1024) false → leAt p 0 8 % 4 = 0 →
    1 ≤ leAt p 8 4 → leAt p 8 4 ≤ 1024 → (List.range (leAt p 8 4)).all (fun i => isRegWord t (wordAddr (leAt p 0 8) i)) →
    (List.range (leAt p 8 4)).all (fun i => regAnswers t (wordAddr (leAt p 0 8) i - regBase)) →
    exec (.regRead n) s = .next (settled (replyDone n (fetchWords (leAt p 8 4) (leAt p 0 8 - regBase) t).1
      (fetchWords (leAt p 8 4) (leAt p 0 8 - regBase) t).2))) ∧
  (taken s n 0x0105 → fwAdmits t (orderMaster t n) (leAt p 0 8) 4 true → leAt p 0 8 % 4 = 0 → isRegWord t (leAt p 0 8) →
    regAnswers t (leAt p 0 8 - regBase) → exec (.regWrite n) s = .next (settled (replyDone n []
      (writeReg (writeMaster t n (leAt p 0 8 - regBase)) true (leAt p 0 8 - regBase)
        (maskedWord t (leAt p 0 8 - regBase) (BitVec.ofNat 32 (leAt p 8 4)) (BitVec.ofNat 32 (leAt p 12 4))) t)))) ∧
  (taken s n 0x0106 → t.sec.lock.getLsbD 0 = false → exec (.identitySet n) s = .next (settled (replyDone n []
    (releaseSeams (identityEvent (storeMasked R.TORUS_DIM (leAt p 4 4) (storeMasked R.NODE_ID (leAt p 0 4) t))))))) ∧
  (taken s n 0x0107 → leAt p 0 2 < 480 →
    exec (.peerWinSet n) s = .next (settled (replyDone n [] (storeMasked (R.PEER_WIN (leAt p 0 2)) (leAt p 4 4) t)))) ∧
  (taken s n 0x0108 → leAt p 0 1 = 0 → islandOn 24 t → exec (.hlcCtrl n) s = .next (settled (
    let u := hlcDisable (acceptLong .hlcCtrl n (finishLong .hlcCtrl St.FAULT (detail noDetail 0) t))
    if u.su.hlcEnableWaits then u else finishLong .hlcCtrl St.DONE [] u))) ∧
  (taken s n 0x0109 → leAt p 2 2 ≤ 64 → leAt p 0 2 + leAt p 2 2 ≤ 384 → memReady t = false → islandOn 24 t →
    exec (.hcrSet n) s = .next (settled (replyDone n [] (storeMasked R.SU_HCR (leAt p 0 2 + 65536 * leAt p 2 2) t)))) ∧
  (∀ u, taken s n 0x0201 → t.sec.debugUnlocked = false → onDenied t n = false →
    u = (if orderSource t n = 1 then { t with budget.trayHold := false } else t) →
    u.chip.tray = .ready ∨ u.chip.tray = .degraded → exec (.trayOn n) s = .next (settled (replyDone n [] u))) ∧
  (∀ u, taken s n 0x0201 → t.sec.debugUnlocked = false → onDenied t n = false →
    u = (if orderSource t n = 1 then { t with budget.trayHold := false } else t) →
    u.chip.tray = .standby → cfgPend u = false →
    exec (.trayOn n) s = .next (settled (onGoes (loadControls (acceptLong .trayOn n u))))) ∧
  (∀ u, takenV2 s n 2 → t.sec.debugUnlocked = false → onDenied t n = false →
    u = (if orderSource t n = 1 then { t with budget.trayHold := false } else t) →
    u.chip.tray = .standby → cfgPend u = false →
    exec (.powerOn n) s = .next (settled (onGoes (loadControls (acceptLong .trayOn n u))))) ∧
  (taken s n 0x0201 → t.sec.debugUnlocked = false → onDenied t n →
    exec (.trayOn n) s = .next (settled (replyFail n St.DENIED_PRECEDENCE noDetail 0 t))) ∧
  (∀ u, taken s n 0x0202 → u = acceptLong .trayOff n (if orderSource t n = 1 then { t with budget.trayHold := true } else t) →
    exec (.trayOff n) s = .next (settled (if u.chip.tray = .standby ∨ u.chip.tray = .off then
      finishLong .trayOff St.DONE [] (offRequest false u) else offRequest false u))) ∧
  (∀ u, takenV2 s n 3 → u = acceptLong .trayOff n (if orderSource t n = 1 then { t with budget.trayHold := true } else t) →
    exec (.powerOff n) s = .next (settled (if u.chip.tray = .standby ∨ u.chip.tray = .off then
      finishLong .trayOff St.DONE [] (offRequest false u) else offRequest false u))) ∧
  (∀ u, taken s n 0x0203 → leAt p 0 1 ≤ 7 → leAt p 1 1 = 1 → groupBlocked t (leAt p 0 1 + 1) = false →
    slotMode t ∨ imgAccEntry t.st.image (leAt p 0 1) ≠ 0xFFFF →
    orderSource t n ≠ 0 ∨ t.budget.rackHold.getLsbD (leAt p 0 1) = false →
    trayRuns t → (strand t (1 + leAt p 0 1)).run = 0 → t.st.accWait.contains (leAt p 0 1) = false →
    u = acceptLong (.accPower (leAt p 0 1) true) n (if orderSource t n = 1 then setRackHold (leAt p 0 1) false t else t) →
    exec (.accPower n) s = .next (settled { u with st.accWait := u.st.accWait ++ [leAt p 0 1] })) ∧
  (taken s n 0x0203 → leAt p 0 1 ≤ 7 → leAt p 1 1 = 0 → trayRuns t →
    exec (.accPower n) s = .next (settled (beginAccOff (leAt p 0 1) (acceptLong (.accPower (leAt p 0 1) false) n
      (if orderSource t n = 1 then setRackHold (leAt p 0 1) true t else t))))) ∧
  (∀ rs, taken s n 0x0204 → railsAsked p 256 = some rs →
    exec (.railQuery n) s = .next (settled (replyDone n (rs.flatMap (railRecord t)) t))) ∧
  (∀ rs, takenV2 s n 4 → railsAsked p 64 = some rs →
    exec (.readRails n) s = .next (settled (replyDone n (rs.flatMap (railShort t)) t))) ∧
  (∀ image u img, taken s n 0x0205 → inHostWindow t (leAt p 0 8) (leAt p 8 4) → leAt p 8 4 ≤ maxProgram →
    fetchImage (leAt p 0 8) (leAt p 8 4) image t = (u, some img) → u.chip.tray = .standby →
    exec (.stitchLoad n image) s = .next (settled (
      if imageStatus (twClass u) img = St.BAD_LENGTH then replyFail n St.BAD_LENGTH (fieldOff u n 8) 0 u
      else if imageStatus (twClass u) img ≠ St.DONE || changesOnRail u img then replyFail n St.BAD_PARAM noDetail 0 u
      else replyDone n [] (runtimeLoad 0x0205 img (loadProgram img u))))) ∧
  (∀ image u, taken s n 0x0205 → inHostWindow t (leAt p 0 8) (leAt p 8 4) → leAt p 8 4 ≤ maxProgram →
    fetchImage (leAt p 0 8) (leAt p 8 4) image t = (u, none) →
    exec (.stitchLoad n image) s = .next (settled (replyFail n St.FAULT noDetail 0 u))) ∧
  (∀ image u b, taken s n 0x0206 → inHostWindow t (leAt p 0 8) (leAt p 8 4) → leAt p 8 4 ≤ 528 →
    fetchImage (leAt p 0 8) (leAt p 8 4) image t = (u, some b) → 16 ≤ leAt p 8 4 → leAt p 8 4 = 16 + 8 * leAt b 3 1 →
    slotMode u → slotTableOk u.st.image b → u.chip.tray = .standby →
    exec (.slotLoad n image) s =
      .next (settled (replyDone n [] (runtimeLoad 0x0206 b (loadProgram (withSlots u.st.image b) u))))) ∧
  (takenV2 s n 5 → exec (.loadSlots n) s = .next (settled (replyFail n St.DENIED_PRECEDENCE noDetail 0 t))) ∧
  (takenV2 s n 6 → slotMode t → exec (.readSlots n) s = .next (settled (replyDone n (slotTable t.st.image) t))) ∧
  (taken s n 0x0207 → exec (.faillogRead n) s = .next (settled (replyDone n
    (((failsFrom t (leAt p 0 4)).take (min (leAt p 4 4) (mostFails t n))).flatMap failBytes) t))) ∧
  (takenV2 s n 9 → exec (.readLog n) s = .next (settled (replyDone n
    (((failsFrom t (leAt p 0 4)).take (min (leAt p 4 4) (mostFails t n))).flatMap failBytes) t))) ∧
  (∀ trim, taken s n 0x0208 → leAt p 0 2 ≤ 255 → (rail t (leAt p 0 2)).st = .on → railHasPmbus t.st.image (leAt p 0 2) →
    aboveStarch t (leAt p 0 2) (clampStep (railMarginLim t.st.image (leAt p 0 2)) (signed16 (leAt p 2 2))) = false →
    exec (.margin n trim) s = .next (settled (replyDone n [] (applyMargin (leAt p 0 2) (signed16 (leAt p 2 2)) trim false t))))

/-- For every order 0x0301 to 0x0405 and 0x0501 to 0x0505 and the TAL2 commands 7, 8 and 10: one that stands SUBMITTED
with its serving core up, passes the checks 1 to 6 and is admissible by its own rule answers the settling of the state
of its effect, with its reply written. (R275, R277, R325, R326, R330, R341, R342, R349, R363, R394, R399, R400) -/
def Obligations.MeterCoolingAndBudgetOrdersComplete : Prop :=
  ∀ (n : Fin 16) s t p, t = begun n s → p = payload s n → /- common -/
  (∀ rs, taken s n 0x0301 → railsAsked p 256 = some rs →
    exec (.meterRead n) s = .next (settled (replyDone n (rs.flatMap (fun r => leBytes 8 (energyNj t r))) t))) ∧
  (∀ rs, takenV2 s n 10 → railsAsked p 256 = some rs →
    exec (.readEnergy n) s =
      .next (settled (replyDone n (rs.flatMap (fun r => leBytes 4 (energyNj t r / 1000000 % 2 ^ 32))) t))) ∧
  (∀ bs, taken s n 0x0302 → bs = deliverable (freeDelivered t) (leAt p 8 4) →
    inHostWindow t (leAt p 0 8) (bs.flatMap batchBytes).length → suOpen t →
    exec (.ticketFetch n) s = .next (settled (deliverBatches n (leAt p 0 8) bs (freeDelivered t)))) ∧
  (∀ b, taken s n 0x0303 → t.meter.batches.find? (fun b => b.idx == leAt p 0 8 && !b.record.isEmpty) = some b →
    exec (.batchQuery n) s = .next (settled (replyDone n b.record t))) ∧
  (∀ chs u, taken s n 0x0304 → leAt p 0 2 < 512 → leAt p 2 2 ≠ 0 → leAt p 0 2 + leAt p 2 2 ≤ 512 → standbyUp t →
    chs = (List.range (leAt p 2 2)).map (fun i => leAt p 0 2 + i) → u = acceptLong .calibrate n t →
    exec (.calibrate n) s = .next (settled (startSweep chs
      { u with meter.calNamed := u.meter.calNamed ++ chs.filter (fun k => !u.meter.calNamed.contains k) }))) ∧
  (taken s n 0x0305 → (seamMode t && (timeParent t).isSome) = false →
    exec (.timeSet n) s = .next (settled (replyDone n [] (decideStep ((leAt p 0 8 : Int) - (taiNow t : Int)) t)))) ∧
  (taken s n 0x0401 → exec (.thermalQuery n) s = .next (settled (replyDone n (sensorReport t) t))) ∧
  (takenV2 s n 7 → exec (.readTemps n) s = .next (settled (replyDone n (diodeBytes t) t))) ∧
  (taken s n 0x0402 → exec (.coolQuery n) s = .next (settled (replyDone n (coolReport t) t))) ∧
  (taken s n 0x0403 → leAt p 0 1 ≤ 55 → leAt p 1 1 ≤ 100 → requiredDuty t (leAt p 0 1) ≤ leAt p 1 1 →
    valveClosed t (leAt p 0 1) = false → exec (.coolOverride n) s = .next (settled (replyDone n [] (setOutput
      (wr (R.CH_OVR (leAt p 0 1)) (BitVec.ofNat 32 (256 * holdField (leAt p 4 4) + leAt p 1 1)) t) (leAt p 0 1))))) ∧
  (takenV2 s n 8 → leAt p 0 1 ≤ 55 → leAt p 1 1 ≤ 100 → requiredDuty t (leAt p 0 1) ≤ leAt p 1 1 →
    valveClosed t (leAt p 0 1) = false → exec (.setFan n) s = .next (settled (replyDone n [] (setOutput
      (wr (R.CH_OVR (leAt p 0 1)) (BitVec.ofNat 32 (256 * 0xFFFFFF + leAt p 1 1)) t) (leAt p 0 1))))) ∧
  (taken s n 0x0404 → exec (.leakQuery n) s = .next (settled (replyDone n (leakReport t) t))) ∧
  (∀ z, taken s n 0x0405 → leAt p 0 1 ≤ 47 → (leakLoop t (leAt p 0 1)).cls = .dry → (leakLoop t (leAt p 0 1)).raised = some z →
    exec (.leakReset n) s = .next (settled (replyDone n [] (endResponse z
      (raise 1 10 (leAt p 0 1) [] (setLoop (leAt p 0 1) (fun x => { x with named := true }) t)))))) ∧
  (taken s n 0x0405 → leAt p 0 1 ≤ 47 → (leakLoop t (leAt p 0 1)).cls = .dry → (leakLoop t (leAt p 0 1)).raised = none →
    exec (.leakReset n) s = .next (settled (replyDone n [] t))) ∧
  (taken s n 0x0501 → leAt p 0 4 = 0 ∨ leAt p 4 4 ≤ leAt p 0 4 → exec (.capSet n) s =
    .next (settled (replyDone n [] (setCaps (orderSource t n == 1) (leAt p 0 4) (leAt p 4 4) t)))) ∧
  (taken s n 0x0502 → exec (.capQuery n) s = .next (settled (replyDone n (leBytes 4 ((capEff t).getD 0)
    ++ leBytes 4 (rdN t R.BG_CAP_RACK) ++ leBytes 4 (rdN t R.BG_CAP_HOST) ++ leBytes 4 (floorEff t).floor.toNat
    ++ grantBytes t) t))) ∧
  (∀ u, taken s n 0x0503 → leAt p 8 1 ≠ 0 → t.budget.items.length < 1024 →
    u = { t with budget.items :=
      t.budget.items ++ [⟨leAt p 0 8, leAt p 8 1, leAt p 12 4, leAt p 16 4, leAt p 24 8, now t⟩] } →
    exec (.workSubmit n) s = .next (settled (releaseGo u.budget.items 0 (replyDone n [] u)))) ∧
  (∀ w, taken s n 0x0504 → t.budget.items.find? (fun w => w.id == leAt p 0 8) = some w →
    exec (.workCancel n) s = .next (settled (replyDone n [] { t with budget.items := t.budget.items.erase w }))) ∧
  (taken s n 0x0505 → exec (.ledgerQuery n) s = .next (settled (replyDone n (ledgerReport t) (takeFresh t))))

/-- For every order 0x0601 to 0x060A and 0x0701 to 0x0704: one that stands SUBMITTED with its serving core up, passes the
checks 1 to 6 and is admissible by its own rule answers the settling of the state of its effect, with its reply
written. JOB_ROLLBACK withdraws the open capsules above its step; CAPSULE_RELEASE acts in PLAN_WAIT and HOST_WAIT;
PLAN_SUBMIT of a valid range enters a host plan. (R104, R115, R137, R158, R163, R169, R172, R173, R175, R177, R180,
R275) -/
def Obligations.AssuranceAndPlanOrdersComplete : Prop :=
  ∀ (n : Fin 16) s t p, t = begun n s → p = payload s n → /- common -/
  (taken s n 0x0601 → exec (.assurePolicy n) s = .next (settled (replyDone n []
    (policyRegs.foldl (fun a r => storeMasked r.1 (leAt p r.2 4) a) t)))) ∧
  (∀ u, taken s n 0x0602 → entryBreak t (fix 128 p) = none → t.assure.registry.length < 4096 →
    u = pressRead 8 (entAddr (fix 128 p)) (entLen (fix 128 p)) { t with assure.registry := putEntry (fix 128 p) t.assure.registry } →
    exec (.replayRegister n) s = .next (settled (replyDone n []
      ((u.assure.caps.filter (fun c => c.st == .planWait && c.graph == entGraph (fix 128 p))).foldl (fun a c => toQueued c a) u)))) ∧
  (taken s n 0x0603 → (entryOf t (fix 64 p)).isNone = false → exec (.replayRemove n) s = .next (settled (replyDone n []
    { t with assure.registry := t.assure.registry.filter (fun x => entGraph x != fix 64 p) }))) ∧
  (∀ j, taken s n 0x0604 → jobOf t (leAt p 0 8) = some j → exec (.jobQuery n) s = .next (settled (replyDone n
    (leBytes 8 j.id ++ leBytes 8 (lcsField j.lcs) ++ leBytes 2 (openMode t j.id 0) ++ leBytes 2 (openMode t j.id 1)
      ++ leBytes 1 (b2n j.frozen) ++ zeros 3) t))) ∧
  (∀ j l u, taken s n 0x0605 → jobOf t (leAt p 0 8) = some j → l = stepField (leAt p 8 8) → exceedsLcs l j.lcs = false →
    u = rollbackJob j.id l t → exec (.jobRollback n) s = .next (settled (replyDone n (leBytes 8 j.id ++ leBytes 8 (lcsOf u j.id)
      ++ leBytes 4 ((openOf t j.id).filter (fun c => aboveStep l c.step)).length ++ zeros 4) u))) ∧
  (∀ j, taken s n 0x0606 → jobOf t (leAt p 0 8) = some j → openOf t j.id = [] →
    exec (.jobClose n) s = .next (settled (replyDone n [] (raise 9 6 noInst (leBytes 8 j.id ++ leBytes 8 (lcsField j.lcs))
      { t with assure.jobs := t.assure.jobs.filter (fun x => x.id != j.id) })))) ∧
  (∀ c, taken s n 0x0607 → leAt p 0 1 ≤ 7 → 1 ≤ leAt p 1 1 → leAt p 1 1 ≤ 3 → capOf t (.acc (leAt p 0 1)) (leAt p 8 8) = some c →
    c.st = .planWait ∨ c.st = .hostWait → exec (.capsuleRelease n) s = .next (settled (replyDone n [] (releaseCap c (leAt p 1 1) t)))) ∧
  (taken s n 0x0608 → leAt p 0 1 ≤ 7 → exec (.accUntag n) s = .next (settled (replyDone n [] (clearTag (leAt p 0 1) t)))) ∧
  (taken s n 0x0609 → 1 ≤ leAt p 4 4 → leAt p 4 4 ≤ 2048 → exec (.darnQuery n) s = .next (settled (replyDone n
    (((t.assure.darns.drop (leAt p 0 4)).take (min (leAt p 4 4) (mostDarns n))).flatMap darnEntry) t))) ∧
  (taken s n 0x060A → exec (.selfUntag n) s =
    .next (settled (replyDone n [] { t with assure.selfTag := false, assure.delegated := false }))) ∧
  (∀ q, taken s n 0x0701 → imageLenOk (leAt p 8 4) → imageAddrOk t (leAt p 0 8) (leAt p 8 4) → hostPlans t < 256 →
    q = { id := t.press.nextPlan, owner := .host n (orderTag (mbox t n).req), cls := 2, since := now t, addr := leAt p 0 8,
          len := leAt p 8 4, fixedHome := mailboxHome n } →
    exec (.planSubmit n) s = .next (settled (pressRead 8 (leAt p 0 8) (leAt p 8 4) (acceptLong (.planSubmit t.press.nextPlan) n
      { t with press.plans := t.press.plans ++ [q], press.nextPlan := t.press.nextPlan + 1 })))) ∧
  (∀ q, taken s n 0x0702 → planSeen t n (leAt p 0 8) = some q → exec (.planQuery n) s = .next (settled (replyDone n
    (leBytes 8 q.id ++ leBytes 1 q.st.code ++ leBytes 1 (homeShown t q) ++ zeros 2 ++ leBytes 2 q.stagesDone
      ++ leBytes 2 (nStages (planHead t q)) ++ leBytes 8 (leAt (planHead t q) 48 8) ++ leBytes 1 q.flags ++ zeros 7) t))) ∧
  (∀ q, taken s n 0x0703 → planSeen t n (leAt p 0 8) = some q → q.ended = false →
    exec (.planAbort n) s = .next (settled (replyDone n [] (fxAbort q.id t)))) ∧
  (taken s n 0x0704 → leAt p 0 1 ≤ 7 → leAt p 1 1 = 0 → (cluster t (leAt p 0 1)).st ≠ .off → exec (.clusterCtrl n) s =
    .next (settled (suspendCluster (leAt p 0 1) (acceptLong (.clusterCtrl (leAt p 0 1)) n t)))) ∧
  (taken s n 0x0704 → leAt p 0 1 ≤ 7 → leAt p 1 1 = 1 → (cluster t (leAt p 0 1)).st = .selftest → exec (.clusterCtrl n) s =
    .next (settled (fxResume (leAt p 0 1) (acceptLong (.clusterCtrl (8 + leAt p 0 1)) n t)))) ∧
  (taken s n 0x0704 → leAt p 0 1 ≤ 7 → leAt p 1 1 = 2 → (cluster t (leAt p 0 1)).st = .idle → exec (.clusterCtrl n) s =
    .next (settled (startSelftest (leAt p 0 1) (acceptLong (.clusterCtrl (leAt p 0 1)) n t))))

/-- For every order 0x0801 to 0x0908: one that stands SUBMITTED with its serving core up, passes the checks 1 to 6 and is
admissible by its own rule answers the settling of the state of its effect, with its reply written. An activation that
finds emergency latches is answered DEFERRED. STARCH_TIGHTEN acts where every value is within its range and not above
the limit in force; DEBUG_UNLOCK where its response verifies and the tray is in STANDBY. (R438, R439, R440, R442,
R444, R446, R448, R455, R456, R472, R473, R484) -/
def Obligations.EventFirmwareAndSecurityOrdersComplete : Prop :=
  ∀ (n : Fin 16) s t p, t = begun n s → p = payload s n → /- common -/
  (taken s n 0x0801 → leAt p 0 1 ≤ 1 → 512 ≤ leAt p 8 4 → exec (.eventRead n) s = .next (settled (replyDone n (takeRecords
    (((areaRecords t (leAt p 0 1)).filter (fun r => decide (leAt p 4 4 ≤ r.seq))).map recCopy)
    (min (leAt p 8 4) (mostRecords n))) t))) ∧
  (taken s n 0x0802 → exec (.eventClear n) s = .next (settled (replyDone n [] { t with
    rcd := clearTumble (reqAuthRef (mbox t n).req) (orderSource t n) (reqSequence (mbox t n).req) t.rcd (now t) }))) ∧
  (∀ image u img, taken s n 0x0803 → fwAdmits t (orderMaster t n) (leAt p 0 8) (leAt p 8 4) false → leAt p 8 4 ≤ 33554432 →
    placeOf t (leAt p 0 8) (leAt p 8 4) ≠ .none → fetchImage (leAt p 0 8) (leAt p 8 4) image t = (u, some img) →
    cfgBusy u = false → u.cfg.probation = false → exec (.configStage n image) s = .next (settled (
      if (cfgStatus u (leAt p 8 4) img).1 = St.DONE then beginStage n img u
      else replyFail n (cfgStatus u (leAt p 8 4) img).1 (cfgStatus u (leAt p 8 4) img).2.1 (cfgStatus u (leAt p 8 4) img).2.2 u))) ∧
  (∀ k, taken s n 0x0804 → stagedSlot t (leAt p 0 4) = some k → t.chip.tray = .standby → t.cfg.probation = false →
    cfgBusy t = false → emergLatches t = 0 → exec (.configActivate n) s = .next (settled (acceptLong .configActivate n
      { t with cfg.job := .pending k false n (orderTag (mbox t n).req) }))) ∧
  (∀ k, taken s n 0x0804 → stagedSlot t (leAt p 0 4) = some k → t.chip.tray = .standby → t.cfg.probation = false →
    cfgBusy t = false → emergLatches t ≠ 0 → exec (.configActivate n) s = .next (settled (deferCfg n k false t))) ∧
  (∀ k, taken s n 0x0805 → previousSlot t = some k → t.chip.tray = .standby → cfgBusy t = false → emergLatches t = 0 →
    exec (.rollback n) s = .next (settled (
      if ownerImageOk t (cfgImage t k) then replyDone n (leBytes 4 (imageGen (cfgImage t k))) (fxActivate k true t)
      else replyFail n St.FAULT noDetail 1 (fxActivate k true t)))) ∧
  (∀ k, taken s n 0x0805 → previousSlot t = some k → t.chip.tray = .standby → cfgBusy t = false → emergLatches t ≠ 0 →
    exec (.rollback n) s = .next (settled (deferCfg n k true t))) ∧
  (taken s n 0x0806 → exec (.configQuery n) s = .next (settled (replyDone n (cfgReport t) t))) ∧
  (taken s n 0x0901 → secOperational t → exec (.attest n) s =
    .next (settled (replyDone n (attestBody t p ++ signWith t 1 (attestBody t p)) (countSign t)))) ∧
  (taken s n 0x0902 → leAt p 0 1 ≤ 2 → secOperational t → exec (.keyQuery n) s =
    .next (settled (replyDone n (fix 32 (keyPublic t (leAt p 0 1)) ++ keyCert t (leAt p 0 1)) t))) ∧
  (∀ image u img, taken s n 0x0903 → fwAdmits t (orderMaster t n) (leAt p 4 8) (leAt p 12 4) false → leAt p 2 1 ≤ 1 →
    leAt p 12 4 ≤ 16777216 → placeOf t (leAt p 4 8) (leAt p 12 4) ≠ .none →
    fetchImage (leAt p 4 8) (leAt p 12 4) image t = (u, some img) → leAt p 0 2 < 2048 →
    (maskCores (leAt p 0 2)).any (fun k => coreClass k != leAt img 5 1) = false → slotRuns u (leAt img 5 1) (leAt p 2 1) = false →
    exec (.fwStage n image) s = .next (settled (
      if fwVerifies u (leAt img 5 1) img then acceptLong (.fwStage (leAt img 5 1) (leAt p 2 1) (fwWhole img)) n u
      else replyFail n St.BAD_PARAM (fieldOff u n 4) 2 u))) ∧
  (taken s n 0x0904 → leAt p 0 2 < 2048 → leAt p 2 1 ≤ 1 → slotVerifies t (leAt p 0 2) (leAt p 2 1) → t.aon.pendAct = none →
    t.aon.acting = none → emergLatches t = 0 → exec (.fwActivate n) s = .next (settled (startActivation
      ⟨leAt p 2 1, leAt p 0 2, n, orderTag (mbox t n).req⟩ (acceptLong .fwActivate n t)))) ∧
  (taken s n 0x0904 → leAt p 0 2 < 2048 → leAt p 2 1 ≤ 1 → slotVerifies t (leAt p 0 2) (leAt p 2 1) → t.aon.pendAct = none →
    t.aon.acting = none → emergLatches t ≠ 0 → exec (.fwActivate n) s = .next (settled (replyFail n St.DEFERRED noDetail 0
      { t with aon.pendAct := some ⟨leAt p 2 1, leAt p 0 2, n, orderTag (mbox t n).req⟩
               longs := t.longs ++ [⟨.fwActivate, n, orderTag (mbox t n).req, false⟩] }))) ∧
  (taken s n 0x0905 → leAt p 0 1 ≤ 10 → exec (.coreRestart n) s = .next (settled (restartCore (leAt p 0 1) (replyDone n [] t)))) ∧
  (taken s n 0x0906 → isPinned t (leAt p 0 2) → exec (.unpin n) s = .next (settled (replyDone n []
    { t with sec.pinned := t.sec.pinned &&& ~~~(1#37 <<< leAt p 0 2) }))) ∧
  (taken s n 0x0907 → starchRange (leAt p 0 2) (leAt p 2 2) (leAt p 4 1) → leAt p 0 2 ≤ t.aon.vcoreEff → leAt p 2 2 ≤ t.aon.iclkEff →
    leAt p 4 1 ≤ t.aon.tjEff → exec (.starchTighten n) s =
      .next (settled (replyDone n [] (tighten (leAt p 0 2) (leAt p 2 2) (leAt p 4 1) t)))) ∧
  (taken s n 0x0908 → t.chip.tray = .standby → exec (.debugUnlock n) s = .next (settled (
    if Config.edVerify Config.debugKey (t.sec.challenge ++ fix 16 Config.serialNumber) (fix 64 p) then replyDone n [] (unlock t)
    else replyFail n St.DENIED_AUTH (fieldOff t n 0) 0 (raise 8 1 noInst (fix 32 ((mbox t n).req.take 32)) t))))

/-- A strand that runs, below the limit of R294, and whose counter names a stitch of the operation, executes it: END stops
the strand (the standby part sets STBY_MARK); ENABLE issues the rail's enable, waits for its parents, or completes at
once; DISABLE starts the shut-down of the rail with its dependants; WAIT, WAITPG and AWAIT wait; CHECK sets C and may
fail the rail; JUMP and JUMPIF set the counter; SIGNAL sets its signal; LOG records an event; MARGIN writes VOUT_TRIM
of a rail that is ON. (R292, R293, R294, R296, R297, R298, R301, R302, R303, R304, R306, R313) -/
def Obligations.StitchesComplete : Prop :=
  (∀ (n : Fin 16) s, strandAt n 0x0 s → (strand s n).standby = true → ∃ t, exec (.stEnd n) s = .next (settled t) ∧
    strand t n = { strand s n with run := 0, wait := .none, standby := false, exec := (strand s n).exec + 1 } ∧
    t.st.stbyMark = s.st.journal.length ∧ t.st.phase = 0 ∧ t.st.rails = s.st.rails ∧ t.st.journal = s.st.journal) ∧
  (∀ (n : Fin 16) s, strandAt n 0x0 s → (strand s n).standby = false → slotMode s = false →
    exec (.stEnd n) s = .next (settled (setStrand n (fun t => { t with run := 0, wait := .none, standby := false })
      (countStitch n s)))) ∧
  (∀ (n : Fin 16) s, strandAt n 0x1 s → ∀ r, r = stRail (curStitch n s) → enableFinds (countStitch n s) r = .issue →
    exec (.stEnable n) s = .next (settled (stitchWait n (.action r) (enableRail r (countStitch n s))))) ∧
  (∀ (n : Fin 16) s, strandAt n 0x1 s → ∀ r, r = stRail (curStitch n s) → enableFinds (countStitch n s) r = .waits →
    exec (.stEnable n) s = .next (settled (stitchWait n (.parents r) (countStitch n s)))) ∧
  (∀ (n : Fin 16) s, strandAt n 0x1 s → ∀ r, r = stRail (curStitch n s) → enableFinds (countStitch n s) r = .complete →
    exec (.stEnable n) s = .next (settled (stitchDone n (countStitch n s)))) ∧
  (∀ (n : Fin 16) s, strandAt n 0x1 s → ∀ r, r = stRail (curStitch n s) → enableFinds (countStitch n s) r = .parentFailed →
    exec (.stEnable n) s = .next (settled (stitchDone n (markFailed r Cause.PARENT { strand := n } (countStitch n s))))) ∧
  (∀ (n : Fin 16) s, strandAt n 0x2 s → ∃ t, exec (.stDisable n) s = .next (settled t) ∧
    (strand t n).run = 2 ∧ (strand t n).wait = .disable ∧ t.st.downs = s.st.downs ++
      [{ why := .strand n, rails := withDependants (stitchWait n .disable (countStitch n s)) [stRail (curStitch n s)] }]) ∧
  (∀ (n : Fin 16) s, strandAt n 0x3 s →
    exec (.stWait n) s = .next (settled (stitchWait n .time (countStitch n s)))) ∧
  (∀ (n : Fin 16) s, strandAt n 0x4 s →
    exec (.stWaitpg n) s = .next (settled (stitchWait n (.powerGood (stRail (curStitch n s))) (countStitch n s)))) ∧
  (∀ (n : Fin 16) mv da s, strandAt n 0x5 s → ∀ w r v, w = curStitch n s → r = stRail w →
    v = (if (stMod w).testBit 0 then da else mv) → railBlocked (countStitch n s) r = false → (rail s r).st = .on →
    exec (.stCheck n mv da) s = .next (settled (
      let s1 := setStrand n (fun t => { t with c := stA w ≤ v && v ≤ stB w % 65536 }) (countStitch n s)
      stitchDone n (if !(stA w ≤ v && v ≤ stB w % 65536) && (stMod w).testBit 1
        then failRail r Cause.CHECK { mv := mv, da := da, strand := n } s1 else s1)))) ∧
  (∀ (n : Fin 16) mv da s, strandAt n 0x5 s → (rail s (stRail (curStitch n s))).st ≠ .on →
    exec (.stCheck n mv da) s = .next (settled (stitchDone n (setStrand n (fun t => { t with c := false }) (countStitch n s))))) ∧
  (∀ (n : Fin 16) s, strandAt n 0x6 s →
    exec (.stJump n) s = .next (settled (jumpTo n (stB (curStitch n s) % 4096) (countStitch n s)))) ∧
  (∀ (n : Fin 16) s, strandAt n 0x7 s → jumpCond n (curStitch n s) s →
    exec (.stJumpif n) s = .next (settled (jumpTo n (stB (curStitch n s) % 4096) (countStitch n s)))) ∧
  (∀ (n : Fin 16) s, strandAt n 0x7 s → jumpCond n (curStitch n s) s = false →
    exec (.stJumpif n) s = .next (settled (stitchDone n (countStitch n s)))) ∧
  (∀ (n : Fin 16) s, strandAt n 0x8 s → exec (.stSignal n) s = .next (settled (stitchDone n
    { countStitch n s with st.signals := s.st.signals ||| (1#32 <<< (stRail (curStitch n s) % 32)) }))) ∧
  (∀ (n : Fin 16) s, strandAt n 0x9 s →
    exec (.stAwait n) s = .next (settled (stitchWait n (.signal (stRail (curStitch n s) % 32)) (countStitch n s)))) ∧
  (∀ (n : Fin 16) s, strandAt n 0xA s → exec (.stLog n) s = .next (settled (stitchDone n (raise 2 6 n
    (leBytes 4 (stB (curStitch n s)) ++ leBytes 1 n.val ++ zeros 1 ++ leBytes 2 (strand s n).pc) (countStitch n s))))) ∧
  (∀ (n : Fin 16) trim s, strandAt n 0xB s → ∀ r, r = stRail (curStitch n s) → (rail s r).st = .on →
    exec (.stitchMargin n trim) s = .next (settled (stitchWait n (.margin r)
      (setStrand n (fun t => { t with modes := t.modes ++ [r] })
        (applyMargin r (signed16 (stA (curStitch n s))) trim ((strand s n).modes.contains r) (countStitch n s)))))) ∧
  (∀ (n : Fin 16) trim s, strandAt n 0xB s → (rail s (stRail (curStitch n s))).st ≠ .on →
    exec (.stitchMargin n trim) s = .next (settled (stitchDone n (countStitch n s))))

/-- Completions, power-good, falls, gaps, timeouts, failures, polls, slot timing, the first-failure write and the group
blocks answer, in a state they fit, the settling of the state that the rules of the stitch engine give. (R287, R288,
R290, R291, R294, R296, R298, R304, R308, R313, R314, R417) -/
def Obligations.RailEventsComplete : Prop :=
  (∀ (r : Fin 256) s n, enableFinds s r = .issue →
    (List.range 16).find? (fun n => (strand s n).run = 2 && (strand s n).wait == .parents r.val) = some n →
    exec (.parentsOn r) s = .next (settled (stitchWait n (.action r) (enableRail r s)))) ∧
  (∀ (r : Fin 256) s, (rail s r).act ≠ .none ∨ (List.range 16).any (fun n => (strand s n).wait == .margin r.val) →
    exec (.enableActionComplete r) s =
    .next (settled (marginAck r (twRailAck r (setRail r (fun x => { x with act := .none }) s))))) ∧
  (∀ (r : Fin 256) s n, railEnKind s.st.image r = 1 → (rail s r).act ≠ .none → n = railEnIndex s.st.image r →
    (rail s r).tries < 3 → twState n s ≠ 5 → exec (.pmbusAttemptRetry r) s =
      .next (settled (twEngine n (operationReq s.st.image r (operationValue s.st.image r (rail s r).driven))
        (setRail r (fun x => { x with tries := x.tries + 1 }) (twRailDone r (setBits (R.TW_ERR n) 4 s)))))) ∧
  (∀ (r : Fin 256) s u, railEnKind s.st.image r = 1 → (rail s r).act ≠ .none →
    3 ≤ (rail s r).tries ∨ twState (railEnIndex s.st.image r) s = 5 →
    u = railIsDown r (failRail r Cause.EN_FAIL {} (twRailDone r (setBits (R.TW_ERR (railEnIndex s.st.image r)) 4 s))) →
    exec (.pmbusAttemptRetry r) s = .next (settled (
      if (rail s r).act = .enabling ∧ (rail u r).act = .disabling then u else setRail r (fun x => { x with act := .none }) u))) ∧
  (∀ (r : Fin 256) s q n u, railEnKind s.st.image r ≠ 1 ∨ (rail s r).act = .none → marginRefused s r = some q →
    n = railPmPort s.st.image r → (twPort s n).cur ≠ some q →
    u = setTw n (fun p => { p with again := p.again.erase q }) s →
    exec (.pmbusAttemptRetry r) s = .next (settled (
      if (rail s r).st ≠ .on then marginAck r u
      else if 3 ≤ q.tries then marginAck r (failRail r Cause.EN_FAIL {} u)
      else twEngine n { q with tries := q.tries + 1 } u))) ∧
  (∀ (r : Fin 256) s, (rail s r).st = .rising → exec (.powerGood r) s =
    .next (settled (setRail r (fun x => { x with st := .on, pg := true, votes := 0 }) s))) ∧
  (∀ (r : Fin 256) s, (rail s r).st = .falling → exec (.railBelowOff r) s = .next (settled (railIsDown r
    (setRail r (fun x => { x with st := if x.st = .falling then .off else x.st, high := false }) s)))) ∧
  (∀ (r : Fin 256) s, exec (.offGapElapsed r) s = .next (settled { s with
    st.downs := s.st.downs.map (fun d => if d.cur = some r.val && d.gap then { d with cur := none, gap := false } else d) })) ∧
  (∀ (r : Fin 256) mv da t s, stillHigh s r → (rail s r).cause ≠ Cause.NO_FALL → railOffMv s.st.image r ≤ mv →
    (reversing s && s.st.pfailMode) = false →
    exec (.fallTimeout r mv da t) s =
      .next (settled (railIsDown r (failRail r Cause.NO_FALL { mv := mv, da := da, tUs := t } s)))) ∧
  (∀ (r : Fin 256) (k : Fin 4) mv da t s, railPresent s.st.image r → failureHolds s r k mv da → k ≠ 3 →
    exec (.railFailureDetected r k mv da t) s = .next (settled (failRail r (k.val + 2) { mv := mv, da := da, tUs := t }
      (setRail r (fun x => x) s)))) ∧
  (∀ (r : Fin 256) mv da t s, railPresent s.st.image r → (rail s r).st = .on →
    exec (.railFailureDetected r 3 mv da t) s = .next (settled (failRail r Cause.PG_LOST { mv := mv, da := da, tUs := t }
      (setRail r (fun x => { x with pg := false }) s)))) ∧
  (∀ (r : Fin 256) b t s, railPgKind s.st.image r = 2 → (rail s r).act ≠ .enabling → (rail s r).st = .rising →
    (rail s r).misses < 9 → exec (.statusWordPoll r none b t) s =
      .next (settled (setRail r (fun x => { x with misses := x.misses + 1 }) s))) ∧
  (∀ (r : Fin 256) w b t s, railPgKind s.st.image r = 2 → (rail s r).act ≠ .enabling → (rail s r).st = .rising →
    bitAt w 11 = false → (rail s r).pg = false → railDeb s.st.image r ≤ (rail s r).votes + 1 →
    exec (.statusWordPoll r (some w) b t) s = .next (settled (pgReading r true b t
      (setRail r (fun x => { x with misses := 0, votes := 0 }) s)))) ∧
  (∀ (n : Fin 16) s, (strand s n).run = 2 → (strand s n).wait = .time →
    exec (.waitElapsed n) s = .next (settled (stitchDone n s))) ∧
  (∀ (n : Fin 16) mv da t s r, (strand s n).wait = .powerGood r → (strand s n).run = 2 → (rail s r).st = .rising →
    exec (.waitpgTimeout n mv da t) s =
      .next (settled (failRail r Cause.NO_PG { mv := mv, da := da, tUs := t, strand := n } s))) ∧
  (∀ (n : Fin 16) s, (strand s n).run ≠ 0 → 65536 ≤ (strand s n).exec →
    exec (.strandLoopLimit n) s = .next (settled (offRequest false
      (raise 2 2 n (leBytes 4 (min (strand s n).exec 65535 * 65536 + (strand s n).pc))
        (setBits R.ST_FAULT 1 (setStrand n (fun t => { t with run := 0, wait := .none }) s)))))) ∧
  (∀ mv t s, s.st.pfailMode → disablesOver s → exec (.pfailFallCheck mv t) s = .next (settled (
    (List.range 256).foldl (fun a r =>
      if stillHigh a r && (rail a r).cause ≠ Cause.NO_FALL then
        (if railOffMv a.st.image r ≤ mv.getD r 0 then failRail r Cause.NO_FALL { mv := mv.getD r 0, tUs := t } a
         else fxBelowOff r a)
      else a) { s with st.fallsChecked := true }))) ∧
  (∀ (r : Fin 256) s, s.st.slotUp.contains r.val → strandsGo s →
    enableFinds { s with st.slotUp := s.st.slotUp.erase r.val } r = .issue →
    exec (.slotEnableTime r) s = .next (settled (enableRail r { s with st.slotUp := s.st.slotUp.erase r.val }))) ∧
  (∀ (r : Fin 256) s, exec (.slotDisableTime r) s =
    .next (settled { s with st.slotDown := s.st.slotDown.filter (fun x => x != r.val) })) ∧
  (∀ (r : Fin 256) mv da t s, slotMode s → (slotRails s.st.image).contains r.val → (rail s r).st = .rising →
    exec (.slotPgTimeout r mv da t) s =
      .next (settled (failRail r Cause.NO_PG { mv := mv, da := da, tUs := t } s))) ∧
  (∀ torn s f, s.st.latch = some f → exec (.firstFailureWritten torn) s = .next (settled { s with
    st.latch := none
    st.ring := SMap.set none s.st.ring ((f.seq - 1) % 1024) (some f)
    st.torn := (s.st.torn.filter (fun x => x != (f.seq - 1) % 1024)) ++ (if torn then [(f.seq - 1) % 1024] else []) })) ∧
  (∀ v s, exec (.stGroupBlockWrite v) s = .next (settled (wr R.ST_GROUP_BLOCK (v &&& 0x1FE#32) s)))

/-- Each command of the metering back end answers, in a state it fits, the settling of the state that the rules of chapter
10 give: a sample adds V times I of every present rail and moves tray time by 1 microsecond; a decided step moves tray
time and sets VALID; an INTERVAL is kept, or counted late or bad; the oldest due interval is divided; an idle or
overlong request closes; a batch closes on time and is signed (R339); a calibration sweep starts, takes a pair, and
ends. That the security core signs with its attestation key is R339; the signature bytes are free. (R322, R323, R324,
R325, R326, R327, R330, R332, R333, R334, R335, R338) -/
def Obligations.MeteringCommandsComplete : Prop :=
  (∀ volts amps s, islandOn 1 s → exec (.meterSample volts amps) s = .next (settled (tickMicro (
    if standbyUp s then (presentRails s.st.image).foldl (fun a r =>
      let v := convertCode a (2 * r) (volts.getD r 0)
      let i := convertCode a (2 * r + 1) (amps.getD r 0)
      { a with meter.acc := SMap.upd 0 a.meter.acc r (fun y => y + v * i), meter.energy := SMap.upd 0 a.meter.energy r (fun y => y + v * i),
               meter.sumV := SMap.upd 0 a.meter.sumV r (fun y => y + v), meter.sumI := SMap.upd 0 a.meter.sumI r (fun y => y + i) }) s
    else s)))) ∧
  (∀ s b, s.time.stepBy = some b → taiNow s % 10000 < 1000 → s.meter.samples = 0 → exec .timeStepApply s = .next (settled (
    let u := { s with meter.opens := s.meter.opens.map (fun o : OpenReq => { o with step := true }),
                      time.fifths := ((s.time.fifths : Int) + 5 * b).toNat, time.stepBy := none, time.slew := 0,
                      time.valid := true, time.stepped := some (now s) }
    { u with meter.start := max (tenMicros (taiNow u)) s.meter.start }))) ∧
  (∀ s b, s.time.stepBy = some b → taiNow s % 10000 < 1000 → s.meter.samples ≠ 0 → exec .timeStepApply s = .next (settled (
    closeInterval { s with meter.opens := s.meter.opens.map (fun o : OpenReq => { o with step := true }),
                           time.fifths := ((s.time.fifths : Int) + 5 * b).toNat, time.stepBy := none, time.slew := 0,
                           time.valid := true, time.stepped := some (now s) }))) ∧
  (∀ (a : Fin 8) p s t, islandOn 1 s → t = takeInbox a 3 1 p s → taiNow t < leAt p 0 8 + 10000 + attribLag t →
    intervalOk t p → exec (.attribInterval a p) s = .next (settled { t with
      meter.reports := t.meter.reports.filter (fun r => !(r.acc == a.val && r.start == leAt p 0 8)) ++
        [⟨a, leAt p 0 8, intervalEntries p⟩] })) ∧
  (∀ (a : Fin 8) p s t, islandOn 1 s → t = takeInbox a 3 1 p s → leAt p 0 8 + 10000 + attribLag t ≤ taiNow t →
    exec (.attribInterval a p) s = .next (settled (bump R.CNT_ATTRIB_LATE t))) ∧
  (∀ (a : Fin 8) p s t, islandOn 1 s → t = takeInbox a 3 1 p s → taiNow t < leAt p 0 8 + 10000 + attribLag t →
    intervalOk t p = false → exec (.attribInterval a p) s = .next (settled (bump R.CNT_ATTRIB_BAD t))) ∧
  (∀ s iv rest, s.meter.waiting = iv :: rest → iv.start + 10000 + attribLag s ≤ taiNow s →
    exec .intervalAttribution s = .next (settled (divideInterval iv { s with meter.waiting := rest }))) ∧
  (∀ id s o, s.meter.opens.find? (fun o => o.id == id) = some o → o.seenAt + max 1 (rdFld s R.TK_LIMITS 15 0) ≤ now s →
    exec (.ticketIdleClose id) s = .next (settled (closeReq id .idle s))) ∧
  (∀ id s o, s.meter.opens.find? (fun o => o.id == id) = some o → o.reopens = false →
    o.start + 1000000000 * max 1 (rdFld s R.TK_LIMITS 31 16) ≤ taiNow s →
    exec (.ticketMaxClose id) s = .next (settled (closeReq id .max s))) ∧
  (∀ s b, b ∈ s.meter.batches → b.closed = false → b.openAt + max 1 (min 1000 (rdFld s R.TK_CFG 15 0)) ≤ now s →
    exec .batchTimeClose s = .next (settled (closeBatch true s))) ∧
  (∀ s b r, s.meter.batches.find? (fun b => b.closed && b.record.isEmpty) = some b → coreUp 0 s → secOperational s →
    r = batchHeader s b ++ signWith s 2 (batchHeader s b) → exec .batchSigned s = .next (settled (notice 6 0 0 b.idx
      (countSign { s with
        meter.batches := s.meter.batches.map (fun x : Batch => if x.idx = b.idx then { x with record := r } else x),
        meter.firstBatch := false,
        meter.prevHash := (sha512 r).take 16,
        meter.lastSigned := b.firstSeq + b.tickets.length - 1 })))) ∧
  (∀ s, standbyUp s → s.meter.sweep = none → exec .calSweepStart s =
    .next (settled { s with meter.sweep := some { todo := List.range 512 } })) ∧
  (∀ s w, standbyUp s → s.meter.sweep = some w → exec .calSweepStart s = .next (settled
    { s with meter.sweep := some { w with todo := w.todo ++ (List.range 512).filter (fun c => !w.todo.contains c) } })) ∧
  (∀ (ch : Fin 512) g o d s w, s.meter.sweep = some w → w.todo.contains ch.val → s.meter.calNamed.contains ch.val = false →
    exec (.channelCalComplete ch g o d) s = .next (settled (
      let t := markDacs (BitVec.ofNat 16 d) s
      if pairOkFor t ch g o then
        { t with meter.sweep := some ⟨w.todo.erase ch, w.changed || coefOf t ch != (g, o)⟩,
                 meter.coef := SMap.set none t.meter.coef ch (some (g, o)) }
      else raise 3 2 ch (leBytes 2 ch) (bump R.CNT_CAL_SUSPECT
        { t with meter.sweep := some ⟨w.todo.erase ch, w.changed⟩ })))) ∧
  (∀ s, s.meter.sweep = some ⟨[], false⟩ → exec .calSweepEnd s = .next (settled { s with meter.sweep := none })) ∧
  (∀ s t, s.meter.sweep = some ⟨[], true⟩ → t = { s with meter.sweep := none, meter.calGen := s.meter.calGen + 1, meter.opens := s.meter.opens.map (fun o : OpenReq => { o with cal := true }) } →
    exec .calSweepEnd s = .next (settled (raise 3 1 noInst (leBytes 4 (calId t) ++ (sha512 (coefTable t)).take 16) t)))

/-- With the power-management core up a budget period measures, notes who is active, steps TH_W, stores grants and
throttle levels, sends GRANTs, caps clusters and sets the hold of R366; with it down the held grants are repeated.
DEMAND is stored; a guard comparison above the level opens an episode and one at or below THR_W starts its clearance;
GUARD takes the next grant; a cause clears; the ledger credits, releases, ages, assures and starts; TRAY_SUMMARY is
sent while BG_SUMMARY has EN. (R350, R351, R352, R354, R355, R356, R357, R358, R359, R361, R363, R368) -/
def Obligations.BudgetAndDispatchCommandsComplete : Prop :=
  (∀ s, coreUp 1 s → exec .budgetPeriod s = .next (settled (
    let a := (List.range 9).foldl noteActive (measure s)
    let b := (List.range 9).foldl stepThW { a with budget.interval := taiNow a / 1000000 * 1000000 }
    let c := if underFloorNow b && !b.budget.underFloor then raise 4 1 noInst [] b else b
    let d := storeGrants { c with budget.underFloor := underFloorNow b, budget.capShown := (capEff c).getD 0,
                                  budget.floorShown := (floorEff c).floor.toNat }
    let e := (List.range 8).foldl (grantAcc false) d
    setHold (pressHold e) ((List.range 8).foldl capCluster e)))) ∧
  (∀ s, coreUp 1 s = false → exec .heldGrantRepeat s = .next (settled (
    (List.range 8).foldl (grantAcc true) { s with budget.interval := taiNow s / 1000000 * 1000000 }))) ∧
  (∀ (a : Fin 8) p s, exec (.demand a p) s = .next (settled (
    setAcc a (fun b => { b with demand := leAt p 0 4, demandAt := some (now s) }) (takeInbox a 2 2 p s)))) ∧
  (∀ (a : Fin 8) w s, (accB s a).guard = false → rdBit s R.BG_CTRL 31 →
    rdN s (R.GUARD a) * (100 + max 1 (min 50 (rdFld s R.BG_CTRL 7 0))) < 100 * w →
    exec (.guardCompare a w) s = .next (settled (raise 4 2 a (regData (rd s (R.GUARD a)))
      (bump (R.CNT_GUARD a) (setAcc a (fun x => { x with guard := true, guardFell := false }) s))))) ∧
  (∀ (a : Fin 8) w s, (accB s a).guard → w ≤ rdFld s (R.GRANT a) 31 16 →
    exec (.guardCompare a w) s = .next (settled (setAcc a (fun x => { x with guardFell := true }) s))) ∧
  (∀ (a : Fin 8) s g rest, (accB s a).guardNext = g :: rest → exec (.guardLevelUpdate a) s =
    .next (settled (wr (R.GUARD a) (BitVec.ofNat 32 g) (setAcc a (fun b => { b with guardNext := rest }) s)))) ∧
  (∀ (a : Fin 8) s, (accB s a).guardFell → exec (.accThrCauseClear a true) s =
    .next (settled (setAcc a (fun b => { b with guard := false, guardFell := false }) s))) ∧
  (∀ (a : Fin 8) s, s.chip.rackThrottle = false → (accB s a).rack → (accB s a).freed ∨ grantDue s a = false →
    ∃ f, exec (.accThrCauseClear a false) s = .next (settled (setAcc a f s)) ∧
      (∀ b, b.rack → f b = { b with rack := false, rackMs := false })) ∧
  (∀ (a : Fin 8) s, s.chip.rackThrottle → exec (.accThrCauseClear a false) s = .next (settled s)) ∧
  (∀ s, coreUp 2 s → exec .ledgerPeriod s = .next (settled (
    let a := creditAll (max 1 (now s - s.budget.ledgerAt)) s
    let b := assureLedger (agePlans (releaseGo a.budget.items 0 a))
    startFirst (waitingPlans b) b))) ∧
  (∀ s, rdBit s R.BG_SUMMARY 31 → exec .traySummary s = .next (settled (sendNodeOrCount true
    { cls := 2, typ := 4, dst := rdFld s R.BG_SUMMARY 10 0, endpoint := 9, len := 32, payload := summaryPayload s } s)))

/-- A conversion of the ring-oscillator sensors is taken by every healthy sensor, declares the broken ones, counts the
cool time and, where a zone votes, trips; diodes and thermistors convert, fault with one event, or set SAFETY; SAFETY
and input faults clear; trims and the thermal limit are stepped. Thermistor values without a nominal resistance or
beta are free. (R371, R372, R373, R376, R377, R378, R379, R381, R382, R385, R386) -/
def Obligations.SensorsAndThrottleCommandsComplete : Prop :=
  (∀ counts temps s a b c vs, aonRuns s → a = (List.range 96).foldl neighbours (convertAll counts temps s) →
    b = (List.range 96).foldl breakSensor a →
    vs = (List.range 16).filter (fun z => votes s b z (10 * (tripC b : Int))) →
    c = countCool { b with heat.voting := BitVec.ofNat 16 (bitsOf 16 vs.contains),
                           heat.zoneLast := vs.getLast?.getD b.heat.zoneLast } →
    exec (.ringSensorConversion counts temps) s = .next (settled (
      if votes s b 12 1300 then aonTrip 12 c else if vs = [] then c else hwTrip (vs.headD 0) c))) ∧
  (∀ (d : Fin 16) t s, rdBit s (R.RD_CFG d) 31 → (s.heat.diodes.get {} d).fault = false →
    exec (.remoteDiodeConversion d (some t)) s = .next (settled (
      let u := setDiode d (fun x => { x with temp := t, ok := true }) s
      if rdFld s (R.RD_CFG d) 27 24 < 8 ∧ 10 * (rdFld s (R.RD_CFG d) 23 16 : Int) ≤ t then
        { u with heat.diodeHot := u.heat.diodeHot ||| (1#8 <<< rdFld s (R.RD_CFG d) 27 24) }
      else u))) ∧
  (∀ (d : Fin 16) s u, rdBit s (R.RD_CFG d) 31 → (s.heat.diodes.get {} d).fault = false →
    u = setDiode d (fun x => { x with fault := true, ok := false }) s →
    exec (.remoteDiodeConversion d none) s = .next (settled (raise 1 5 d (regData (sensWord (diodeRead u d) true)) u))) ∧
  (∀ (a : Fin 8) s, (∀ d ∈ diodesOf s a, diodeRead s d ≤ 10 * ((rdFld s (R.RD_CFG d) 23 16 : Int) - 5)) →
    exec (.diodeSafetyClear a) s = .next (settled { s with heat.diodeHot := s.heat.diodeHot &&& ~~~(1#8 <<< a.val) })) ∧
  (∀ (i : Fin 32) ohms s, rdBit s (R.TH_CFG i) 31 → 100 ≤ ohms → ohms ≤ 1000000 →
    exec (.thermistorConversion i ohms) s =
      .next (settled (setTherm i (fun x => { x with temp := thermTemp s i ohms, ok := true }) s))) ∧
  (∀ (i : Fin 32) ohms s u, rdBit s (R.TH_CFG i) 31 → ohms < 100 ∨ 1000000 < ohms → (s.heat.therms.get {} i).fault = false →
    u = setTherm i (fun x => { x with fault := true, ok := false }) s →
    exec (.thermistorConversion i ohms) s = .next (settled (raise 1 5 i (regData (sensWord (thermRead u i) true)) u))) ∧
  (∀ (i : Fin 32) s, exec (.inputFaultClear true i) s =
    .next (settled (setTherm i (fun x => if x.ok then { x with fault := false } else x) s))) ∧
  (∀ (i : Fin 32) s, i.val < 16 → exec (.inputFaultClear false i) s =
    .next (settled (setDiode i (fun x => if x.ok then { x with fault := false } else x) s))) ∧
  (∀ s, aonRuns s → exec .trimUpdate s = .next (settled (localSensors.foldl (fun a n => (trimTemp a n).elim a (fun t =>
    { a with heat.oscTrim := SMap.set none a.heat.oscTrim n (some (trimAt (Config.oscTrim n) t)),
             heat.gapTrim := SMap.set none a.heat.gapTrim n (some (trimAt (Config.gapTrim n) t)) })) s))) ∧
  (∀ s, aonRuns s → exec .thermalLimitStep s = .next (settled ((List.range 8).foldl thermStep s)))

/-- Each command of the cooling block and of the leak loops answers, in a state it fits, the settling of the state its
rule gives: overrides age and outputs are set each millisecond; a write of WDG_CTRL kicks and releases; the watchdog
fires when due; failing channels and low loops set NOW and EVER and drive their group to full, and recover; speeds and
flows are stored; QCAP is computed; a measurement of a leak loop acts once three agree, and a relaxed response ends on
DRY. (R389, R390, R391, R392, R393, R394, R395, R396, R397, R398, R399) -/
def Obligations.CoolingAndLeakCommandsComplete : Prop :=
  (∀ s, aonRuns s → exec .coolingOutputUpdate s = .next (settled ((List.range 56).foldl setOutput ((List.range 56).foldl (fun a c =>
    let n := rdFld a (R.CH_OVR c) 31 8
    if n = 0 ∨ n = 0xFFFFFF then a else wrFld (R.CH_OVR c) 31 8 (n - 1) a) s)))) ∧
  (∀ v s, bitAt v 31 → bitAt v 30 = false → exec (.kick v) s = .next (settled (
    let t := wrFld R.WDG_CTRL 7 0 (fld v 7 0) s
    { t with heat.lastKick := some (now t) }))) ∧
  (∀ s k, s.heat.lastKick = some k → now s ≤ k + max 10 (min 100 (rdFld s R.WDG_CTRL 7 0)) →
    exec .wdgRelease s = .next (settled ((List.range 56).foldl setOutput { s with heat.wdgFired := false }))) ∧
  (∀ s, s.heat.cfgLoaded → s.heat.wdgFired = false →
    max s.heat.cfgAt (s.heat.lastKick.getD 0) + max 10 (min 100 (rdFld s R.WDG_CTRL 7 0)) ≤ now s →
    exec .coolingWatchdogFire s =
      .next (settled (raise 1 6 noInst [] ((List.range 56).foldl setOutput { s with heat.wdgFired := true })))) ∧
  (∀ (c : Fin 56) rpm s t, c.val < 40 → 30 ≤ rdFld s (R.CH_DUTY c) 15 8 → rpm < 100 * rdFld s (R.CH_CFG c) 15 8 →
    rdBit s (R.CH_STAT c) 1 = false → t = setBits (R.CH_STAT c) 3 (wrFld (R.CH_SPEED c) 15 0 rpm s) →
    exec (.fanPumpFailure c rpm) s =
      .next (settled ((List.range 56).foldl setOutput (raise 1 7 c (regData (rd t (R.CH_STAT c))) t)))) ∧
  (∀ (f : Fin 16) rate s a k t, a = wrFld (R.FLOW_RATE f) 15 0 rate s → k = rdFld s (R.FLOW_CFG f) 26 24 →
    rdBit s (R.FLOW_CFG f) 31 → loopRate a k < loopMin a k → loopLow s k = false →
    t = (loopFlows a (rdFld a (R.FLOW_CFG f) 26 24)).foldl (fun b g => setBits (R.FLOW_STAT g) 3 b) a →
    exec (.flowLow f rate) s =
      .next (settled ((List.range 56).foldl setOutput (raise 1 7 f (regData (rd t (R.FLOW_STAT f))) t)))) ∧
  (∀ (i : Fin 56) speed s, i.val < 40 → 100 * rdFld s (R.CH_CFG i) 15 8 < speed →
    exec (.coolingFailureRecovery false i speed) s =
      .next (settled ((List.range 56).foldl setOutput (clrBits (R.CH_STAT i) 2 (wrFld (R.CH_SPEED i) 15 0 speed s))))) ∧
  (∀ (i : Fin 56) speed s a k, i.val < 16 → a = wrFld (R.FLOW_RATE i) 15 0 speed s → k = rdFld s (R.FLOW_CFG i) 26 24 →
    loopMin a k ≤ loopRate a k → exec (.coolingFailureRecovery true i speed) s =
      .next (settled ((List.range 56).foldl setOutput ((loopFlows a k).foldl (fun b g => clrBits (R.FLOW_STAT g) 2 b) a)))) ∧
  (∀ rpm rates s, aonRuns s → rpm.length = 40 → rates.length = 16 → exec (.tachReport rpm rates) s = .next (settled (
    (List.range 16).foldl (fun a f => wrFld (R.FLOW_RATE f) 15 0 (rates.getD f 0) a)
      ((List.range 40).foldl (fun a c => wrFld (R.CH_SPEED c) 15 0 (rpm.getD c 0) a) s)))) ∧
  (∀ s, coreUp 1 s → exec .qcapReport s = .next (settled (wr R.QCAP (BitVec.ofNat 32 (
    if (List.range 16).all (fun f => !rdBit s (R.FLOW_CFG f) 31) then
      (if rdN s R.CO_AIRCAP = 0 then 0xFFFFFFFF else rdN s R.CO_AIRCAP)
    else min 0xFFFFFFFF ((List.range 8).foldl (fun a k => a + loopHeat s k) 0 / 10000))) s))) ∧
  (∀ (c : Fin 56) s, rdFld s (R.CH_OVR c) 31 8 = 0 → rdFld s (R.CH_OVR c) 7 0 ≠ 0 →
    exec (.overrideExpiry c) s = .next (settled (setOutput (wr (R.CH_OVR c) 0 s) c))) ∧
  (∀ (l : Fin 48) ins cont s c n, aonRuns s → c = leakClass s ins cont →
    n = (if (leakLoop s l).cand = c then min 3 ((leakLoop s l).agree + 1) else 1) →
    exec (.leakMeasurement l ins cont) s = .next (settled (leakRespond l (setLoop l (fun x =>
      { x with ins := ins, cont := cont, cand := c, agree := if x.cand = c then min 3 (x.agree + 1) else 1,
               cls := if 3 ≤ n then c else x.cls }) s)))) ∧
  (∀ (l : Fin 48) s, (leakLoop s l).cls = .dry → exec (.relaxedResponseEnd l) s =
    .next (settled (setLoop l (fun x => { x with relaxed := none }) s)))

/-- GO starts a core's transaction past the VCORE gate; the end of a transaction gives its result to its requester and
frees the bus; idle, busy, timeout, stuck and recovery events move the port's state; the target function takes writes,
serves reads, sleeps and wakes; the self-test reports; a write of TW_CTRL enables and disables. A GO on a port that is
OFF, STUCK, or that polls rails and is asked for more than four bytes ends at once with RESULT 7, 5 or 8. (R404, R405,
R408, R411, R412, R413, R414, R416, R418, R420, R421, R423) -/
def Obligations.TwoWirePortEventsComplete : Prop :=
  (∀ (n : Fin 32) v s, bitAt v 31 → rdBit s (R.TW_XSTAT n) 31 = false → twState n s ≠ 0 → twState n s ≠ 5 →
    twController n s → (portPolls s n = false ∨ fld v 15 8 + fld v 23 16 ≤ 4) →
    exec (.go n v) s = .next (settled (
      let s1 := wr (R.TW_XFER n) ((v ||| 0x80000000#32) &&& 0xE0FFFF7F#32) s
      queueCore n (coreReq n v s1) (wr (R.TW_XSTAT n) 0x80000000#32 s1)))) ∧
  (∀ (n : Fin 32) v s, bitAt v 31 → rdBit s (R.TW_XSTAT n) 31 = false → (twState n s = 0 ∨ twController n s = false) →
    exec (.go n v) s = .next (settled (twCoreEnd n 7 0 (wr (R.TW_XFER n) ((v ||| 0x80000000#32) &&& 0xE0FFFF7F#32) s)))) ∧
  (∀ (n : Fin 32) v s, bitAt v 31 → rdBit s (R.TW_XSTAT n) 31 = false → twState n s = 5 → twController n s →
    exec (.go n v) s = .next (settled (twCoreEnd n 5 0 (wr (R.TW_XFER n) ((v ||| 0x80000000#32) &&& 0xE0FFFF7F#32) s)))) ∧
  (∀ (n : Fin 32) v s, bitAt v 31 → rdBit s (R.TW_XSTAT n) 31 = false → twState n s ≠ 0 → twState n s ≠ 5 →
    twController n s → portPolls s n → 4 < fld v 15 8 + fld v 23 16 →
    exec (.go n v) s = .next (settled (twCoreEnd n 8 0 (wr (R.TW_XFER n) ((v ||| 0x80000000#32) &&& 0xE0FFFF7F#32) s)))) ∧
  (∀ (n : Fin 32) v s, bitAt v 31 → rdBit s (R.TW_XSTAT n) 31 = true → exec (.go n v) s = .next (settled s)) ∧
  (∀ (n : Fin 32) (r : Fin 16) d s q, (twPort s n).cur = some q →
    exec (.twTransactionEnd n r d) s = .next (settled (twFree n (endTransaction n r d q s)))) ∧
  (∀ (n : Fin 32) s, twState n s = 1 ∨ twState n s = 3 ∨ twState n s = 4 →
    exec (.busIdleDetect n) s = .next (settled (twFree n (twLines n true true false s)))) ∧
  (∀ (n : Fin 32) s, twState n s = 1 → exec (.busStartSeen n) s = .next (settled (twGo n 3 s))) ∧
  (∀ (n : Fin 32) s, twState n s = 3 → exec (.busStopSeen n) s = .next (settled (twFree n s))) ∧
  (∀ (n : Fin 32) s q, twState n s = 2 → (twPort s n).cur = some q →
    exec (.sclLowTimeout n) s = .next (settled (twRecover n (endTransaction n 4 [] q s)))) ∧
  (∀ (n : Fin 32) s, twState n s = 3 → (twPort s n).cur = none → exec (.sclLowTimeout n) s = .next (settled (twGo n 1 s))) ∧
  (∀ (n : Fin 32) s, twState n s = 1 ∨ twState n s = 3 →
    exec (.stuckSdaDetect n) s = .next (settled (twRecover n (twLines n true false false s)))) ∧
  (∀ (n : Fin 32) s, twState n s = 4 → exec (.resetLineRelease n true true) s = .next (settled (twFree n
    (twLines n true true false (bump (R.TW_CNT_RESET n) (setBits (R.TW_ERR n) 0x20 s)))))) ∧
  (∀ (n : Fin 32) a b s, twState n s = 4 → (a && b) = false → exec (.resetLineRelease n a b) s = .next (settled (goStuck n
    (twLines n a b false (bump (R.TW_CNT_RESET n) (setBits (R.TW_ERR n) 0x20 s)))))) ∧
  (∀ (n : Fin 32) s, twState n s = 5 →
    exec (.stuckRetry n true true) s = .next (settled (twFree n (twLines n true true false (twRecover n s))))) ∧
  (∀ (n : Fin 32) a b s, twState n s = 5 → (a && b) = false → exec (.stuckRetry n a b) s =
    .next (settled (twGo n 5 (twLines n a b false (bump (R.TW_CNT_RESET n) (setBits (R.TW_ERR n) 0x20 (twRecover n s))))))) ∧
  (∀ (n : Fin 32) s, twState n s = 1 → twTarget n s → rdFld s (R.TW_TMO n) 31 16 ≠ 0 →
    exec (.targetStandbyEntry n) s = .next (settled (twGo n 6 s))) ∧
  (∀ (n : Fin 32) s, twState n s = 6 → exec (.targetWake n) s = .next (settled (twFree n (bump (R.TW_CNT_WAKE_NACK n) s)))) ∧
  (∀ (n : Fin 32) s, twTarget n s → exec (.targetProtocolError n false) s = .next (settled (
    let s1 := bump (R.TW_CNT_PROTO n) (setBits (R.TW_ERR n) 0x08 s)
    if twState n s1 = 3 then twFree n s1 else s1))) ∧
  (∀ (n : Fin 32) s, twTarget n s → rdBit s (R.TW_CTRL n) 6 → exec (.targetProtocolError n true) s = .next (settled (
    let s1 := bump (R.TW_CNT_PEC n) (setBits (R.TW_ERR n) 0x40 s)
    if twState n s1 = 3 then twFree n s1 else s1))) ∧
  (∀ (n : Fin 32) d s, n.val < 30 → twTarget n s → twState n s ≠ 0 → twState n s ≠ 6 →
    exec (.targetWriteReceived n d) s = .next (settled (wr (R.TW_TSTAT n) (BitVec.ofNat 32 (0x10000 + min d.length 256))
      (wrBytes (R.TW_TBUF n 0) 0 (d.take 256) s)))) ∧
  (∀ (n : Fin 32) k s, n.val < 30 → twTarget n s → twState n s ≠ 0 → twState n s ≠ 6 →
    exec (.targetReadReceived n k) s = .next (settled
      (setTw n (fun p => { p with sent := regBytes s (R.TW_TSEND n 0) (min k 256) }) s))) ∧
  (∀ (n : Fin 32) s, twState n s = 1 → exec (.twStestGo n true) s =
    .next (settled (wrFld (R.TW_STATE n) 17 16 3 (bump (R.TW_CNT_RECOVER n) s)))) ∧
  (∀ (n : Fin 32) s, twState n s = 1 → exec (.twStestGo n false) s =
    .next (settled (raise 5 2 n [] (wrFld (R.TW_STATE n) 17 16 1 (bump (R.TW_CNT_RECOVER n) s))))) ∧
  (∀ (n : Fin 32) v s, fld v 1 0 ≠ 0 → twState n s = 0 → (twPort s n).releasing = false → islandOn 1 s →
    exec (.twCtrlWrite n v) s = .next (settled (twRecover n (wr (R.TW_CTRL n) (v &&& 0xEF#32) s)))) ∧
  (∀ (n : Fin 32) v s q, fld v 1 0 = 0 → twState n s ≠ 0 → (twPort s n).cur = some q → exec (.twCtrlWrite n v) s =
    .next (settled (setTw n (fun p => { p with releasing := true, enableWaits := false }) (wr (R.TW_CTRL n) (v &&& 0xEF#32) s)))) ∧
  (∀ (n : Fin 32) v s, fld v 1 0 ≠ 0 → (twPort s n).releasing → exec (.twCtrlWrite n v) s =
    .next (settled (setTw n (fun p => { p with enableWaits := true }) (wr (R.TW_CTRL n) (v &&& 0xEF#32) s)))) ∧
  (∀ (n : Fin 32) v s, fld v 1 0 = 0 → twState n s ≠ 0 → (twPort s n).cur = none → exec (.twCtrlWrite n v) s =
    .next (settled (offRequests n (twLines n true true false (twGo n 0 (wr (R.TW_CTRL n) (v &&& 0xEF#32) s))))))

/-- A core that is not kicked for WDG_MS, or that meets a fatal exception, stops with its cause; a kick restarts its
watchdog; a core that may restart runs again, or an activation goes on without it; ten minutes without a stop raise
the SVN floor; a pending activation starts with every latch clear; a staged image is written; an access outside the
windows is refused; the backstop caps the clusters and the cap ends. (R425, R427, R429, R430, R437, R438, R439, R440,
R441, R443, R453, R454) -/
def Obligations.CoreAndFirmwareCommandsComplete : Prop :=
  (∀ (k : Fin 11) s, aonRuns s → coreUp k s → (coreSt s k).kick + max 1 (min 100 (rdFld s R.CORE_WDG 7 0)) ≤ now s →
    exec (.coreWatchdogExpiry k) s = .next (settled (stopCore k Stop.WATCHDOG true s))) ∧
  (∀ (k : Fin 11) s, aonRuns s → coreUp k s →
    exec (.coreKick k) s = .next (settled (setCore k (fun c => { c with kick := now s }) s))) ∧
  (∀ (k : Fin 11) m s, aonRuns s → coreUp k s →
    exec (.coreFatalException k m) s = .next (settled (stopCore k (if m then Stop.MEMORY else Stop.EXCEPTION) true s))) ∧
  (∀ (k : Fin 11) s, aonRuns s → mayRestart s k → k.val ≠ 0 → (coreSt s k).image ≠ [] →
    exec (.coreRestartComplete k) s = .next (settled (activationStep k (coreRuns k s)))) ∧
  (∀ (k : Fin 11) s, aonRuns s → mayRestart s k → k.val = 0 ∨ (coreSt s k).image = [] → exec (.coreRestartComplete k) s =
    .next (settled (
      let t := loadCore k s
      if (coreSt t k).image = [] then
        t.aon.acting.elim t (fun a => if a.mask.testBit k then activationGoes { a with mask := a.mask - 2 ^ k.val } t else t)
      else activationStep k (coreRuns k t)))) ∧
  (∀ (k : Fin 11) s at_, (coreSt s k).activatedAt = some at_ → at_ + 600000 ≤ now s → (coreSt s k).probStops = 0 →
    exec (.probationPass k) s = .next (settled (setCore k (fun c => { c with activatedAt := none })
      { s with aon.svnFloor := SMap.set 0 s.aon.svnFloor (coreClass k) (max (s.aon.svnFloor.get 0 (coreClass k)) (fwSvn (coreSt s k).image)) }))) ∧
  (∀ s a, s.aon.pendAct = some a → emergLatches s = 0 → aonRuns s → coreUp 0 s →
    exec .deferredActivationStart s = .next (settled (startActivation a s))) ∧
  (∀ s c k img, stagingFw s.longs = some (c, k, img) → aonRuns s → coreUp 0 s → exec .fwStageComplete s =
    .next (settled (finishLong (.fwStage c k img) St.DONE [] { s with flash := SMap.set [] s.flash (2 * c + k) img }))) ∧
  (∀ (m : Fin 37) a n w s, fwAdmits s m a n w = false → exec (.firewallViolation m a n w) s = .next (settled (
    let t := violate m a n w s
    if m.val ≤ 10 ∧ isPinned s m = false ∧ isPinned t m then stopCore m Stop.PIN false t else t))) ∧
  (∀ mv s t, aonRuns s → s.aon.vcoreEff + 25 < mv → t = writeVcoreLimit { s with aon.vcoreCap := true } →
    exec (.vcoreBackstop mv) s = .next (settled (raise 11 7 noInst (vcoreSetData t) t))) ∧
  (∀ s, exec .vcoreCapRelease s = .next (settled { s with aon.vcoreCap := false }))

/-- An event is raised; the record at the head of the queue is committed and a Keep one is told to the host; a quiet
second frees a coalescer entry and a flood of 10 s flushes it. A staged image is written, a pending activation of a
slot whose image verifies is applied, and one whose image fails is answered FAULT; a due rollback takes the PREVIOUS
slot or the factory image. What the codes of events are is the event table's; the class 12 events follow the model's
reading of it. (R464, R466, R467, R468, R469, R470, R471, R472, R482, R485, R488, R489) -/
def Obligations.RecorderAndConfigurationCommandsComplete : Prop :=
  (∀ c k i d s, aonRuns s → c < 256 → k < 65536 → i < 65536 →
    exec (.eventRaised c k i d) s = .next (settled (raiseEvent ⟨c, k, i, keepEvent c k, d, none⟩ s))) ∧
  (∀ s e rest x t, s.rcd.queue = e :: rest → aonRuns s →
    x = (⟨{ e with rep := none }, now s, s.aon.powerCycles, s.rcd.seq, e.rep, 0⟩ : EvRec) →
    t = { s with rcd := noteSeq e s.rcd.seq rest (commitRecord x { s.rcd with queue := rest }) } →
    exec .recordCommit s = .next (settled (lostRecord (if e.keep then notice 5 0 0 s.rcd.seq t else t)))) ∧
  (∀ (i : Fin 8) s c, s.rcd.coal[i.val]? = some c → aonRuns s → c.last + 1000 ≤ now s →
    exec (.coalescerFlush i) s = .next (settled { s with rcd := { flushEntry c s.rcd with coal := (flushEntry c s.rcd).coal.erase c } })) ∧
  (∀ (i : Fin 8) s c, s.rcd.coal[i.val]? = some c → aonRuns s → now s < c.last + 1000 → c.flushed + 10000 ≤ now s →
    exec (.coalescerFlush i) s = .next (settled { s with rcd := { flushEntry c s.rcd with
      coal := (flushEntry c s.rcd).coal.map (fun d => if d = c then { d with flushed := now s } else d) } })) ∧
  (∀ s slot img mb tag t, s.cfg.job = .staging slot img mb tag → aonRuns s → coreUp 0 s →
    t = (if slot = 0 then { s with cfg.image0 := img } else { s with cfg.image1 := img }) →
    exec .configStageComplete s = .next (settled (finishLong .configStage St.DONE (leBytes 4 (imageGen img))
      (raise 12 1 noInst (leBytes 4 (imageGen img) ++ leBytes 1 0)
        (setSlotPassed slot false (setSlotState slot 1 { t with cfg.job := .none })))))) ∧
  (∀ s slot mb tag, s.cfg.job = .pending slot true mb tag → aonRuns s → coreUp 0 s → s.chip.tray = .standby →
    emergLatches s = 0 → exec .configActivationApply s = .next (settled (
      let img := cfgImage s slot
      let t := { s with cfg.job := .none }
      if ownerImageOk s img then finishLong .configActivate St.DONE (leBytes 4 (imageGen img))
        (raise 12 4 noInst (leBytes 4 (activeGen s) ++ leBytes 4 (imageGen img))
          (applyOwner img (applySections img (movePointer slot true t))))
      else finishLong .configActivate St.FAULT (detail noDetail 1) (setSlotState slot 4 t)))) ∧
  (∀ s slot mb tag, s.cfg.job = .pending slot false mb tag → aonRuns s → coreUp 0 s → s.chip.tray = .standby →
    emergLatches s = 0 → exec .configActivationApply s = .next (settled (
      let img := cfgImage s slot
      let t := { s with cfg.job := .none }
      if ownerImageOk s img then finishLong .configActivate St.DONE (leBytes 4 (imageGen img))
        (raise 12 2 noInst (leBytes 4 (imageGen img) ++ leBytes 1 0)
          (applyOwner img (applySections img (movePointer slot false t))))
      else finishLong .configActivate St.FAULT (detail noDetail 1) (setSlotState slot 4 t)))) ∧
  (∀ s t i, s.cfg.rollbackDue → aonRuns s → coreUp 0 s → s.chip.tray = .standby → emergLatches s = 0 → s.cfg.job = .none →
    t = (if s.cfg.active < 2 then setSlotState s.cfg.active 4 s else s) → previousSlot t = some i → exec .rollbackApply s =
      .next (settled (
        let u := { t with cfg.fails := 0, cfg.rollbackDue := false, cfg.probation := false, cfg.attempt := false, cfg.fallback := false }
        let f := if factoryImageOk u.cfg.factory0 then u.cfg.factory0 else u.cfg.factory1
        if ownerImageOk u (cfgImage u i) then
          raise 12 5 noInst (leBytes 4 (activeGen s) ++ leBytes 4 (imageGen (cfgImage u i)))
            (applyOwner (cfgImage u i) (applySections (cfgImage u i) (setSlotState i 2 { u with cfg.active := i })))
        else raise 12 5 noInst (leBytes 4 (activeGen s) ++ leBytes 4 (imageGen f)) (applySections f { u with cfg.active := 2 }))))

/-- A 4-byte aligned write of register space by a master that can make an access: one that the firewall does not admit, or
of a pinned master, is refused; one that no block decodes is a DECODE error; one to a block whose island is down is an
ABSENT error; one that is admitted acts on the register; one of a master that the block does not admit, and one to an
RWL register whose block is locked, by any master but 0, changes nothing; another one stores the word that its access
code leaves. (R8, R27, R29, R30, R31, R452, R453, R454, R461) -/
def Obligations.RegisterWritesComplete : Prop :=
  (∀ (m : Fin 37) off v s, masterRuns s m → off % 4 = 0 → off < 0x100000000 → fwAdmits s m (regBase + off) 4 true = false →
    exec (.registerWrite m (regBase + off) v) s = .next (settled (refuseAccess m (regBase + off) 4 true s))) ∧
  (∀ (m : Fin 37) off v s, masterRuns s m → off % 4 = 0 → off < 0x100000000 → fwAdmits s m (regBase + off) 4 true →
    isPinned s m = false → inRegBlock off = false →
    exec (.registerWrite m (regBase + off) v) s = .next (settled (decodeError (regBase + off) s))) ∧
  (∀ (m : Fin 37) off v s, masterRuns s m → off % 4 = 0 → off < 0x100000000 → fwAdmits s m (regBase + off) 4 true →
    isPinned s m = false → inRegBlock off → regAnswers s off = false →
    exec (.registerWrite m (regBase + off) v) s = .next (settled (absentWrite m (regBase + off) s))) ∧
  (∀ (m : Fin 37) off v s, masterRuns s m → off % 4 = 0 → off < 0x100000000 → fwAdmits s m (regBase + off) 4 true →
    isPinned s m = false → inRegBlock off → regAnswers s off → exec (.registerWrite m (regBase + off) v) s =
      .next (settled (match mbBuffer off with
        | some (n, rep, o) => if rep then s else bufWrite n o (leBytes 4 v.toNat) s
        | none => match regRow off with
          | none => s
          | some r => if blockWriter m off = false ∨ (m.val ≠ 0 ∧ r.acc = .rwl ∧ s.sec.lock.getLsbD (lockBit off)) then s
            else regEffect m off r v s)))

/-- For every command and state, a step with that command at the front of the queue is the command's effect on the state
with the queue's rest; on an empty queue the block idles. The queue and the idling are the model's own: log entries 1
and 2. (95_what_each_step_holds.md) -/
def Obligations.AStepRunsTheFrontCommand : Prop :=
  (∀ c rest (s : State), step { s with pending := c :: rest } = exec c { s with pending := rest }) ∧
  (∀ s, s.pending = [] → step s = .next s)

/-- Every command, in every state, answers a next state: the settling of an effect. A command that does not fit the state
has no effect of its own, which is the model's choice: log entry 3. (95_what_each_step_holds.md, R21, R453) -/
def Obligations.EveryCommandAnswersANextState : Prop :=
  ∀ c s, ∃ u, exec c s = .next (settled u)

/-- At reset the tray is OFF, every core is down, the effective limits are those of manufacture, no event waits, every
mailbox is IDLE at version 3.2, no island but the AON island is powered, the registers read as their reset values, and
the memory lists nothing. The limits of manufacture that the model takes are 900 mV, 1,600 MHz and 120 degrees, as the
chapter's table gives them. (R19, R265, R276, R347, R442, R460, R468) -/
def Obligations.ResetStands : Prop :=
  State.reset.chip.tray = .off ∧ State.reset.aon.coreDown = 0x7FF ∧ State.reset.chip.islands = 0 ∧
  LimitsHold State.reset ∧ State.reset.rcd.queue = [] ∧ State.reset.regs = [] ∧ State.reset.mem.data = [] ∧
  State.reset.pending = [] ∧ settled State.reset = State.reset ∧
  (∀ n : Fin 16, (mbox State.reset n).st = .idle ∧ (mbox State.reset n).major = 3 ∧ (mbox State.reset n).minor = 2) ∧
  (∀ off, rd State.reset off = regReset off) ∧ (∀ a, dramByte State.reset a = 0)

/-- Every command that is no cold reset leaves each effective starch limit at or below its value, each SVN floor and the
key epoch at or above theirs, an unlocked debug port unlocked, and the waiting commands as they are. (R441, R442,
R447, R457) -/
def Obligations.LimitsOnlyTighten : Prop :=
  ∀ c s t, coldResets c = false → exec c s = .next t → Tightens s t

/-- From every state in which no effective starch limit stands above its manufacture value, every step, a cold reset among
them, leads to such a state. (R442) -/
def Obligations.LimitsHoldThroughEveryStep : Prop :=
  ∀ s t, LimitsHold s → step s = .next t → LimitsHold t

/-- For every command: OPTIME moves by one 1 ms unit, modulo its 48 bits, with OPTIME_TICK while VAON is within its
window, and otherwise not at all; POWER_CYCLES moves by one, modulo its 32 bits, when VAON returns after having been
absent, and otherwise not at all. Both are kept through a SYSRST_N pulse. They are what the AON registers OPTIME and
POWER_CYCLES read as. (R464) -/
def Obligations.OperatingTimeAndPowerCycles : Prop :=
  (∀ c s t, exec c s = .next t →
    t.aon.optime = (if c = .optimeTick ∧ s.chip.vaonOk then (s.aon.optime + 1) % 2 ^ 48
      else s.aon.optime) ∧
    (∀ x y, c = .vaonRestored x y → s.chip.vaonOk = false → t.aon.powerCycles = (s.aon.powerCycles + 1) % 2 ^ 32) ∧
    (s.chip.vaonOk ∨ (∀ x y, c ≠ .vaonRestored x y) → t.aon.powerCycles = s.aon.powerCycles)) ∧
  (∀ s, shownWord s R.OPTIME_LO = BitVec.ofNat 32 s.aon.optime ∧
    shownWord s R.OPTIME_HI = BitVec.ofNat 32 (s.aon.optime / 2 ^ 32 % 65536) ∧
    shownWord s R.POWER_CYCLES = BitVec.ofNat 32 s.aon.powerCycles)

/-- After every command, whatever the state before it, the tray is in READY only if no bit of DEGRADE_CAUSE is one, and in
DEGRADED only if one is; with the last bit clear it is READY at once. DEGRADE_CAUSE reads as those bits. (R20) -/
def Obligations.DegradedExactlyWhileACauseIsSet : Prop :=
  (∀ c s t, exec c s = .next t →
    (t.chip.tray = .ready → degradeCause t = 0) ∧ (t.chip.tray = .degraded → degradeCause t ≠ 0)) ∧
  (∀ s, s.chip.tray = .degraded → degradeCause s = 0 → settleTray s = setTray .ready s) ∧
  (∀ s, shownWord s R.DEGRADE_CAUSE = BitVec.ofNat 32 (degradeCause s))

/-- Every completion statement gives a command's next state as the settling of an explicit effect. This is the frame of
the settling: it leaves the commands that wait, operating time, the SVN floors and limits, the security core's state
but for the masters that a read of the settling may pin, the configuration store, the firmware slots, tray time but
for a holdover that it may begin, the temperatures, cooling and leaks, and the budget and ledger as the effect left
them. (R20, R21, R218, R273, R311, R328, R335, R453) -/
def Obligations.SettlingLeavesAlone : Prop :=
  ∀ s, (settled s).pending = s.pending ∧ (settled s).aon.optime = s.aon.optime ∧ (settled s).aon.svnFloor = s.aon.svnFloor ∧
    (settled s).aon.vcoreEff = s.aon.vcoreEff ∧ (settled s).aon.iclkEff = s.aon.iclkEff ∧ (settled s).aon.tjEff = s.aon.tjEff ∧
    (settled s).sec.kept = s.sec.kept ∧ (settled s).cfg = s.cfg ∧ (settled s).flash = s.flash ∧
    (settled s).time.kept = s.time.kept ∧
    (settled s).heat = s.heat ∧ (settled s).budget = s.budget

/-- For 32 data bytes, the word with its four check bytes has four syndromes of zero; with any non-zero error in any one
of its 36 symbols, mode C1D3 gives back that word and names the symbol. (R196, R197, R198) -/
def Obligations.TrayCodeCorrectsOneSymbol : Prop :=
  (∀ d : Bytes, d.length = 32 → tcDecode1 (tcEncode d) = .clean ∧ (tcEncode d).take 32 = d) ∧
  (∀ (d : Bytes) (j : Nat) (e : Byte), d.length = 32 → j < 36 → e ≠ 0 →
    tcDecode1 (addByte (tcEncode d) j e) = .corrected (tcEncode d) [j])

/-- For every permutation of the products of an E-sum of at most 2^31 products, with or without an addend, and every
output format, the delivered bits are the same: NaN and infinity terms, signed zeros and cancellation among them.
(R36, R40, R48) -/
def Obligations.ExactSumsDoNotDependOnOrder : Prop :=
  ∀ (scaled : Bool) (fa fb fout : Nat) (ps qs : List (Scaled × Scaled)) (c : Option TVal), ps.Perm qs → ps.length ≤ eChunk →
    (eSum scaled fa fb fout ps c).bits = (eSum scaled fa fb fout qs c).bits

/-- A magnitude m × 2^e, exact, rounded to a multiple n × 2^q, lies within half of 2^q of it; where it lies half way n is
even; and the inexact flag says whether the two differ. (R40) -/
def Obligations.RoundingIsToNearestEven : Prop :=
  ∀ (m : Nat) (e q : Int) (n : Nat) (x : Bool), roundUnits m e false q = (n, x) →
    (q ≤ e → n = m * 2 ^ (e - q).toNat ∧ x = false) ∧
    (e < q → 2 * ((m : Int) - n * 2 ^ (q - e).toNat).natAbs ≤ 2 ^ (q - e).toNat ∧
      (2 * ((m : Int) - n * 2 ^ (q - e).toNat).natAbs = 2 ^ (q - e).toNat → n % 2 = 0) ∧
      (x = true ↔ m ≠ n * 2 ^ (q - e).toNat))

/-- While DECODE and ABSENT are both zero, a DECODE or ABSENT error stores its address and sets its bit; while either is
set, it sets its bit and leaves the address. (R33) -/
def Obligations.ErrorAddressIsTheFirst : Prop :=
  ∀ (a : Nat) s, (let t := decodeError a s; let u := absentError a s
    rdBit t R.ERR_STATUS 1 ∧ rdBit u R.ERR_STATUS 0 ∧
    (rdBit s R.ERR_STATUS 0 = false ∧ rdBit s R.ERR_STATUS 1 = false →
      rd t R.ERR_ADDR_LO = BitVec.ofNat 32 a ∧ rd t R.ERR_ADDR_HI = BitVec.ofNat 32 (a / 2 ^ 32 % 65536) ∧
      rd u R.ERR_ADDR_LO = BitVec.ofNat 32 a ∧ rd u R.ERR_ADDR_HI = BitVec.ofNat 32 (a / 2 ^ 32 % 65536)) ∧
    (rdBit s R.ERR_STATUS 0 ∨ rdBit s R.ERR_STATUS 1 →
      rd t R.ERR_ADDR_LO = rd s R.ERR_ADDR_LO ∧ rd t R.ERR_ADDR_HI = rd s R.ERR_ADDR_HI ∧
      rd u R.ERR_ADDR_LO = rd s R.ERR_ADDR_LO ∧ rd u R.ERR_ADDR_HI = rd s R.ERR_ADDR_HI))

/-- A target below 400 acts as 400, one above 1,600 as 1,600, and any other one as the multiple of 25 at or below it; the
effective clock of a powered cluster never exceeds it; and a write leaves the value written in the register. (R112) -/
def Obligations.TargetClockActsInSteps : Prop :=
  (∀ v, v < 400 → actTarget v = 400) ∧ (∀ v, 1600 < v → actTarget v = 1600) ∧
  (∀ v, 400 ≤ v → v ≤ 1600 → 25 ∣ actTarget v ∧ actTarget v ≤ v ∧ v < actTarget v + 25) ∧
  (∀ s c b, (effClock s c b).1 ≤ actTarget (rdFld s (R.CL_FREQ c) 10 0)) ∧
  (∀ (c : Fin 8) v s, islandAnswers (clusterIsland c) s → v < 2048#32 → ∃ u, exec (.clFreqWrite c v) s = .next (settled u) ∧
    rd u (R.CL_FREQ c) = v)

/-- A write of CL_CTRL does what the write of its highest bit alone does: ABORT, SELFTEST, RESUME, SUSPEND in that order.
(R111) -/
def Obligations.HighestControlBitActs : Prop :=
  ∀ (c : Nat) (v : W32) s, (bitAt v 3 → clCtrl c v s = clCtrl c 8 s) ∧
    (bitAt v 3 = false → bitAt v 2 → clCtrl c v s = clCtrl c 4 s) ∧
    (bitAt v 3 = false → bitAt v 2 = false → bitAt v 1 → clCtrl c v s = clCtrl c 2 s) ∧
    (bitAt v 3 = false → bitAt v 2 = false → bitAt v 1 = false → bitAt v 0 → clCtrl c v s = clCtrl c 1 s) ∧
    (clCtrl c 1 s = suspendCluster c s ∧ clCtrl c 2 s = fxResume c s)

/-- T_z is a reading of a sensor of zone z and no sensor of it reads higher, a broken one counting at the value of R377;
H_8 is THR_EFF less the highest T_z of the 16 zones; H_a is the smallest of the accelerator's own term, 0 where no
ACC_STATUS came in the last 10 ms, and the terms of its enabled diodes. (R375) -/
def Obligations.ZoneTemperatureAndHeadroom : Prop :=
  (∀ s (z : Fin 16), (∃ n ∈ zoneSensors z, zoneT s z = roRead s n) ∧ (∀ n ∈ zoneSensors z, roRead s n ≤ zoneT s z)) ∧
  (∀ s n, (ro s n).cause ≠ 0 → roRead s n = thrEff s + 10) ∧
  (∀ s, (∃ z < 16, headroom8 s = thrEff s - zoneT s z) ∧ (∀ z < 16, headroom8 s ≤ thrEff s - zoneT s z)) ∧
  (∀ s a own, own = (match (accB s a).statusAt with
      | some t => if now s ≤ t + 10 then 10 * ((rdFld s (R.ACC_TLIM a) 7 0 : Int) - (accB s a).hotC) else 0
      | none => 0) →
    headroomAcc s a ≤ own ∧
    (∀ d < 16, rdBit s (R.RD_CFG d) 31 → rdFld s (R.RD_CFG d) 27 24 = a →
      headroomAcc s a ≤ 10 * (rdFld s (R.RD_CFG d) 23 16 : Int) - diodeRead s d) ∧
    (headroomAcc s a = own ∨ ∃ d < 16, rdBit s (R.RD_CFG d) 31 ∧ rdFld s (R.RD_CFG d) 27 24 = a ∧
      headroomAcc s a = 10 * (rdFld s (R.RD_CFG d) 23 16 : Int) - diodeRead s d))

/-- With a source at temperature t and T0 to T3 ascending: below T0 the curve gives D0, above T3 it gives D3, and between
two adjacent points the least whole percent at or above the linear interpolation. Without a source, or with the T
values not ascending, it gives 0. (R391) -/
def Obligations.FallbackCurve : Prop :=
  (∀ s c, curveSource s c = none → curveDuty s c = 0) ∧
  (∀ s c p, p = curvePoint s c → ¬((p 0).1 < (p 1).1 ∧ (p 1).1 < (p 2).1 ∧ (p 2).1 < (p 3).1) → curveDuty s c = 0) ∧
  (∀ s c t p, curveSource s c = some t → p = curvePoint s c → (p 0).1 < (p 1).1 → (p 1).1 < (p 2).1 → (p 2).1 < (p 3).1 →
    (t < (p 0).1 → curveDuty s c = (p 0).2) ∧ ((p 3).1 < t → curveDuty s c = (p 3).2) ∧
    (∀ i < 3, (p i).1 ≤ t → t ≤ (p (i + 1)).1 →
      ((p i).2 : Int) * ((p (i + 1)).1 - t) + (p (i + 1)).2 * (t - (p i).1)
        ≤ (curveDuty s c : Int) * ((p (i + 1)).1 - (p i).1) ∧
      ((curveDuty s c : Int) - 1) * ((p (i + 1)).1 - (p i).1)
        < ((p i).2 : Int) * ((p (i + 1)).1 - t) + (p (i + 1)).2 * (t - (p i).1)))

/-- An event finds room while fewer than 48 wait, a KEEP event while fewer than 64 do; without room it is lost and counted
in CNT_LOST. Raising events never leaves more than 64 waiting, nor does a commit, which writes one LOST record with
the count once room has returned. (R468) -/
def Obligations.EventQueueHolds : Prop :=
  (∀ e s, s.rcd.queue.length < (if e.keep then 64 else 48) → enqueueEvent e s = { s with rcd.queue := s.rcd.queue ++ [e] }) ∧
  (∀ e s, (if e.keep then 64 else 48) ≤ s.rcd.queue.length →
    enqueueEvent e s = bump R.CNT_LOST { s with rcd.lost := s.rcd.lost + 1 }) ∧
  (∀ e s, s.rcd.queue.length ≤ 64 → (raiseEvent e s).rcd.queue.length ≤ 64) ∧
  (∀ e rest s, s.rcd.queue = e :: rest → s.rcd.queue.length ≤ 64 → (fxCommit e rest s).rcd.queue.length ≤ 64) ∧
  (∀ s, 0 < s.rcd.lost → s.rcd.queue.length < 48 → lostRecord s =
    { s with rcd.lost := 0, rcd.queue := s.rcd.queue ++ [⟨13, 2, 0xFFFF, false, leBytes 4 s.rcd.lost, none⟩] }) ∧
  (∀ s, 0 < s.rcd.lost → 48 ≤ s.rcd.queue.length → lostRecord s = s)

/-- From a recorder that uses at most 3,072 pages, at most 4,096 bytes of the page it writes, at most 4,096 Keep records
and at most 8 coalescer entries, raising an event, committing the record at the head of the queue, and a flush lead to
such a recorder. (R463, R465, R466, R470) -/
def Obligations.RecorderStaysWithinItsMemory : Prop :=
  (∀ s, (s.rcd.page < s.rcd.firstPage + 3072 ∧ s.rcd.used ≤ 4096 ∧ s.rcd.keep.length ≤ 4096 ∧ s.rcd.coal.length ≤ 8) →
    (∀ e, let t := raiseEvent e s
      t.rcd.page < t.rcd.firstPage + 3072 ∧ t.rcd.used ≤ 4096 ∧ t.rcd.keep.length ≤ 4096 ∧ t.rcd.coal.length ≤ 8) ∧
    (∀ e rest, let t := fxCommit e rest s
      t.rcd.page < t.rcd.firstPage + 3072 ∧ t.rcd.used ≤ 4096 ∧ t.rcd.keep.length ≤ 4096 ∧ t.rcd.coal.length ≤ 8) ∧
    (∀ c, let t := fxFlush c s
      t.rcd.page < t.rcd.firstPage + 3072 ∧ t.rcd.used ≤ 4096 ∧ t.rcd.keep.length ≤ 4096 ∧ t.rcd.coal.length ≤ 8))

/-- Issuing an enable appends the rail unless it is journalled already; issuing a disable, and a failure's mark, remove
it. A journal without repeats stays without repeats, and one of rails below 256 then holds at most 256. The end of
strand 0's standby part makes STBY_MARK its length. (R303) -/
def Obligations.JournalKeepsEachRailOnce : Prop :=
  (∀ r s, (enableRail r s).st.journal = if r ∈ s.st.journal then s.st.journal else s.st.journal ++ [r]) ∧
  (∀ r s, (disableRail r s).st.journal = s.st.journal.filter (fun x => x != r)) ∧
  (∀ r cause a s, (markFailed r cause a s).st.journal = s.st.journal.filter (fun x => x != r)) ∧
  (∀ r cause a s, s.st.journal.Nodup → (enableRail r s).st.journal.Nodup ∧ (disableRail r s).st.journal.Nodup ∧
    (markFailed r cause a s).st.journal.Nodup) ∧
  (∀ s : State, s.st.journal.Nodup → (∀ r ∈ s.st.journal, r < 256) → s.st.journal.length ≤ 256) ∧
  (∀ (n : Fin 16) s, strandAt n 0x0 s → (strand s n).standby → ∃ t, exec (.stEnd n) s = .next (settled t) ∧
    t.st.stbyMark = t.st.journal.length)

/-- After bytes are put into tray DRAM, those bytes read back from there; every byte outside the range reads as before;
the memory keeps its canonical form; and nothing but its bytes, and the errors that stood in the words it covers,
changes. Where no word of memory holds an error, a write is exactly that. Reset memory has the form. That a word holds
the errors that were written into it is the model's (log entry 113). (R27, R209, R211) -/
def Obligations.TrayMemoryReadsBack : Prop :=
  (∀ a bs s, dramRead (dramPut a bs s) a bs.length = bs) ∧
  (∀ a bs s x, x < a ∨ a + bs.length ≤ x → dramByte (dramPut a bs s) x = dramByte s x) ∧
  (∀ a bs s, Memory.wf s.mem.data → Memory.wf (dramPut a bs s).mem.data) ∧
  (∀ a bs s, { dramPut a bs s with mem.data := s.mem.data, mem.errs := s.mem.errs } = s) ∧
  (∀ a bs s w, w + 32 ≤ a ∨ a + bs.length ≤ w → (dramPut a bs s).mem.errs.get [] w = s.mem.errs.get [] w) ∧
  (∀ a bs s, s.mem.errs = [] → dramWrite a bs s = dramPut a bs s) ∧ Memory.wf State.reset.mem.data

/-- For an allocatable power c, the whole watts that a split gives the active participants sum to at most c, or to zero
where c is below zero; and where c covers the sum of MIN_W over the active participants, each of them gets at least
its MIN_W. (R352, R353) -/
def Obligations.GrantsStayWithinTheCap : Prop :=
  ∀ (s : State) (c : Frac) (demand : Nat → Nat), 0 < c.d →
    ((((split s c demand).map (fun x => x.2)).sum : Nat) : Int) * c.d ≤ max c.n 0 ∧
    ((((actives s).map (minW s)).sum : Nat) * (c.d : Int) ≤ c.n → ∀ i ∈ actives s, minW s i ≤ shareOf (split s c demand) i)

/-- Accounting the draws of an interval, over open entries of which no two have one request, adds exactly the draws'
direct and allocated energies to the open entries and the UNTICKETED account together, leaves IDLE, and keeps the
entries distinct. A ticket that is stored leaves the part of its energies below 1 nJ to IDLE. (R333, R335, R337) -/
def Obligations.EveryAttojouleIsAccounted : Prop :=
  (∀ (iv : Interval) (ds : List Draw) (alloc : Draw → Int) (u : Draw → Frac) (s t : State),
    (s.meter.opens.map (fun o => o.id)).Nodup → t = ds.foldl (fun a d => account iv d (alloc d) (u d) a) s →
    (t.meter.opens.map (fun o => o.direct + o.alloc)).sum + t.meter.unticketed =
      (s.meter.opens.map (fun o => o.direct + o.alloc)).sum + s.meter.unticketed
        + (ds.map (fun d => d.direct + alloc d)).sum ∧
    t.meter.idle = s.meter.idle ∧ (t.meter.opens.map (fun o => o.id)).Nodup) ∧
  (∀ (o : OpenReq) why s, (storeTicket o why s).meter.idle = s.meter.idle + o.direct % 1000000000 + o.alloc % 1000000000)

/-- A counter register counts by n up to 0xFFFF_FFFF, where it stays; every other register word and everything beyond the
registers is as before. (R247, R370, R423, R493) -/
def Obligations.CountersSaturate : Prop :=
  ∀ (off n : Nat) s, rdN (bumpBy off n s) off = min (rdN s off + n) 0xFFFFFFFF ∧
    (∀ o, o ≠ off → rd (bumpBy off n s) o = rd s o) ∧ { bumpBy off n s with regs := s.regs } = s

/-- An AON trip that is taken leaves no on order held; and SEQUENCING-UP never starts, from any state, without an on order
held and RACK_PERMIT high. (R22) -/
def Obligations.AnAonTripForgetsTheOnOrder : Prop :=
  (∀ z s, s.chip.tray ≠ .off → s.st.phase ≠ 4 → (aonTrip z s).chip.onHeld = false) ∧
  (∀ s, s.chip.onHeld = false ∨ s.chip.permit = false → exec .sequencingUpStart s = .next (settled s))

/-- When the AON island starts, BATCH and TICKET_SEQ become the count of cold resets in bits 63 to 40 with zeros below,
above every number below them that an earlier count gave, and one event records them; a ticket that is stored moves
TICKET_SEQ by exactly one, and BATCH by at most one. (R340) -/
def Obligations.BatchNumbersNeverRepeat : Prop :=
  (∀ s, (batchEvent s).meter.resets = s.meter.resets + 1 ∧ (batchEvent s).meter.seq = (s.meter.resets + 1) % 2 ^ 24 * 2 ^ 40 ∧
    (batchEvent s).meter.batch = (batchEvent s).meter.seq) ∧
  (∀ s, s.meter.resets + 1 < 2 ^ 24 → s.meter.seq < (s.meter.resets + 1) * 2 ^ 40 → s.meter.batch < (s.meter.resets + 1) * 2 ^ 40 →
    s.meter.seq < (batchEvent s).meter.seq ∧ s.meter.batch < (batchEvent s).meter.batch) ∧
  (∀ o why s, (storeTicket o why s).meter.seq = s.meter.seq + 1 ∧
    s.meter.batch ≤ (storeTicket o why s).meter.batch ∧ (storeTicket o why s).meter.batch ≤ s.meter.batch + 1)

/-- While a trip is in force, or the configuration has not loaded the cooling block, or the watchdog has fired, the duty
of every channel is 100 percent, except that a valve closed by the leak response stands at 0 in every case. (R384,
R390) -/
def Obligations.FullCoolingWhileATripIsInForce : Prop :=
  (∀ s c, isValve c && valveClosed s c → (outputDuty s c).1 = 0) ∧
  (∀ s c, (isValve c && valveClosed s c) = false → s.chip.tripForce ∨ s.heat.cfgLoaded = false ∨ s.heat.wdgFired →
    (outputDuty s c).1 = 100) ∧
  (∀ s c, (outputDuty s c).1 ≤ 100)
end

