-- ==== Sys2Proof/Laws/Bytes.lean ====
section
/-! SUPPORT. Little-endian fields: what is laid out as bytes reads back, wherever it stands. -/

namespace Sys2Proof.Machine

@[simp] theorem leBytes_length (k n : Nat) : (leBytes k n).length = k := by
  induction k generalizing n with
  | zero => rfl
  | succ k ih => simp [leBytes, ih]

@[simp] theorem zeros_length (n : Nat) : (zeros n).length = n := by simp [zeros]

@[simp] theorem fix_length (n : Nat) (bs : Bytes) : (fix n bs).length = n := by
  simp [fix]
  omega

theorem leNat_leBytes (k n : Nat) : leNat (leBytes k n) = n % 256 ^ k := by
  induction k generalizing n with
  | zero => simp [leBytes, leNat, Nat.mod_one]
  | succ k ih =>
    rw [leBytes, leNat, ih, BitVec.toNat_ofNat, Nat.pow_succ 256 k, Nat.mul_comm (256 ^ k) 256, Nat.mod_mul]

/-- A field that stands after `a` bytes reads as what was laid out there. -/
theorem leAt_append (a b : Bytes) (o k n : Nat) (h : a.length = o) : leAt (a ++ leBytes k n ++ b) o k = n % 256 ^ k := by
  subst h
  unfold leAt slice
  rw [List.append_assoc, List.drop_left, List.take_left' (leBytes_length k n), leNat_leBytes]

theorem leAt_leBytes (k n : Nat) : leAt (leBytes k n) 0 k = n % 256 ^ k := by
  have h := leAt_append [] [] 0 k n rfl
  rwa [List.nil_append, List.append_nil] at h

theorem leNat_lt (bs : Bytes) : leNat bs < 256 ^ bs.length := by
  induction bs with
  | nil => decide
  | cons b t ih =>
    have := b.isLt
    rw [leNat, List.length_cons, Nat.pow_succ]
    omega

end Sys2Proof.Machine
end

