-- ==== Sys2Proof/Laws/Map.lean ====
section
/-! SUPPORT. The laws of the sparse map: a read after a write, and that every write keeps the canonical form. -/

namespace Sys2Proof.Machine

variable {α : Type}

theorem SMap.get_insert (d : α) (m : SMap α) (k j : Nat) (v : α) :
    SMap.get d (SMap.insert m k v) j = if j = k then v else SMap.get d m j := by
  induction m with
  | nil => simp [SMap.insert, SMap.get, eq_comm]
  | cons e t ih =>
    obtain ⟨k', v'⟩ := e
    unfold SMap.insert
    split
    · simp only [SMap.get]; grind
    · split
      · simp only [SMap.get]; grind
      · simp only [SMap.get, ih]; grind

theorem SMap.get_erase (d : α) (m : SMap α) (k j : Nat) :
    SMap.get d (SMap.erase m k) j = if j = k then d else SMap.get d m j := by
  induction m with
  | nil => simp [SMap.erase, SMap.get]
  | cons e t ih =>
    obtain ⟨k', v'⟩ := e
    unfold SMap.erase at ih ⊢
    by_cases h : k' = k <;> simp [h, ih, SMap.get]
    · grind
    · grind

/-- Reading after a write: the written key holds the value, every other key what it held. -/
@[simp] theorem SMap.get_set [DecidableEq α] (d : α) (m : SMap α) (k j : Nat) (v : α) :
    SMap.get d (SMap.set d m k v) j = if j = k then v else SMap.get d m j := by
  unfold SMap.set
  split
  · rw [SMap.get_erase]; grind
  · rw [SMap.get_insert]

@[simp] theorem SMap.get_nil (d : α) (k : Nat) : SMap.get d [] k = d := rfl

theorem SMap.sorted_cons (k : Nat) (v : α) (t : SMap α) :
    SMap.sorted ((k, v) :: t) = true ↔ (∀ e ∈ t, k < e.1) ∧ SMap.sorted t = true := by
  simp [SMap.sorted]

theorem SMap.mem_insert {m : SMap α} {k : Nat} {v : α} {e : Nat × α} (h : e ∈ SMap.insert m k v) : e = (k, v) ∨ e ∈ m := by
  induction m with
  | nil => simp_all [SMap.insert]
  | cons x t ih =>
    obtain ⟨k', v'⟩ := x
    unfold SMap.insert at h
    split at h
    · simp_all only [List.mem_cons]; rcases h with h | h <;> simp [h]
    · split at h
      · simp_all only [List.mem_cons]
      · simp only [List.mem_cons] at h ⊢
        rcases h with h | h
        · simp [h]
        · rcases ih h with h | h <;> simp [h]

theorem SMap.sorted_insert {m : SMap α} (h : SMap.sorted m = true) (k : Nat) (v : α) :
    SMap.sorted (SMap.insert m k v) = true := by
  induction m with
  | nil => simp [SMap.insert, SMap.sorted]
  | cons x t ih =>
    obtain ⟨k', v'⟩ := x
    rw [SMap.sorted_cons] at h
    unfold SMap.insert
    split
    · rename_i hk
      subst hk
      rw [SMap.sorted_cons]; exact h
    · split
      · rw [SMap.sorted_cons, SMap.sorted_cons]
        refine ⟨fun e he => ?_, h⟩
        simp only [List.mem_cons] at he
        rcases he with rfl | he
        · assumption
        · have := h.1 e he; omega
      · rw [SMap.sorted_cons]
        refine ⟨fun e he => ?_, ih h.2⟩
        rcases SMap.mem_insert he with rfl | he
        · simp only; omega
        · exact h.1 e he

theorem SMap.sorted_filter {m : SMap α} (h : SMap.sorted m = true) (p : Nat × α → Bool) : SMap.sorted (m.filter p) = true := by
  induction m with
  | nil => simpa using h
  | cons x t ih =>
    obtain ⟨k, v⟩ := x
    rw [SMap.sorted_cons] at h
    by_cases hp : p (k, v)
    · rw [List.filter_cons_of_pos hp, SMap.sorted_cons]
      exact ⟨fun e he => h.1 e ((List.mem_filter.mp he).1), ih h.2⟩
    · rw [List.filter_cons_of_neg hp]; exact ih h.2

theorem SMap.wf_iff [DecidableEq α] (d : α) (m : SMap α) :
    SMap.wf d m = true ↔ SMap.sorted m = true ∧ ∀ e ∈ m, e.2 ≠ d := by
  simp [SMap.wf]

theorem SMap.wf_set [DecidableEq α] {d : α} {m : SMap α} (h : SMap.wf d m = true) (k : Nat) (v : α) :
    SMap.wf d (SMap.set d m k v) = true := by
  rw [SMap.wf_iff] at h ⊢
  unfold SMap.set
  split
  · exact ⟨SMap.sorted_filter h.1 _, fun e he => h.2 e ((List.mem_filter.mp he).1)⟩
  · refine ⟨SMap.sorted_insert h.1 _ _, fun e he => ?_⟩
    rcases SMap.mem_insert he with rfl | he
    · assumption
    · exact h.2 e he

theorem SMap.wf_upd [DecidableEq α] {d : α} {m : SMap α} (h : SMap.wf d m = true) (k : Nat) (f : α → α) :
    SMap.wf d (SMap.upd d m k f) = true := SMap.wf_set h _ _

theorem SMap.wf_filter [DecidableEq α] {d : α} {m : SMap α} (h : SMap.wf d m = true) (p : Nat × α → Bool) :
    SMap.wf d (m.filter p) = true := by
  rw [SMap.wf_iff] at h ⊢
  exact ⟨SMap.sorted_filter h.1 _, fun e he => h.2 e ((List.mem_filter.mp he).1)⟩

/-- In canonical form, equal contents are equal data. -/
theorem SMap.ext_of_wf [DecidableEq α] {d : α} {m n : SMap α} (hm : SMap.wf d m = true) (hn : SMap.wf d n = true)
    (h : ∀ k, SMap.get d m k = SMap.get d n k) : m = n := by
  have hlow {t : SMap α} {k : Nat} (hlt : ∀ e ∈ t, k < e.1) {j : Nat} (hj : j ≤ k) : SMap.get d t j = d := by
    induction t with
    | nil => rfl
    | cons e t ih =>
      obtain ⟨k', v'⟩ := e
      have h1 := hlt (k', v') (by simp)
      simp only at h1
      rw [SMap.get, if_neg (by omega)]
      exact ih (fun e he => hlt e (by simp [he]))
  rw [SMap.wf_iff] at hm hn
  induction m generalizing n with
  | nil =>
    cases n with
    | nil => rfl
    | cons e t =>
      have := h e.1
      have h2 := hn.2 e (by simp)
      simp [SMap.get] at this
      exact absurd this.symm h2
  | cons e t ih =>
    obtain ⟨k, v⟩ := e
    have hv := hm.2 (k, v) (by simp)
    rw [SMap.sorted_cons] at hm
    cases n with
    | nil =>
      have := h k
      simp [SMap.get] at this
      exact absurd this hv
    | cons e' t' =>
      obtain ⟨k', v'⟩ := e'
      have hv' := hn.2 (k', v') (by simp)
      rw [SMap.sorted_cons] at hn
      have hk : k = k' := by
        rcases Nat.lt_trichotomy k k' with hk | hk | hk
        · have := h k
          rw [SMap.get, if_pos rfl, SMap.get, if_neg (by omega), hlow hn.1.1 (by omega)] at this
          exact absurd this hv
        · exact hk
        · have := h k'
          rw [SMap.get, if_neg (by omega), hlow hm.1.1 (by omega), SMap.get, if_pos rfl] at this
          exact absurd this.symm hv'
      subst hk
      have h1 := h k
      simp [SMap.get] at h1
      subst h1
      congr 1
      refine ih ⟨hm.1.2, fun e he => hm.2 e (by simp [he])⟩ ⟨hn.1.2, fun e he => hn.2 e (by simp [he])⟩ (fun j => ?_)
      have h2 := h j
      simp only [SMap.get] at h2
      by_cases hj : k = j
      · subst hj
        rw [hlow hm.1.1 (Nat.le_refl _), hlow hn.1.1 (Nat.le_refl _)]
      · simpa [hj] using h2

end Sys2Proof.Machine
end

