-- ==== Sys2Proof/Laws/Lasting.lean ====
section
/-! SUPPORT. What almost no command touches: for each function of the model, that it leaves the lasting values alone; and
for those that do not, which way they move. -/

set_option linter.unusedTactic false
set_option linter.unreachableTactic false

namespace Sys2Proof.Machine

/-- What almost no command touches. -/
structure Lasting where
  pending : List Instr
  optime : Nat
  powerCycles : Nat
  svnFloor : SMap Nat
  vcoreEff : Nat
  iclkEff : Nat
  tjEff : Nat
  epoch : Nat
  unlocked : Bool

def lasting (s : State) : Lasting :=
  ⟨s.pending, s.aon.optime, s.aon.powerCycles, s.aon.svnFloor, s.aon.vcoreEff, s.aon.iclkEff, s.aon.tjEff, s.sec.epoch,
   s.sec.debugUnlocked⟩

@[simp] theorem lasting_mk (pending fresh regs chip aon sec rcd cfg flash st tw mem time press meter heat budget assure ports torus su
    mbx mctpOut longs) :
    lasting (State.mk pending fresh regs chip aon sec rcd cfg flash st tw mem time press meter heat budget assure ports torus su
      mbx mctpOut longs) = ⟨pending, aon.optime, aon.powerCycles, aon.svnFloor, aon.vcoreEff, aon.iclkEff, aon.tjEff,
      sec.epoch, sec.debugUnlocked⟩ := rfl

@[simp] theorem lasting_fold (s : State) : (Lasting.mk s.pending s.aon.optime s.aon.powerCycles s.aon.svnFloor s.aon.vcoreEff
    s.aon.iclkEff s.aon.tjEff s.sec.epoch s.sec.debugUnlocked) = lasting s := rfl

@[simp] theorem lasting_ite {c : Prop} [Decidable c] (a b : State) : lasting (if c then a else b) = if c then lasting a else lasting b := by
  split <;> rfl

@[simp] theorem lasting_foldl {α : Type} (f : State → α → State) (h : ∀ s x, lasting (f s x) = lasting s) (xs : List α) (s : State) :
    lasting (xs.foldl f s) = lasting s := by
  induction xs generalizing s with
  | nil => rfl
  | cons x t ih => rw [List.foldl_cons, ih, h]

/-! Ops.lean -/

@[simp] theorem wr_lasts (off : Nat) (v : W32) (s : State) :
    lasting (wr off v s) = lasting s := by
  simp [wr]

@[simp] theorem setBits_lasts (off : Nat) (m : Nat) (s : State) :
    lasting (setBits off m s) = lasting s := by
  simp [setBits]

@[simp] theorem clrBits_lasts (off : Nat) (m : Nat) (s : State) :
    lasting (clrBits off m s) = lasting s := by
  simp [clrBits]

@[simp] theorem wrFld_lasts (off hi lo v : Nat) (s : State) :
    lasting (wrFld off hi lo v s) = lasting s := by
  simp [wrFld]

@[simp] theorem bumpBy_lasts (off n : Nat) (s : State) :
    lasting (bumpBy off n s) = lasting s := by
  simp [bumpBy]

@[simp] theorem bump_lasts (off : Nat) (s : State) :
    lasting (bump off s) = lasting s := by
  simp [bump]

@[simp] theorem dropRegs_lasts (p : Nat → Bool) (s : State) :
    lasting (dropRegs p s) = lasting s := by
  simp [dropRegs]

@[simp] theorem applyReg_lasts (e : RegEntry) (s : State) :
    lasting (applyReg e s) = lasting s := by
  simp [applyReg]

@[simp] theorem loadRegs_lasts (p : Nat → Bool) (s : State) :
    lasting (loadRegs p s) = lasting s := by
  simp [loadRegs]

@[simp] theorem takeFresh_lasts (s : State) :
    lasting (takeFresh s) = lasting s := by
  simp [takeFresh]

@[simp] theorem enqueueEvent_lasts (e : Ev) (s : State) :
    lasting (enqueueEvent e s) = lasting s := by
  simp [enqueueEvent]

@[simp] theorem raiseEvent_lasts (e : Ev) (s : State) :
    lasting (raiseEvent e s) = lasting s := by
  simp [raiseEvent]

@[simp] theorem raise_lasts (cls code inst : Nat) (data : Bytes) (s : State) :
    lasting (raise cls code inst data s) = lasting s := by
  simp [raise]

@[simp] theorem sendFrame_lasts (f : Frame) (s : State) :
    lasting (sendFrame f s) = lasting s := by
  simp [sendFrame]

@[simp] theorem emitNotice_lasts (kind : Nat) (n : Notice) (s : State) :
    lasting (emitNotice kind n s) = lasting s := by
  simp [emitNotice]

@[simp] theorem notice_lasts (kind arg status value : Nat) (s : State) :
    lasting (notice kind arg status value s) = lasting s := by
  simp [notice]

@[simp] theorem sendPending_lasts (ks : List Nat) (s : State) :
    lasting (sendPending ks s) = lasting s := by
  induction ks generalizing s <;> unfold sendPending <;> (repeat' (first | (simp_all; done) | split | (refine (lasting_foldl _ ?_ _ _).trans ?_) | intro _ _ | dsimp only | simp only [lasting_mk, lasting_fold] | simp))

@[simp] theorem setPort_lasts (k : Nat) (f : Port → Port) (s : State) :
    lasting (setPort k f s) = lasting s := by
  simp [setPort]

@[simp] theorem sendFlits_lasts (k : Nat) (fs : List Flit) (s : State) :
    lasting (sendFlits k fs s) = lasting s := by
  simp [sendFlits]

@[simp] theorem takeInbox_lasts (k cls typ : Nat) (payload : Bytes) (s : State) :
    lasting (takeInbox k cls typ payload s) = lasting s := by
  simp [takeInbox]

@[simp] theorem takeCtrl_lasts (k kind : Nat) (payload : Bytes) (s : State) :
    lasting (takeCtrl k kind payload s) = lasting s := by
  simp [takeCtrl]

@[simp] theorem sendCtrl_lasts (k kind : Nat) (payload : Bytes) (s : State) :
    lasting (sendCtrl k kind payload s) = lasting s := by
  simp [sendCtrl]

@[simp] theorem passAcc_lasts (a : Nat) (rsp : Bool) (m : Msg) (s : State) :
    lasting (passAcc a rsp m s) = lasting s := by
  simp [passAcc]

@[simp] theorem sendAcc_lasts (a : Nat) (rsp : Bool) (m : Msg) (s : State) :
    lasting (sendAcc a rsp m s) = lasting s := by
  simp [sendAcc]

/-! TwOps.lean -/

@[simp] theorem twGo_lasts (n st : Nat) (s : State) :
    lasting (twGo n st s) = lasting s := by
  simp [twGo]

@[simp] theorem twLines_lasts (n : Nat) (scl sda rst : Bool) (s : State) :
    lasting (twLines n scl sda rst s) = lasting s := by
  simp [twLines]

@[simp] theorem setTw_lasts (n : Nat) (f : TwPort → TwPort) (s : State) :
    lasting (setTw n f s) = lasting s := by
  simp [setTw]

@[simp] theorem twServe_lasts (n : Nat) (s : State) :
    lasting (twServe n s) = lasting s := by
  unfold twServe
  repeat' (first | (simp_all; done) | split | (refine (lasting_foldl _ ?_ _ _).trans ?_) | intro _ _ | dsimp only | simp only [lasting_mk, lasting_fold] | simp)

@[simp] theorem twEngine_lasts (n : Nat) (r : TwReq) (s : State) :
    lasting (twEngine n r s) = lasting s := by
  simp [twEngine]

@[simp] theorem twCoreEnd_lasts (n result count : Nat) (s : State) :
    lasting (twCoreEnd n result count s) = lasting s := by
  simp [twCoreEnd]

@[simp] theorem offRequests_lasts (n : Nat) (s : State) :
    lasting (offRequests n s) = lasting s := by
  simp [offRequests]

@[simp] theorem twFree_lasts (n : Nat) (s : State) :
    lasting (twFree n s) = lasting s := by
  simp [twFree]

@[simp] theorem twRecover_lasts (n : Nat) (s : State) :
    lasting (twRecover n s) = lasting s := by
  simp [twRecover]

@[simp] theorem twPowerDown_lasts (s : State) :
    lasting (twPowerDown s) = lasting s := by
  simp [twPowerDown]

@[simp] theorem wrBytes_lasts (off i : Nat) (bs : Bytes) (s : State) :
    lasting (wrBytes off i bs s) = lasting s := by
  induction bs generalizing off i s <;> unfold wrBytes <;> (repeat' (first | (simp_all; done) | split | (refine (lasting_foldl _ ?_ _ _).trans ?_) | intro _ _ | dsimp only | simp only [lasting_mk, lasting_fold] | simp))

/-! Route.lean -/

theorem sendNode_lasts {rsp : Bool} {m : Msg} {s : State} (t0 : State) (h0 : sendNode rsp m s = some t0) :
    lasting t0 = lasting s := by
  unfold sendNode at h0
  repeat' (first | (simp at h0; done) | split at h0 | (cases h0) | dsimp only at h0 | (simp_all; done) | split | (refine (lasting_foldl _ ?_ _ _).trans ?_) | intro _ _ | dsimp only | simp only [lasting_mk, lasting_fold] | simp)

@[simp] theorem sendNodeOrCount_lasts (rsp : Bool) (m : Msg) (s : State) :
    lasting (sendNodeOrCount rsp m s) = lasting s := by
  unfold sendNodeOrCount
  repeat' (first | (simp_all; done) | (have hh := sendNode_lasts _ (by assumption); simp_all; done) | split | (refine (lasting_foldl _ ?_ _ _).trans ?_) | intro _ _ | dsimp only | simp only [lasting_mk, lasting_fold] | simp)

/-! Mailbox.lean -/

@[simp] theorem setMb_lasts (n : Nat) (f : Mailbox → Mailbox) (s : State) :
    lasting (setMb n f s) = lasting s := by
  simp [setMb]

@[simp] theorem mbIdle_lasts (n : Nat) (s : State) :
    lasting (mbIdle n s) = lasting s := by
  simp [mbIdle]

@[simp] theorem writeReply_lasts (n : Nat) (bytes : Bytes) (s : State) :
    lasting (writeReply n bytes s) = lasting s := by
  simp [writeReply]

@[simp] theorem reply_lasts (n st : Nat) (payload : Bytes) (s : State) :
    lasting (reply n st payload s) = lasting s := by
  simp [reply]

@[simp] theorem replyFail_lasts (n st off reason : Nat) (s : State) :
    lasting (replyFail n st off reason s) = lasting s := by
  simp [replyFail]

@[simp] theorem acceptLong_lasts (kind : LongKind) (n : Nat) (s : State) :
    lasting (acceptLong kind n s) = lasting s := by
  simp [acceptLong]

@[simp] theorem endLong_lasts (l : Long) (st : Nat) (payload : Bytes) (s : State) :
    lasting (endLong l st payload s) = lasting s := by
  simp [endLong]

@[simp] theorem finishLongs_lasts (p : LongKind → Bool) (st : Nat) (payload : Bytes) (s : State) :
    lasting (finishLongs p st payload s) = lasting s := by
  simp [finishLongs]

@[simp] theorem finishLong_lasts (k : LongKind) (st : Nat) (payload : Bytes) (s : State) :
    lasting (finishLong k st payload s) = lasting s := by
  simp [finishLong]

/-! PortOps.lean -/

@[simp] theorem captureErr_lasts (bit a : Nat) (s : State) :
    lasting (captureErr bit a s) = lasting s := by
  simp [captureErr]

@[simp] theorem decodeError_lasts (a : Nat) (s : State) :
    lasting (decodeError a s) = lasting s := by
  simp [decodeError]

@[simp] theorem absentError_lasts (a : Nat) (s : State) :
    lasting (absentError a s) = lasting s := by
  simp [absentError]

@[simp] theorem absentWrite_lasts (m a : Nat) (s : State) :
    lasting (absentWrite m a s) = lasting s := by
  simp [absentWrite]

@[simp] theorem hostErr_lasts (tag status : Nat) (s : State) :
    lasting (hostErr tag status s) = lasting s := by
  simp [hostErr]

@[simp] theorem respond_lasts (k : Nat) (m : Msg) (s : State) :
    lasting (respond k m s) = lasting s := by
  simp [respond]

@[simp] theorem answerErr_lasts (o : Owner) (status : Nat) (s : State) :
    lasting (answerErr o status s) = lasting s := by
  unfold answerErr
  repeat' (first | (simp_all; done) | split | (refine (lasting_foldl _ ?_ _ _).trans ?_) | intro _ _ | dsimp only | simp only [lasting_mk, lasting_fold] | simp)

@[simp] theorem remoteAbsent_lasts (r : Remote) (status : Nat) (s : State) :
    lasting (remoteAbsent r status s) = lasting s := by
  simp [remoteAbsent]

@[simp] theorem issueNow_lasts (q : Remote) (s : State) :
    lasting (issueNow q s) = lasting s := by
  unfold issueNow
  repeat' (first | (simp_all; done) | (have hh := sendNode_lasts _ (by assumption); simp_all; done) | split | (refine (lasting_foldl _ ?_ _ _).trans ?_) | intro _ _ | dsimp only | simp only [lasting_mk, lasting_fold] | simp)

@[simp] theorem issueRemote_lasts (port : Nat) (write : Bool) (dst win addr len : Nat) (data : Bytes) (o : Owner) (s : State) :
    lasting (issueRemote port write dst win addr len data o s) = lasting s := by
  simp [issueRemote]

@[simp] theorem pumpRemotes_lasts (ws : List Remote) (s : State) :
    lasting (pumpRemotes ws s) = lasting s := by
  induction ws generalizing s <;> unfold pumpRemotes <;> (repeat' (first | (simp_all; done) | split | (refine (lasting_foldl _ ?_ _ _).trans ?_) | intro _ _ | dsimp only | simp only [lasting_mk, lasting_fold] | simp))

@[simp] theorem flood_lasts (k l : Nat) (s : State) :
    lasting (flood k l s) = lasting s := by
  simp [flood]

@[simp] theorem setLink_lasts (l : Nat) (e : LinkEntry) (s : State) :
    lasting (setLink l e s) = lasting s := by
  simp [setLink]

@[simp] theorem ownLink_lasts (k : Nat) (up : Bool) (s : State) :
    lasting (ownLink k up s) = lasting s := by
  simp [ownLink]

@[simp] theorem unreachable_lasts (dst tag : Nat) (s : State) :
    lasting (unreachable dst tag s) = lasting s := by
  simp [unreachable]

@[simp] theorem fwdFails_lasts (tag : Nat) (s : State) :
    lasting (fwdFails tag s) = lasting s := by
  unfold fwdFails
  repeat' (first | (simp_all; done) | split | (refine (lasting_foldl _ ?_ _ _).trans ?_) | intro _ _ | dsimp only | simp only [lasting_mk, lasting_fold] | simp)

@[simp] theorem ownFails_lasts (cls tag : Nat) (s : State) :
    lasting (ownFails cls tag s) = lasting s := by
  simp [ownFails]

@[simp] theorem loseMessage_lasts (k : Nat) (f : Flit) (s : State) :
    lasting (loseMessage k f s) = lasting s := by
  unfold loseMessage
  repeat' (first | (simp_all; done) | split | (refine (lasting_foldl _ ?_ _ _).trans ?_) | intro _ _ | dsimp only | simp only [lasting_mk, lasting_fold] | simp)

@[simp] theorem loseRemotes_lasts (k : Nat) (s : State) :
    lasting (loseRemotes k s) = lasting s := by
  simp [loseRemotes]

@[simp] theorem lanesLost_lasts (k : Nat) (s : State) :
    lasting (lanesLost k s) = lasting s := by
  simp [lanesLost]

@[simp] theorem halfReceived_lasts (k : Nat) (p : Port) (s : State) :
    lasting (halfReceived k p s) = lasting s := by
  simp [halfReceived]

@[simp] theorem portLose_lasts (k : Nat) (s : State) :
    lasting (portLose k s) = lasting s := by
  simp [portLose]

@[simp] theorem seamFails_lasts (k : Nat) (s : State) :
    lasting (seamFails k s) = lasting s := by
  simp [seamFails]

@[simp] theorem portGo_lasts (k : Nat) (st : PortSt) (s : State) :
    lasting (portGo k st s) = lasting s := by
  simp [portGo]

@[simp] theorem portDown_lasts (k : Nat) (s : State) :
    lasting (portDown k s) = lasting s := by
  simp [portDown]

@[simp] theorem portStart_lasts (k : Nat) (s : State) :
    lasting (portStart k s) = lasting s := by
  simp [portStart]

@[simp] theorem portPowerUp_lasts (k : Nat) (s : State) :
    lasting (portPowerUp k s) = lasting s := by
  simp [portPowerUp]

@[simp] theorem portPowerDown_lasts (k : Nat) (s : State) :
    lasting (portPowerDown k s) = lasting s := by
  simp [portPowerDown]

@[simp] theorem releaseSeams_lasts (s : State) :
    lasting (releaseSeams s) = lasting s := by
  simp [releaseSeams]

/-! Time.lean -/

@[simp] theorem clockChanges_lasts (backup : Bool) (s : State) :
    lasting (clockChanges backup s) = lasting s := by
  simp [clockChanges]

@[simp] theorem decideStep_lasts (by_ : Int) (s : State) :
    lasting (decideStep by_ s) = lasting s := by
  simp [decideStep]

@[simp] theorem correctTime_lasts (offset : Int) (s : State) :
    lasting (correctTime offset s) = lasting s := by
  simp [correctTime]

@[simp] theorem beginHoldover_lasts (s : State) :
    lasting (beginHoldover s) = lasting s := by
  simp [beginHoldover]

@[simp] theorem settleTime_lasts (s : State) :
    lasting (settleTime s) = lasting s := by
  simp [settleTime]

/-! SuOps.lean -/

@[simp] theorem hostReqAbsent_lasts (r : HostReq) (s : State) :
    lasting (hostReqAbsent r s) = lasting s := by
  unfold hostReqAbsent
  repeat' (first | (simp_all; done) | split | (refine (lasting_foldl _ ?_ _ _).trans ?_) | intro _ _ | dsimp only | simp only [lasting_mk, lasting_fold] | simp)

@[simp] theorem sendRequest_lasts (q : HostReq) (s : State) :
    lasting (sendRequest q s) = lasting s := by
  simp [sendRequest]

@[simp] theorem hostRequest_lasts (op addr len : Nat) (data : Bytes) (o : Owner) (s : State) :
    lasting (hostRequest op addr len data o s) = lasting s := by
  simp [hostRequest]

@[simp] theorem pumpHost_lasts (ws : List HostReq) (s : State) :
    lasting (pumpHost ws s) = lasting s := by
  induction ws generalizing s <;> unfold pumpHost <;> (repeat' (first | (simp_all; done) | split | (refine (lasting_foldl _ ?_ _ _).trans ?_) | intro _ _ | dsimp only | simp only [lasting_mk, lasting_fold] | simp))

@[simp] theorem setLine_lasts (l : Nat) (v : Option Line) (s : State) :
    lasting (setLine l v s) = lasting s := by
  simp [setLine]

@[simp] theorem dropLine_lasts (l : Nat) (s : State) :
    lasting (dropLine l s) = lasting s := by
  simp [dropLine]

@[simp] theorem hlcPending_lasts (l : Nat) (s : State) :
    lasting (hlcPending l s) = lasting s := by
  unfold hlcPending
  repeat' (first | (simp_all; done) | split | (refine (lasting_foldl _ ?_ _ _).trans ?_) | intro _ _ | dsimp only | simp only [lasting_mk, lasting_fold] | simp)

@[simp] theorem hlcTouch_lasts (l : Nat) (s : State) :
    lasting (hlcTouch l s) = lasting s := by
  unfold hlcTouch
  repeat' (first | (simp_all; done) | split | (refine (lasting_foldl _ ?_ _ _).trans ?_) | intro _ _ | dsimp only | simp only [lasting_mk, lasting_fold] | simp)

@[simp] theorem readLines_lasts (l n k : Nat) (o : Nat → Owner) (s : State) :
    lasting (readLines l n k o s) = lasting s := by
  induction k generalizing l n o s <;> unfold readLines <;> (repeat' (first | (simp_all; done) | split | (refine (lasting_foldl _ ?_ _ _).trans ?_) | intro _ _ | dsimp only | simp only [lasting_mk, lasting_fold] | simp))

theorem hostRead_lasts {off len : Nat} {o : Nat → Owner} {s : State} (t0 : State) (y0 : Option Bytes) (h0 : hostRead off len o s = (t0, y0)) :
    lasting t0 = lasting s := by
  unfold hostRead at h0
  repeat' (first | (simp at h0; done) | split at h0 | (cases h0) | dsimp only at h0 | (simp_all; done) | split | (refine (lasting_foldl _ ?_ _ _).trans ?_) | intro _ _ | dsimp only | simp only [lasting_mk, lasting_fold] | simp)

@[simp] theorem hostRead_lasts_fst (off len : Nat) (o : Nat → Owner) (s : State) :
    lasting (hostRead off len o s).1 = lasting s := hostRead_lasts _ _ rfl

@[simp] theorem hostWrite_lasts (off : Nat) (bs : Bytes) (o : Owner) (s : State) :
    lasting (hostWrite off bs o s) = lasting s := by
  unfold hostWrite
  repeat' (first | (simp_all; done) | split | (refine (lasting_foldl _ ?_ _ _).trans ?_) | intro _ _ | dsimp only | simp only [lasting_mk, lasting_fold] | simp)

@[simp] theorem setHlcActive_lasts (v : Bool) (s : State) :
    lasting (setHlcActive v s) = lasting s := by
  simp [setHlcActive]

@[simp] theorem hlcDisable_lasts (s : State) :
    lasting (hlcDisable s) = lasting s := by
  unfold hlcDisable
  repeat' (first | (simp_all; done) | split | (refine (lasting_foldl _ ?_ _ _).trans ?_) | intro _ _ | dsimp only | simp only [lasting_mk, lasting_fold] | simp)

@[simp] theorem hlcEnable_lasts (holders : List Nat) (s : State) :
    lasting (hlcEnable holders s) = lasting s := by
  simp [hlcEnable]

@[simp] theorem hostVersions_lasts (s : State) :
    lasting (hostVersions s) = lasting s := by
  simp [hostVersions]

@[simp] theorem hostLost_lasts (s : State) :
    lasting (hostLost s) = lasting s := by
  simp [hostLost]

@[simp] theorem suGo_lasts (st : PortSt) (s : State) :
    lasting (suGo st s) = lasting s := by
  simp [suGo]

@[simp] theorem noticesWait_lasts (fs : List Frame) (s : State) :
    lasting (noticesWait fs s) = lasting s := by
  simp [noticesWait]

@[simp] theorem suLeave_lasts (st : PortSt) (s : State) :
    lasting (suLeave st s) = lasting s := by
  simp [suLeave]

@[simp] theorem suStart_lasts (s : State) :
    lasting (suStart s) = lasting s := by
  simp [suStart]

@[simp] theorem suPowerUp_lasts (s : State) :
    lasting (suPowerUp s) = lasting s := by
  simp [suPowerUp]

@[simp] theorem suPowerDown_lasts (s : State) :
    lasting (suPowerDown s) = lasting s := by
  simp [suPowerDown]

/-! Access.lean -/

@[simp] theorem coreDownSet_lasts (k : Nat) (s : State) :
    lasting (coreDownSet k s) = lasting s := by
  simp [coreDownSet]

@[simp] theorem violate_lasts (m a n : Nat) (write : Bool) (s : State) :
    lasting (violate m a n write s) = lasting s := by
  simp [violate]

@[simp] theorem dramPut_lasts (a : Nat) (bs : Bytes) (s : State) :
    lasting (dramPut a bs s) = lasting s := by
  simp [dramPut]

@[simp] theorem setStack_lasts (q : Nat) (f : Stack → Stack) (s : State) :
    lasting (setStack q f s) = lasting s := by
  simp [setStack]

@[simp] theorem countLane_lasts (q j : Nat) (s : State) :
    lasting (countLane q j s) = lasting s := by
  simp [countLane]

@[simp] theorem wordCorrected_lasts (a : Nat) (w : Bytes) (bytes : List Nat) (s : State) :
    lasting (wordCorrected a w bytes s) = lasting s := by
  simp [wordCorrected]

@[simp] theorem wordLost_lasts (a reader : Nat) (w : Bytes) (s0 : State) :
    lasting (wordLost a reader w s0) = lasting s0 := by
  simp [wordLost]

theorem readWord_lasts {a reader : Nat} {e1 e2 : Bytes} {s : State} (t0 : State) (y0 : Bool) (h0 : readWord a reader e1 e2 s = (t0, y0)) :
    lasting t0 = lasting s := by
  unfold readWord at h0
  repeat' (first | (simp at h0; done) | split at h0 | (cases h0) | dsimp only at h0 | (simp_all; done) | split | (refine (lasting_foldl _ ?_ _ _).trans ?_) | intro _ _ | dsimp only | simp only [lasting_mk, lasting_fold] | simp)

@[simp] theorem readWord_lasts_fst (a reader : Nat) (e1 e2 : Bytes) (s : State) :
    lasting (readWord a reader e1 e2 s).1 = lasting s := readWord_lasts _ _ rfl

theorem badWords_keeps (w : State × List Nat → Nat → State × List Nat) (s : State)
    (h : ∀ x i, lasting (w x i).1 = lasting x.1) (l : List Nat) (x : State × List Nat) (hx : lasting x.1 = lasting s) :
    lasting (l.foldl w x).1 = lasting s := by
  induction l generalizing x with
  | nil => exact hx
  | cons i t ih => exact ih _ ((h x i).trans hx)
@[simp] theorem dramLoad_lasts_fst (reader a n : Nat) (s : State) : lasting (dramLoad reader a n s).1 = lasting s := by
  unfold dramLoad
  exact badWords_keeps _ _ (fun x w => readWord_lasts_fst w reader [] [] x.1) _ _ rfl
theorem dramLoad_lasts {reader a n : Nat} {s : State} (t0 : State) (y0 : List Nat) (h0 : dramLoad reader a n s = (t0, y0)) :
    lasting t0 = lasting s := by
  rw [← dramLoad_lasts_fst reader a n s, h0]

@[simp] theorem dramWrite_lasts (a : Nat) (bs : Bytes) (s : State) :
    lasting (dramWrite a bs s) = lasting s := by
  simp [dramWrite]

@[simp] theorem writeError_lasts (m : Nat) (s : State) :
    lasting (writeError m s) = lasting s := by
  simp [writeError]

theorem writePart_lasts {a lo : Nat} {bs e : Bytes} {s : State} (t0 : State) (y0 : Bool) (h0 : writePart a lo bs e s = (t0, y0)) :
    lasting t0 = lasting s := by
  unfold writePart at h0
  repeat' (first | (simp at h0; done) | split at h0 | (cases h0) | dsimp only at h0 | (simp_all; done) | (have hh := readWord_lasts _ _ (by assumption); simp_all; done) | split | (refine (lasting_foldl _ ?_ _ _).trans ?_) | intro _ _ | dsimp only | simp only [lasting_mk, lasting_fold] | simp)

@[simp] theorem writePart_lasts_fst (a lo : Nat) (bs e : Bytes) (s : State) :
    lasting (writePart a lo bs e s).1 = lasting s := writePart_lasts _ _ rfl

@[simp] theorem writeWords_lasts_fst (n a : Nat) (bs e : Bytes) (s : State) : lasting (writeWords n a bs e s).1 = lasting s := by
  induction n generalizing a bs s with
  | zero => rfl
  | succ k ih =>
    unfold writeWords
    split
    · rfl
    · dsimp only
      rw [ih, writePart_lasts_fst]
theorem writeWords_lasts {n a : Nat} {bs e : Bytes} {s : State} (t0 : State) (y0 : Bool) (h0 : writeWords n a bs e s = (t0, y0)) :
    lasting t0 = lasting s := by
  rw [← writeWords_lasts_fst n a bs e s, h0]

/-! HeatOps.lean -/

@[simp] theorem setAcc_lasts (a : Nat) (f : AccB → AccB) (s : State) :
    lasting (setAcc a f s) = lasting s := by
  simp [setAcc]

@[simp] theorem setLoop_lasts (l : Nat) (f : LeakLoop → LeakLoop) (s : State) :
    lasting (setLoop l f s) = lasting s := by
  simp [setLoop]

@[simp] theorem setOutput_lasts (s : State) (c : Nat) :
    lasting (setOutput s c) = lasting s := by
  simp [setOutput]

@[simp] theorem setOutputs_lasts (s : State) :
    lasting (setOutputs s) = lasting s := by
  simp [setOutputs]

/-! PressOps.lean -/

@[simp] theorem setCl_lasts (c : Nat) (f : Cluster → Cluster) (s : State) :
    lasting (setCl c f s) = lasting s := by
  simp [setCl]

@[simp] theorem setIron_lasts (g : Nat) (f : Iron → Iron) (s : State) :
    lasting (setIron g f s) = lasting s := by
  simp [setIron]

@[simp] theorem setIrons_lasts (c : Nat) (f : Iron → Iron) (s : State) :
    lasting (setIrons c f s) = lasting s := by
  simp [setIrons]

@[simp] theorem setPlan_lasts (id : Nat) (f : Plan → Plan) (s : State) :
    lasting (setPlan id f s) = lasting s := by
  simp [setPlan]

@[simp] theorem extWrite_lasts (c a : Nat) (bs : Bytes) (s : State) :
    lasting (extWrite c a bs s) = lasting s := by
  simp [extWrite]

@[simp] theorem extDrop_lasts (c : Nat) (s : State) :
    lasting (extDrop c s) = lasting s := by
  simp [extDrop]

@[simp] theorem localAbsent_lasts (c m a n : Nat) (write : Bool) (bs : Bytes) (s : State) :
    lasting (localAbsent c m a n write bs s) = lasting s := by
  simp [localAbsent]

@[simp] theorem pressReadPiece_lasts (c m a n : Nat) (s : State) :
    lasting (pressReadPiece c m a n s) = lasting s := by
  unfold pressReadPiece
  repeat' (first | (simp_all; done) | (have hh := hostRead_lasts _ _ (by assumption); simp_all; done) | (have hh := dramLoad_lasts _ _ (by assumption); simp_all; done) | split | (refine (lasting_foldl _ ?_ _ _).trans ?_) | intro _ _ | dsimp only | simp only [lasting_mk, lasting_fold] | simp)

@[simp] theorem pressRead_lasts (c a n : Nat) (s : State) :
    lasting (pressRead c a n s) = lasting s := by
  simp [pressRead]

@[simp] theorem pressWrite_lasts (c m a : Nat) (bs : Bytes) (s : State) :
    lasting (pressWrite c m a bs s) = lasting s := by
  unfold pressWrite
  repeat' (first | (simp_all; done) | split | (refine (lasting_foldl _ ?_ _ _).trans ?_) | intro _ _ | dsimp only | simp only [lasting_mk, lasting_fold] | simp)

@[simp] theorem engineWrite_lasts (a : Nat) (bs : Bytes) (s : State) :
    lasting (engineWrite a bs s) = lasting s := by
  simp [engineWrite]

@[simp] theorem pumpReads_lasts (rs : List IronRead) (s : State) :
    lasting (pumpReads rs s) = lasting s := by
  induction rs generalizing s <;> unfold pumpReads <;> (repeat' (first | (simp_all; done) | split | (refine (lasting_foldl _ ?_ _ _).trans ?_) | intro _ _ | dsimp only | simp only [lasting_mk, lasting_fold] | simp))

@[simp] theorem ironRead_lasts (c g a n : Nat) (s : State) :
    lasting (ironRead c g a n s) = lasting s := by
  simp [ironRead]

@[simp] theorem disown_lasts (c : Nat) (s : State) :
    lasting (disown c s) = lasting s := by
  simp [disown]

@[simp] theorem releaseCluster_lasts (c : Nat) (s : State) :
    lasting (releaseCluster c s) = lasting s := by
  simp [releaseCluster]

@[simp] theorem unloadPlan_lasts (id : Nat) (s : State) :
    lasting (unloadPlan id s) = lasting s := by
  unfold unloadPlan
  repeat' (first | (simp_all; done) | split | (refine (lasting_foldl _ ?_ _ _).trans ?_) | intro _ _ | dsimp only | simp only [lasting_mk, lasting_fold] | simp)

@[simp] theorem endPlan_lasts (id : Nat) (st : PlanSt) (reason : Nat) (s : State) :
    lasting (endPlan id st reason s) = lasting s := by
  simp [endPlan]

@[simp] theorem refusePlan_lasts (id status : Nat) (s : State) :
    lasting (refusePlan id status s) = lasting s := by
  simp [refusePlan]

@[simp] theorem requeuePlan_lasts (id : Nat) (s : State) :
    lasting (requeuePlan id s) = lasting s := by
  simp [requeuePlan]

@[simp] theorem latchFault_lasts (c bit unit i : Nat) (s : State) :
    lasting (latchFault c bit unit i s) = lasting s := by
  simp [latchFault]

@[simp] theorem startSelftest_lasts (c : Nat) (s : State) :
    lasting (startSelftest c s) = lasting s := by
  simp [startSelftest]

@[simp] theorem stopPlan_lasts (id : Nat) (s : State) :
    lasting (stopPlan id s) = lasting s := by
  unfold stopPlan
  repeat' (first | (simp_all; done) | split | (refine (lasting_foldl _ ?_ _ _).trans ?_) | intro _ _ | dsimp only | simp only [lasting_mk, lasting_fold] | simp)

@[simp] theorem suspendCluster_lasts (c : Nat) (s : State) :
    lasting (suspendCluster c s) = lasting s := by
  simp [suspendCluster]

@[simp] theorem restartFailed_lasts (c : Nat) (s : State) :
    lasting (restartFailed c s) = lasting s := by
  unfold restartFailed
  repeat' (first | (simp_all; done) | split | (refine (lasting_foldl _ ?_ _ _).trans ?_) | intro _ _ | dsimp only | simp only [lasting_mk, lasting_fold] | simp)

@[simp] theorem ctlStops_lasts (c : Nat) (s : State) :
    lasting (ctlStops c s) = lasting s := by
  simp [ctlStops]

@[simp] theorem ctlRuns_lasts (c : Nat) (s : State) :
    lasting (ctlRuns c s) = lasting s := by
  unfold ctlRuns
  repeat' (first | (simp_all; done) | split | (refine (lasting_foldl _ ?_ _ _).trans ?_) | intro _ _ | dsimp only | simp only [lasting_mk, lasting_fold] | simp)

@[simp] theorem clusterPower_lasts (c : Nat) (on : Bool) (s : State) :
    lasting (clusterPower c on s) = lasting s := by
  simp [clusterPower]

@[simp] theorem pressLost_lasts (s : State) :
    lasting (pressLost s) = lasting s := by
  simp [pressLost]

@[simp] theorem stallNow_lasts (s : State) :
    lasting (stallNow s) = lasting s := by
  simp [stallNow]

@[simp] theorem stallTick_lasts (s : State) :
    lasting (stallTick s) = lasting s := by
  simp [stallTick]

/-! PlanExec.lean -/

@[simp] theorem storeTensor_lasts (id g i : Nat) (t : TData) (s : State) :
    lasting (storeTensor id g i t s) = lasting s := by
  unfold storeTensor
  repeat' (first | (simp_all; done) | split | (refine (lasting_foldl _ ?_ _ _).trans ?_) | intro _ _ | dsimp only | simp only [lasting_mk, lasting_fold] | simp)

@[simp] theorem bindStage_lasts (p : Plan) (have_ : List (Nat × List Shape)) (i : Nat) (s : State) :
    lasting (bindStage p have_ i s) = lasting s := by
  simp [bindStage]

@[simp] theorem grantHash_lasts (fuel : Nat) (s : State) :
    lasting (grantHash fuel s) = lasting s := by
  induction fuel generalizing s <;> unfold grantHash <;> (repeat' (first | (simp_all; done) | split | (refine (lasting_foldl _ ?_ _ _).trans ?_) | intro _ _ | dsimp only | simp only [lasting_mk, lasting_fold] | simp))

@[simp] theorem fillStream_lasts (p : Plan) (waiting : List Nat) (outs : List (Nat × List TData)) (i : Nat) (s : State) :
    lasting (fillStream p waiting outs i s) = lasting s := by
  unfold fillStream
  repeat' (first | (simp_all; done) | split | (refine (lasting_foldl _ ?_ _ _).trans ?_) | intro _ _ | dsimp only | simp only [lasting_mk, lasting_fold] | simp)

@[simp] theorem fillLanes_lasts (id : Nat) (s : State) : lasting (fillLanes id s) = lasting s := by
  unfold fillLanes
  split
  · rfl
  · dsimp only
    split
    · rfl
    · exact lasting_foldl _ (fun a i => fillStream_lasts _ _ _ i a) _ _

@[simp] theorem drainLanes_lasts (s : State) :
    lasting (drainLanes s) = lasting s := by
  simp [drainLanes]

@[simp] theorem stageRequests_lasts (p : Plan) (i : Nat) (s : State) :
    lasting (stageRequests p i s) = lasting s := by
  simp [stageRequests]

@[simp] theorem startPhase_lasts (id : Nat) (s : State) :
    lasting (startPhase id s) = lasting s := by
  unfold startPhase
  repeat' (first | (simp_all; done) | split | (refine (lasting_foldl _ ?_ _ _).trans ?_) | intro _ _ | dsimp only | simp only [lasting_mk, lasting_fold] | simp)

@[simp] theorem enterPhase_lasts (id : Nat) (s : State) :
    lasting (enterPhase id s) = lasting s := by
  unfold enterPhase
  repeat' (first | (simp_all; done) | split | (refine (lasting_foldl _ ?_ _ _).trans ?_) | intro _ _ | dsimp only | simp only [lasting_mk, lasting_fold] | simp)

@[simp] theorem nextPhase_lasts (id : Nat) (s : State) :
    lasting (nextPhase id s) = lasting s := by
  unfold nextPhase
  repeat' (first | (simp_all; done) | split | (refine (lasting_foldl _ ?_ _ _).trans ?_) | intro _ _ | dsimp only | simp only [lasting_mk, lasting_fold] | simp)

/-! MemOps.lean -/

@[simp] theorem memPowerUp_lasts (s : State) :
    lasting (memPowerUp s) = lasting s := by
  simp [memPowerUp]

@[simp] theorem memPowerDown_lasts (s : State) :
    lasting (memPowerDown s) = lasting s := by
  simp [memPowerDown]

/-! Rails.lean -/

@[simp] theorem setTray_lasts (t : Tray) (s : State) :
    lasting (setTray t s) = lasting s := by
  simp [setTray]

@[simp] theorem setRail_lasts (r : Nat) (f : Rail → Rail) (s : State) :
    lasting (setRail r f s) = lasting s := by
  simp [setRail]

@[simp] theorem setStrand_lasts (n : Nat) (f : Strand → Strand) (s : State) :
    lasting (setStrand n f s) = lasting s := by
  simp [setStrand]

@[simp] theorem startStrand_lasts (n entry : Nat) (s : State) :
    lasting (startStrand n entry s) = lasting s := by
  simp [startStrand]

@[simp] theorem stitchDone_lasts (n : Nat) (s : State) :
    lasting (stitchDone n s) = lasting s := by
  simp [stitchDone]

@[simp] theorem stitchWait_lasts (n : Nat) (w : StrandWait) (s : State) :
    lasting (stitchWait n w s) = lasting s := by
  simp [stitchWait]

@[simp] theorem driveRail_lasts (r : Nat) (on : Bool) (s : State) :
    lasting (driveRail r on s) = lasting s := by
  simp [driveRail]

@[simp] theorem enableRail_lasts (r : Nat) (s : State) :
    lasting (enableRail r s) = lasting s := by
  simp [enableRail]

@[simp] theorem disableRail_lasts (r : Nat) (s : State) :
    lasting (disableRail r s) = lasting s := by
  simp [disableRail]

@[simp] theorem fxFirstFailure_lasts (torn : Bool) (f : FailRec) (s : State) :
    lasting (fxFirstFailure torn f s) = lasting s := by
  simp [fxFirstFailure]

@[simp] theorem freeLatch_lasts (s : State) :
    lasting (freeLatch s) = lasting s := by
  unfold freeLatch
  repeat' (first | (simp_all; done) | split | (refine (lasting_foldl _ ?_ _ _).trans ?_) | intro _ _ | dsimp only | simp only [lasting_mk, lasting_fold] | simp)

@[simp] theorem logFailure_lasts (r cause : Nat) (a : FailAt) (s0 : State) :
    lasting (logFailure r cause a s0) = lasting s0 := by
  simp [logFailure]

@[simp] theorem markFailed_lasts (r cause : Nat) (a : FailAt) (s : State) :
    lasting (markFailed r cause a s) = lasting s := by
  simp [markFailed]

@[simp] theorem beginIsolation_lasts (f cause : Nat) (s : State) :
    lasting (beginIsolation f cause s) = lasting s := by
  simp [beginIsolation]

@[simp] theorem failRail_lasts (r cause : Nat) (a : FailAt) (s : State) :
    lasting (failRail r cause a s) = lasting s := by
  simp [failRail]

@[simp] theorem stopStrands_lasts (s : State) :
    lasting (stopStrands s) = lasting s := by
  simp [stopStrands]

@[simp] theorem cutShort_lasts (s : State) :
    lasting (cutShort s) = lasting s := by
  simp [cutShort]

@[simp] theorem startReverse_lasts (s : State) :
    lasting (startReverse s) = lasting s := by
  simp [startReverse]

@[simp] theorem onOrderEnds_lasts (s : State) :
    lasting (onOrderEnds s) = lasting s := by
  simp [onOrderEnds]

@[simp] theorem beginDown_lasts (s : State) :
    lasting (beginDown s) = lasting s := by
  simp [beginDown]

@[simp] theorem offRequest_lasts (fromRail : Bool) (s : State) :
    lasting (offRequest fromRail s) = lasting s := by
  unfold offRequest
  repeat' (first | (simp_all; done) | split | (refine (lasting_foldl _ ?_ _ _).trans ?_) | intro _ _ | dsimp only | simp only [lasting_mk, lasting_fold] | simp)

@[simp] theorem clearMarks_lasts (p : Nat → Bool) (s : State) :
    lasting (clearMarks p s) = lasting s := by
  simp [clearMarks]

@[simp] theorem setDown_lasts (d d' : DownJob) (s : State) :
    lasting (setDown d d' s) = lasting s := by
  simp [setDown]

@[simp] theorem dropDown_lasts (d : DownJob) (s : State) :
    lasting (dropDown d s) = lasting s := by
  simp [dropDown]

@[simp] theorem endIsolation_lasts (f : Nat) (gone : List Nat) (s : State) :
    lasting (endIsolation f gone s) = lasting s := by
  simp [endIsolation]

@[simp] theorem endDown_lasts (d : DownJob) (s : State) :
    lasting (endDown d s) = lasting s := by
  unfold endDown
  repeat' (first | (simp_all; done) | split | (refine (lasting_foldl _ ?_ _ _).trans ?_) | intro _ _ | dsimp only | simp only [lasting_mk, lasting_fold] | simp)

theorem moveDown_lasts {d : DownJob} {s : State} (t0 : State) (h0 : moveDown d s = some t0) :
    lasting t0 = lasting s := by
  unfold moveDown at h0
  repeat' (first | (simp at h0; done) | split at h0 | (cases h0) | dsimp only at h0 | (simp_all; done) | split | (refine (lasting_foldl _ ?_ _ _).trans ?_) | intro _ _ | dsimp only | simp only [lasting_mk, lasting_fold] | simp)

theorem moveIso_lasts {s : State} (t0 : State) (h0 : moveIso s = some t0) :
    lasting t0 = lasting s := by
  unfold moveIso at h0
  repeat' (first | (simp at h0; done) | split at h0 | (cases h0) | dsimp only at h0 | (simp_all; done) | split | (refine (lasting_foldl _ ?_ _ _).trans ?_) | intro _ _ | dsimp only | simp only [lasting_mk, lasting_fold] | simp)

theorem firstMove_lasts {ds : List DownJob} {s : State} (t0 : State) (h0 : firstMove ds s = some t0) :
    lasting t0 = lasting s := by
  induction ds with
  | nil => simp [firstMove] at h0
  | cons d t ih =>
    unfold firstMove at h0
    split at h0
    · cases h0
      exact moveDown_lasts _ (by assumption)
    · exact ih h0

@[simp] theorem runDowns_lasts (fuel : Nat) (s : State) :
    lasting (runDowns fuel s) = lasting s := by
  induction fuel generalizing s <;> unfold runDowns <;> (repeat' (first | (simp_all; done) | (have hh := moveIso_lasts _ (by assumption); simp_all; done) | (have hh := firstMove_lasts _ (by assumption); simp_all; done) | split | (refine (lasting_foldl _ ?_ _ _).trans ?_) | intro _ _ | dsimp only | simp only [lasting_mk, lasting_fold] | simp))

@[simp] theorem parentMark_lasts (n : Nat) (s : State) :
    lasting (parentMark n s) = lasting s := by
  unfold parentMark
  repeat' (first | (simp_all; done) | split | (refine (lasting_foldl _ ?_ _ _).trans ?_) | intro _ _ | dsimp only | simp only [lasting_mk, lasting_fold] | simp)

@[simp] theorem wakeStrands_lasts (s : State) :
    lasting (wakeStrands s) = lasting s := by
  simp [wakeStrands]

@[simp] theorem wakeSlots_lasts (s : State) :
    lasting (wakeSlots s) = lasting s := by
  unfold wakeSlots
  repeat' (first | (simp_all; done) | split | (refine (lasting_foldl _ ?_ _ _).trans ?_) | intro _ _ | dsimp only | simp only [lasting_mk, lasting_fold] | simp)

@[simp] theorem settleRails_lasts (s : State) :
    lasting (settleRails s) = lasting s := by
  simp [settleRails]

@[simp] theorem marginAck_lasts (r : Nat) (s : State) :
    lasting (marginAck r s) = lasting s := by
  simp [marginAck]

@[simp] theorem railIsDown_lasts (r : Nat) (s : State) :
    lasting (railIsDown r s) = lasting s := by
  simp [railIsDown]

@[simp] theorem failQueued_lasts (n : Nat) (s : State) :
    lasting (failQueued n s) = lasting s := by
  unfold failQueued
  repeat' (first | (simp_all; done) | split | (refine (lasting_foldl _ ?_ _ _).trans ?_) | intro _ _ | dsimp only | simp only [lasting_mk, lasting_fold] | simp)

@[simp] theorem stuckEffects_lasts (n : Nat) (s : State) :
    lasting (stuckEffects n s) = lasting s := by
  unfold stuckEffects
  repeat' (first | (simp_all; done) | split | (refine (lasting_foldl _ ?_ _ _).trans ?_) | intro _ _ | dsimp only | simp only [lasting_mk, lasting_fold] | simp)

@[simp] theorem noteSetPoint_lasts (w : Bytes) (s : State) :
    lasting (noteSetPoint w s) = lasting s := by
  simp [noteSetPoint]

/-! ProgImage.lean -/

@[simp] theorem loadProgram_lasts (img : Bytes) (s : State) :
    lasting (loadProgram img s) = lasting s := by
  simp [loadProgram]

/-! CfgOps.lean -/

@[simp] theorem setSlotState_lasts (i v : Nat) (s : State) :
    lasting (setSlotState i v s) = lasting s := by
  simp [setSlotState]

@[simp] theorem setSlotPassed_lasts (i : Nat) (v : Bool) (s : State) :
    lasting (setSlotPassed i v s) = lasting s := by
  simp [setSlotPassed]

@[simp] theorem judgeAttempt_lasts (pass : Bool) (s : State) :
    lasting (judgeAttempt pass s) = lasting s := by
  simp [judgeAttempt]

/-! Recorder.lean -/

@[simp] theorem lostRecord_lasts (s : State) :
    lasting (lostRecord s) = lasting s := by
  simp [lostRecord]

@[simp] theorem fxCommit_lasts (e : Ev) (rest : List Ev) (s : State) :
    lasting (fxCommit e rest s) = lasting s := by
  simp [fxCommit]

@[simp] theorem fxFlush_lasts (c : Coal) (s : State) :
    lasting (fxFlush c s) = lasting s := by
  simp [fxFlush]

/-! SecOps.lean -/

@[simp] theorem countSign_lasts (s : State) :
    lasting (countSign s) = lasting s := by
  simp [countSign]

/-! OrderOps.lean -/

@[simp] theorem acceptSeq_lasts (n : Nat) (s : State) :
    lasting (acceptSeq n s) = lasting s := by
  simp [acceptSeq]

@[simp] theorem refuseOrder_lasts (n st off : Nat) (s : State) :
    lasting (refuseOrder n st off s) = lasting s := by
  simp [refuseOrder]

@[simp] theorem executing_lasts (n : Nat) (s : State) :
    lasting (executing n s) = lasting s := by
  simp [executing]

@[simp] theorem takeOrder_lasts (n : Nat) (body : State → State) (s : State) (h_body : ∀ x0, lasting (body x0) = lasting x0) :
    lasting (takeOrder n body s) = lasting s := by
  unfold takeOrder
  repeat' (first | (simp_all [h_body]; done) | split | (refine (lasting_foldl _ ?_ _ _).trans ?_) | intro _ _ | dsimp only | simp only [lasting_mk, lasting_fold] | simp)

@[simp] theorem onOrder_lasts (op n : Nat) (body : Bytes → State → State) (s : State) (h_body : ∀ x0 x1, lasting (body x0 x1) = lasting x1) :
    lasting (onOrder op n body s) = lasting s := by
  simp [onOrder, h_body]

@[simp] theorem onCommand_lasts (cmd n : Nat) (body : Bytes → State → State) (s : State) (h_body : ∀ x0 x1, lasting (body x0 x1) = lasting x1) :
    lasting (onCommand cmd n body s) = lasting s := by
  simp [onCommand, h_body]

@[simp] theorem replyDone_lasts (n : Nat) (payload : Bytes) (s : State) :
    lasting (replyDone n payload s) = lasting s := by
  simp [replyDone]

@[simp] theorem badParam_lasts (n o : Nat) (s : State) :
    lasting (badParam n o s) = lasting s := by
  simp [badParam]

/-! MbxOps.lean -/

@[simp] theorem bufWrite_lasts (n o : Nat) (bs : Bytes) (s : State) :
    lasting (bufWrite n o bs s) = lasting s := by
  simp [bufWrite]

@[simp] theorem answerUnknown_lasts (n : Nat) (s : State) :
    lasting (answerUnknown n s) = lasting s := by
  simp [answerUnknown]

@[simp] theorem fxSubmit_lasts (src back n : Nat) (s : State) :
    lasting (fxSubmit src back n s) = lasting s := by
  simp [fxSubmit]

@[simp] theorem fxMbRelease_lasts (n : Nat) (s : State) :
    lasting (fxMbRelease n s) = lasting s := by
  simp [fxMbRelease]

@[simp] theorem fxMbAbort_lasts (n : Nat) (s : State) :
    lasting (fxMbAbort n s) = lasting s := by
  simp [fxMbAbort]

@[simp] theorem mbCtrl_lasts (m n : Nat) (v : W32) (s : State) :
    lasting (mbCtrl m n v s) = lasting s := by
  simp [mbCtrl]

/-! MeterOps.lean -/

@[simp] theorem closeBatch_lasts (byTime : Bool) (s : State) :
    lasting (closeBatch byTime s) = lasting s := by
  simp [closeBatch]

@[simp] theorem openBatch_lasts (s : State) :
    lasting (openBatch s) = lasting s := by
  simp [openBatch]

@[simp] theorem storeTicket_lasts (o : OpenReq) (why : CloseWhy) (s : State) :
    lasting (storeTicket o why s) = lasting s := by
  simp [storeTicket]

@[simp] theorem closeReq_lasts (id : Nat) (why : CloseWhy) (s : State) :
    lasting (closeReq id why s) = lasting s := by
  unfold closeReq
  repeat' (first | (simp_all; done) | split | (refine (lasting_foldl _ ?_ _ _).trans ?_) | intro _ _ | dsimp only | simp only [lasting_mk, lasting_fold] | simp)

@[simp] theorem applyCloses_lasts (fuel : Nat) (s : State) :
    lasting (applyCloses fuel s) = lasting s := by
  induction fuel generalizing s <;> unfold applyCloses <;> (repeat' (first | (simp_all; done) | split | (refine (lasting_foldl _ ?_ _ _).trans ?_) | intro _ _ | dsimp only | simp only [lasting_mk, lasting_fold] | simp))

@[simp] theorem mapOpens_lasts (f : OpenReq → OpenReq) (s : State) :
    lasting (mapOpens f s) = lasting s := by
  simp [mapOpens]

@[simp] theorem shutAll_lasts (s : State) :
    lasting (shutAll s) = lasting s := by
  simp [shutAll]

@[simp] theorem shutAcc_lasts (a : Nat) (s : State) :
    lasting (shutAcc a s) = lasting s := by
  simp [shutAcc]

@[simp] theorem closeInterval_lasts (s : State) :
    lasting (closeInterval s) = lasting s := by
  simp [closeInterval]

@[simp] theorem settleMeter_lasts (s : State) :
    lasting (settleMeter s) = lasting s := by
  simp [settleMeter]

/-! Trips.lean -/

@[simp] theorem coreIslandsOff_lasts (s : State) :
    lasting (coreIslandsOff s) = lasting s := by
  simp [coreIslandsOff]

@[simp] theorem haltSequences_lasts (s : State) :
    lasting (haltSequences s) = lasting s := by
  simp [haltSequences]

@[simp] theorem tripIslands_lasts (s : State) :
    lasting (tripIslands s) = lasting s := by
  simp [tripIslands]

@[simp] theorem hwTrip_lasts (z : Nat) (s : State) :
    lasting (hwTrip z s) = lasting s := by
  simp [hwTrip]

theorem aonTrip_lasts_aux {s w : State} (hw : lasting w = lasting s) (c : Prop) [Decidable c] :
    lasting (if c then w else tripIslands (setTray .tripped (judgeAttempt false w))) = lasting s := by
  split
  · exact hw
  · rw [tripIslands_lasts, setTray_lasts, judgeAttempt_lasts, hw]
@[simp] theorem aonTrip_lasts (z : Nat) (s : State) : lasting (aonTrip z s) = lasting s := by
  have hst (t : State) (x : Stitch) : lasting { t with st := x } = lasting t := rfl
  have hch (t : State) (x : Chip) (y : Heat) : lasting { t with chip := x, heat := y } = lasting t := rfl
  have hcut (t : State) : lasting (if t.st.pfailMode then cutShort (setBits R.ST_FAULT 0x10 t) else t) = lasting t := by
    split
    · rw [cutShort_lasts, setBits_lasts]
    · rfl
  unfold aonTrip
  dsimp only
  split
  · rfl
  rw [hst, hcut, shutAll_lasts, hst, setOutputs_lasts]
  refine aonTrip_lasts_aux ?_ _
  rw [haltSequences_lasts, hch, raise_lasts]

/-! FwOps.lean -/

@[simp] theorem setCore_lasts (k : Nat) (f : CoreSt → CoreSt) (s : State) :
    lasting (setCore k f s) = lasting s := by
  simp [setCore]

@[simp] theorem loadCore_lasts (k : Nat) (s : State) :
    lasting (loadCore k s) = lasting s := by
  simp [loadCore]

@[simp] theorem loadControls_lasts (s : State) :
    lasting (loadControls s) = lasting s := by
  simp [loadControls]

@[simp] theorem clusterFeels_lasts (k : Nat) (s : State) :
    lasting (clusterFeels k s) = lasting s := by
  simp [clusterFeels]

@[simp] theorem haltCore_lasts (k cause : Nat) (s : State) :
    lasting (haltCore k cause s) = lasting s := by
  simp [haltCore]

@[simp] theorem countStop_lasts (k : Nat) (s : State) :
    lasting (countStop k s) = lasting s := by
  simp [countStop]

@[simp] theorem stopCore_lasts (k cause : Nat) (counted : Bool) (s : State) :
    lasting (stopCore k cause counted s) = lasting s := by
  simp [stopCore]

@[simp] theorem refuseAccess_lasts (m a n : Nat) (write : Bool) (s : State) :
    lasting (refuseAccess m a n write s) = lasting s := by
  simp [refuseAccess]

@[simp] theorem answerInterrupted_lasts (k : Nat) (s : State) :
    lasting (answerInterrupted k s) = lasting s := by
  simp [answerInterrupted]

@[simp] theorem coreRuns_lasts (k : Nat) (s : State) :
    lasting (coreRuns k s) = lasting s := by
  simp [coreRuns]

@[simp] theorem endActivation_lasts (st : Nat) (s : State) :
    lasting (endActivation st s) = lasting s := by
  simp [endActivation]

@[simp] theorem activationGoes_lasts (a : Activation) (s : State) :
    lasting (activationGoes a s) = lasting s := by
  unfold activationGoes
  repeat' (first | (simp_all; done) | split | (refine (lasting_foldl _ ?_ _ _).trans ?_) | intro _ _ | dsimp only | simp only [lasting_mk, lasting_fold] | simp)

@[simp] theorem takeSlots_lasts (slot mask : Nat) (s : State) :
    lasting (takeSlots slot mask s) = lasting s := by
  simp [takeSlots]

@[simp] theorem startActivation_lasts (a : Activation) (s : State) :
    lasting (startActivation a s) = lasting s := by
  simp [startActivation]

@[simp] theorem activationStep_lasts (k : Nat) (s : State) :
    lasting (activationStep k s) = lasting s := by
  unfold activationStep
  repeat' (first | (simp_all; done) | split | (refine (lasting_foldl _ ?_ _ _).trans ?_) | intro _ _ | dsimp only | simp only [lasting_mk, lasting_fold] | simp)

@[simp] theorem writeVcoreLimit_lasts (s : State) :
    lasting (writeVcoreLimit s) = lasting s := by
  unfold writeVcoreLimit
  repeat' (first | (simp_all; done) | split | (refine (lasting_foldl _ ?_ _ _).trans ?_) | intro _ _ | dsimp only | simp only [lasting_mk, lasting_fold] | simp)

/-! AssureOps.lean -/

@[simp] theorem setCap_lasts (order : Nat) (f : Capsule → Capsule) (s : State) :
    lasting (setCap order f s) = lasting s := by
  simp [setCap]

@[simp] theorem submitSelf_lasts (o : PlanOwner) (cls addr len : Nat) (home : Option Nat) (s : State) :
    lasting (submitSelf o cls addr len home s) = lasting s := by
  simp [submitSelf]

@[simp] theorem dropPlan_lasts (id : Nat) (s : State) :
    lasting (dropPlan id s) = lasting s := by
  simp [dropPlan]

@[simp] theorem setJob_lasts (j : Nat) (f : Job → Job) (s : State) :
    lasting (setJob j f s) = lasting s := by
  simp [setJob]

@[simp] theorem evictJob_lasts (s : State) :
    lasting (evictJob s) = lasting s := by
  unfold evictJob
  repeat' (first | (simp_all; done) | split | (refine (lasting_foldl _ ?_ _ _).trans ?_) | intro _ _ | dsimp only | simp only [lasting_mk, lasting_fold] | simp)

@[simp] theorem touchJob_lasts (j : Nat) (s : State) :
    lasting (touchJob j s) = lasting s := by
  simp [touchJob]

@[simp] theorem advanceJob_lasts (j : Nat) (s : State) :
    lasting (advanceJob j s) = lasting s := by
  simp [advanceJob]

@[simp] theorem onVerdict_lasts (j a step : Nat) (o : StepEnd) (s : State) :
    lasting (onVerdict j a step o s) = lasting s := by
  unfold onVerdict
  repeat' (first | (simp_all; done) | split | (refine (lasting_foldl _ ?_ _ _).trans ?_) | intro _ _ | dsimp only | simp only [lasting_mk, lasting_fold] | simp)

@[simp] theorem logVerdict_lasts (acc v : Nat) (rec : Nat → Bytes) (s : State) :
    lasting (logVerdict acc v rec s) = lasting s := by
  simp [logVerdict]

@[simp] theorem sendVerdict_lasts (c : Capsule) (v : Nat) (s : State) :
    lasting (sendVerdict c v s) = lasting s := by
  unfold sendVerdict
  repeat' (first | (simp_all; done) | split | (refine (lasting_foldl _ ?_ _ _).trans ?_) | intro _ _ | dsimp only | simp only [lasting_mk, lasting_fold] | simp)

@[simp] theorem countVerdict_lasts (v : Nat) (s : State) :
    lasting (countVerdict v s) = lasting s := by
  simp [countVerdict]

@[simp] theorem dropReplay_lasts (c : Capsule) (s : State) :
    lasting (dropReplay c s) = lasting s := by
  unfold dropReplay
  repeat' (first | (simp_all; done) | split | (refine (lasting_foldl _ ?_ _ _).trans ?_) | intro _ _ | dsimp only | simp only [lasting_mk, lasting_fold] | simp)

@[simp] theorem finishCap_lasts (c : Capsule) (v : Nat) (between : State → State) (s : State) (h_between : ∀ x0, lasting (between x0) = lasting x0) :
    lasting (finishCap c v between s) = lasting s := by
  unfold finishCap
  repeat' (first | (simp_all [h_between]; done) | split | (refine (lasting_foldl _ ?_ _ _).trans ?_) | intro _ _ | dsimp only | simp only [lasting_mk, lasting_fold] | simp)

@[simp] theorem withdraw_lasts (p : Capsule → Bool) (s : State) :
    lasting (withdraw p s) = lasting s := by
  simp [withdraw]

@[simp] theorem fruRead_lasts (what : TwWhat) (a : Nat) (s : State) :
    lasting (fruRead what a s) = lasting s := by
  simp [fruRead]

@[simp] theorem fruService_lasts (a cause : Nat) (darn : Bytes) (s : State) :
    lasting (fruService a cause darn s) = lasting s := by
  simp [fruService]

@[simp] theorem clearTag_lasts (a : Nat) (s : State) :
    lasting (clearTag a s) = lasting s := by
  simp [clearTag]

@[simp] theorem fruDone_lasts (what : TwWhat) (data : Bytes) (s : State) :
    lasting (fruDone what data s) = lasting s := by
  unfold fruDone
  repeat' (first | (simp_all; done) | split | (refine (lasting_foldl _ ?_ _ _).trans ?_) | intro _ _ | dsimp only | simp only [lasting_mk, lasting_fold] | simp)

@[simp] theorem checkTag_lasts (a : Nat) (s : State) :
    lasting (checkTag a s) = lasting s := by
  simp [checkTag]

@[simp] theorem beginDrain_lasts (a : Nat) (s : State) :
    lasting (beginDrain a s) = lasting s := by
  simp [beginDrain]

@[simp] theorem tagAcc_lasts (a cause : Nat) (darn : Bytes) (s : State) :
    lasting (tagAcc a cause darn s) = lasting s := by
  simp [tagAcc]

@[simp] theorem beginAccOff_lasts (a : Nat) (s : State) :
    lasting (beginAccOff a s) = lasting s := by
  simp [beginAccOff]

@[simp] theorem drainedOff_lasts (a : Nat) (s : State) :
    lasting (drainedOff a s) = lasting s := by
  simp [drainedOff]

@[simp] theorem tagSelf_lasts (s : State) :
    lasting (tagSelf s) = lasting s := by
  simp [tagSelf]

@[simp] theorem faultySelf_lasts (mask : Nat) (s : State) :
    lasting (faultySelf mask s) = lasting s := by
  simp [faultySelf]

/-! AssureRun.lean -/

@[simp] theorem toQueued_lasts (c : Capsule) (s : State) :
    lasting (toQueued c s) = lasting s := by
  simp [toQueued]

@[simp] theorem refuseCap_lasts (event : Bool) (c : Capsule) (s : State) :
    lasting (refuseCap event c s) = lasting s := by
  simp [refuseCap]

@[simp] theorem toHostWait_lasts (c : Capsule) (s : State) :
    lasting (toHostWait c s) = lasting s := by
  simp [toHostWait]

@[simp] theorem beginFetch_lasts (c : Capsule) (s : State) :
    lasting (beginFetch c s) = lasting s := by
  unfold beginFetch
  repeat' (first | (simp_all; done) | split | (refine (lasting_foldl _ ?_ _ _).trans ?_) | intro _ _ | dsimp only | simp only [lasting_mk, lasting_fold] | simp)

@[simp] theorem dispatchCap_lasts (c : Capsule) (s : State) :
    lasting (dispatchCap c s) = lasting s := by
  unfold dispatchCap
  repeat' (first | (simp_all; done) | split | (refine (lasting_foldl _ ?_ _ _).trans ?_) | intro _ _ | dsimp only | simp only [lasting_mk, lasting_fold] | simp)

@[simp] theorem delegateNext_lasts (c : Capsule) (s : State) :
    lasting (delegateNext c s) = lasting s := by
  unfold delegateNext
  repeat' (first | (simp_all; done) | split | (refine (lasting_foldl _ ?_ _ _).trans ?_) | intro _ _ | dsimp only | simp only [lasting_mk, lasting_fold] | simp)

@[simp] theorem copyIn_lasts (src dst n : Nat) (s : State) :
    lasting (copyIn src dst n s) = lasting s := by
  simp [copyIn]

@[simp] theorem copyDesc_lasts (f : CapFrom) (b : Bytes) (p : Nat × Nat) (s : State) :
    lasting (copyDesc f b p s) = lasting s := by
  simp [copyDesc]

@[simp] theorem fxFetched_lasts (c : Capsule) (s : State) :
    lasting (fxFetched c s) = lasting s := by
  unfold fxFetched
  repeat' (first | (simp_all; done) | split | (refine (lasting_foldl _ ?_ _ _).trans ?_) | intro _ _ | dsimp only | simp only [lasting_mk, lasting_fold] | simp)

@[simp] theorem askNext_lasts (c : Capsule) (s : State) :
    lasting (askNext c s) = lasting s := by
  unfold askNext
  repeat' (first | (simp_all; done) | split | (refine (lasting_foldl _ ?_ _ _).trans ?_) | intro _ _ | dsimp only | simp only [lasting_mk, lasting_fold] | simp)

@[simp] theorem startPeerPlan_lasts (c : Capsule) (s : State) :
    lasting (startPeerPlan c s) = lasting s := by
  unfold startPeerPlan
  repeat' (first | (simp_all; done) | split | (refine (lasting_foldl _ ?_ _ _).trans ?_) | intro _ _ | dsimp only | simp only [lasting_mk, lasting_fold] | simp)

@[simp] theorem fxPeerPlan_lasts (c : Capsule) (p : Nat) (s : State) :
    lasting (fxPeerPlan c p s) = lasting s := by
  unfold fxPeerPlan
  repeat' (first | (simp_all; done) | split | (refine (lasting_foldl _ ?_ _ _).trans ?_) | intro _ _ | dsimp only | simp only [lasting_mk, lasting_fold] | simp)

@[simp] theorem fxPeerCopy_lasts (c : Capsule) (s : State) :
    lasting (fxPeerCopy c s) = lasting s := by
  unfold fxPeerCopy
  repeat' (first | (simp_all; done) | split | (refine (lasting_foldl _ ?_ _ _).trans ?_) | intro _ _ | dsimp only | simp only [lasting_mk, lasting_fold] | simp)

@[simp] theorem fxReplayEnd_lasts (c : Capsule) (p : Plan) (s : State) :
    lasting (fxReplayEnd c p s) = lasting s := by
  simp [fxReplayEnd]

@[simp] theorem workWrite_lasts (slot off : Nat) (bs : Bytes) (s : State) :
    lasting (workWrite slot off bs s) = lasting s := by
  simp [workWrite]

@[simp] theorem workDrop_lasts (slot : Nat) (s : State) :
    lasting (workDrop slot s) = lasting s := by
  simp [workDrop]

@[simp] theorem startCapture_lasts (c : Capsule) (seq : Nat) (s : State) :
    lasting (startCapture c seq s) = lasting s := by
  unfold startCapture
  repeat' (first | (simp_all; done) | split | (refine (lasting_foldl _ ?_ _ _).trans ?_) | intro _ _ | dsimp only | simp only [lasting_mk, lasting_fold] | simp)

@[simp] theorem accFaulty_lasts (a cause : Nat) (darn : Bytes) (s : State) :
    lasting (accFaulty a cause darn s) = lasting s := by
  simp [accFaulty]

@[simp] theorem captureFor_lasts (c : Capsule) (seq : Nat) (s : State) :
    lasting (captureFor c seq s) = lasting s := by
  unfold captureFor
  repeat' (first | (simp_all; done) | split | (refine (lasting_foldl _ ?_ _ _).trans ?_) | intro _ _ | dsimp only | simp only [lasting_mk, lasting_fold] | simp)

@[simp] theorem decideCap_lasts (c : Capsule) (v : Nat) (s : State) :
    lasting (decideCap c v s) = lasting s := by
  unfold decideCap
  repeat' (first | (simp_all; done) | split | (refine (lasting_foldl _ ?_ _ _).trans ?_) | intro _ _ | dsimp only | simp only [lasting_mk, lasting_fold] | simp)

@[simp] theorem peerResult_lasts (c : Capsule) (node : Nat) (digest : Bytes) (s : State) :
    lasting (peerResult c node digest s) = lasting s := by
  unfold peerResult
  repeat' (first | (simp_all; done) | split | (refine (lasting_foldl _ ?_ _ _).trans ?_) | intro _ _ | dsimp only | simp only [lasting_mk, lasting_fold] | simp)

@[simp] theorem passPeer_lasts (c : Capsule) (s : State) :
    lasting (passPeer c s) = lasting s := by
  simp [passPeer]

@[simp] theorem requestLost_lasts (tag : Nat) (s : State) :
    lasting (requestLost tag s) = lasting s := by
  unfold requestLost
  repeat' (first | (simp_all; done) | split | (refine (lasting_foldl _ ?_ _ _).trans ?_) | intro _ _ | dsimp only | simp only [lasting_mk, lasting_fold] | simp)

@[simp] theorem fxThirdResult_lasts (node : Nat) (p : Bytes) (s : State) :
    lasting (fxThirdResult node p s) = lasting s := by
  unfold fxThirdResult
  repeat' (first | (simp_all; done) | split | (refine (lasting_foldl _ ?_ _ _).trans ?_) | intro _ _ | dsimp only | simp only [lasting_mk, lasting_fold] | simp)

@[simp] theorem fxPeerRetry_lasts (c : Capsule) (s : State) :
    lasting (fxPeerRetry c s) = lasting s := by
  simp [fxPeerRetry]

@[simp] theorem setThird_lasts (node req : Nat) (f : Third → Third) (s : State) :
    lasting (setThird node req f s) = lasting s := by
  simp [setThird]

@[simp] theorem sendThird_lasts (node req status : Nat) (digest : Bytes) (s : State) :
    lasting (sendThird node req status digest s) = lasting s := by
  simp [sendThird]

@[simp] theorem fxThirdReq_lasts (node : Nat) (p : Bytes) (s : State) :
    lasting (fxThirdReq node p s) = lasting s := by
  simp [fxThirdReq]

@[simp] theorem thirdSubmit_lasts (t : Third) (img : Bytes) (s : State) :
    lasting (thirdSubmit t img s) = lasting s := by
  simp [thirdSubmit]

@[simp] theorem thirdStep_lasts (t : Third) (s : State) :
    lasting (thirdStep t s) = lasting s := by
  unfold thirdStep
  repeat' (first | (simp_all; done) | split | (refine (lasting_foldl _ ?_ _ _).trans ?_) | intro _ _ | dsimp only | simp only [lasting_mk, lasting_fold] | simp)

@[simp] theorem thirdAnswer_lasts (t : Third) (p : Plan) (s : State) :
    lasting (thirdAnswer t p s) = lasting s := by
  simp [thirdAnswer]

@[simp] theorem fxThirdEnd_lasts (t : Third) (p : Plan) (s : State) :
    lasting (fxThirdEnd t p s) = lasting s := by
  unfold fxThirdEnd
  repeat' (first | (simp_all; done) | split | (refine (lasting_foldl _ ?_ _ _).trans ?_) | intro _ _ | dsimp only | simp only [lasting_mk, lasting_fold] | simp)

@[simp] theorem followPlan_lasts (s : State) (c : Capsule) :
    lasting (followPlan s c) = lasting s := by
  unfold followPlan
  repeat' (first | (simp_all; done) | split | (refine (lasting_foldl _ ?_ _ _).trans ?_) | intro _ _ | dsimp only | simp only [lasting_mk, lasting_fold] | simp)

@[simp] theorem followPeer_lasts (s : State) (c : Capsule) :
    lasting (followPeer s c) = lasting s := by
  unfold followPeer
  repeat' (first | (simp_all; done) | split | (refine (lasting_foldl _ ?_ _ _).trans ?_) | intro _ _ | dsimp only | simp only [lasting_mk, lasting_fold] | simp)

@[simp] theorem loseImages_lasts (s : State) :
    lasting (loseImages s) = lasting s := by
  simp [loseImages]

@[simp] theorem settleCaps_lasts (s : State) :
    lasting (settleCaps s) = lasting s := by
  simp [settleCaps]

@[simp] theorem settleAssure_lasts (s : State) :
    lasting (settleAssure s) = lasting s := by
  simp [settleAssure]

/-! DarnOps.lean -/

@[simp] theorem setDarn_lasts (id : Nat) (f : Darn → Darn) (s : State) :
    lasting (setDarn id f s) = lasting s := by
  simp [setDarn]

@[simp] theorem fillSlot_lasts (d : Darn) (bs : Bytes) (s : State) :
    lasting (fillSlot d bs s) = lasting s := by
  simp [fillSlot]

@[simp] theorem enterDarn_lasts (d : Darn) (bs : Bytes) (s : State) :
    lasting (enterDarn d bs s) = lasting s := by
  unfold enterDarn
  repeat' (first | (simp_all; done) | split | (refine (lasting_foldl _ ?_ _ _).trans ?_) | intro _ _ | dsimp only | simp only [lasting_mk, lasting_fold] | simp)

@[simp] theorem frontDarn_lasts (id : Nat) (s : State) :
    lasting (frontDarn id s) = lasting s := by
  simp [frontDarn]

@[simp] theorem sendSeam_lasts (k : Nat) (rsp : Bool) (m : Msg) (s : State) :
    lasting (sendSeam k rsp m s) = lasting s := by
  simp [sendSeam]

@[simp] theorem offerOn_lasts (id : Nat) (ks : List Nat) (s : State) :
    lasting (offerOn id ks s) = lasting s := by
  unfold offerOn
  repeat' (first | (simp_all; done) | split | (refine (lasting_foldl _ ?_ _ _).trans ?_) | intro _ _ | dsimp only | simp only [lasting_mk, lasting_fold] | simp)

@[simp] theorem offerAll_lasts (id : Nat) (s : State) :
    lasting (offerAll id s) = lasting s := by
  simp [offerAll]

@[simp] theorem wantDarns_lasts (s : State) :
    lasting (wantDarns s) = lasting s := by
  simp [wantDarns]

@[simp] theorem setFetch_lasts (id : Nat) (f : DarnWork → DarnWork) (s : State) :
    lasting (setFetch id f s) = lasting s := by
  simp [setFetch]

@[simp] theorem dropFetch_lasts (w : DarnWork) (s : State) :
    lasting (dropFetch w s) = lasting s := by
  simp [dropFetch]

@[simp] theorem submitPrep_lasts (w : DarnWork) (d : Bytes) (home : Option Nat) (s : State) :
    lasting (submitPrep w d home s) = lasting s := by
  simp [submitPrep]

@[simp] theorem fxPrepared_lasts (w : DarnWork) (d : Bytes) (s : State) :
    lasting (fxPrepared w d s) = lasting s := by
  simp [fxPrepared]

@[simp] theorem fxQuarantine_lasts (w : DarnWork) (d : Bytes) (s : State) :
    lasting (fxQuarantine w d s) = lasting s := by
  simp [fxQuarantine]

@[simp] theorem fxPrepEnd_lasts (w : DarnWork) (p : Plan) (s : State) :
    lasting (fxPrepEnd w p s) = lasting s := by
  unfold fxPrepEnd
  repeat' (first | (simp_all; done) | split | (refine (lasting_foldl _ ?_ _ _).trans ?_) | intro _ _ | dsimp only | simp only [lasting_mk, lasting_fold] | simp)

@[simp] theorem patchRecord_lasts (seq : Nat) (id : Bytes) (s : State) :
    lasting (patchRecord seq id s) = lasting s := by
  simp [patchRecord]

@[simp] theorem dropCapture_lasts (k : Capture) (s : State) :
    lasting (dropCapture k s) = lasting s := by
  simp [dropCapture]

@[simp] theorem fxCaptured_lasts (k : Capture) (p : Plan) (s : State) :
    lasting (fxCaptured k p s) = lasting s := by
  simp [fxCaptured]

@[simp] theorem sendScreen_lasts (a : Nat) (d : Darn) (s : State) :
    lasting (sendScreen a d s) = lasting s := by
  simp [sendScreen]

@[simp] theorem fxScreened_lasts (a : Nat) (d : Darn) (digest : Bytes) (s : State) :
    lasting (fxScreened a d digest s) = lasting s := by
  simp [fxScreened]

/-! Settle.lean -/

@[simp] theorem settleTray_lasts (s : State) :
    lasting (settleTray s) = lasting s := by
  simp [settleTray]

@[simp] theorem settleAcc_lasts (a : Nat) (s : State) :
    lasting (settleAcc a s) = lasting s := by
  simp [settleAcc]

@[simp] theorem settleLinks_lasts (s : State) :
    lasting (settleLinks s) = lasting s := by
  simp [settleLinks]

@[simp] theorem settleCore_lasts (s : State) :
    lasting (settleCore s) = lasting s := by
  simp [settleCore]

@[simp] theorem settleIslands_lasts (s : State) :
    lasting (settleIslands s) = lasting s := by
  simp [settleIslands]

@[simp] theorem settleHlc_lasts (s : State) :
    lasting (settleHlc s) = lasting s := by
  simp [settleHlc]

@[simp] theorem startAcc_lasts (a : Nat) (s : State) :
    lasting (startAcc a s) = lasting s := by
  simp [startAcc]

@[simp] theorem settleAccStart_lasts (s : State) :
    lasting (settleAccStart s) = lasting s := by
  simp [settleAccStart]

@[simp] theorem settleAccPower_lasts (s : State) :
    lasting (settleAccPower s) = lasting s := by
  unfold settleAccPower
  repeat' (first | (simp_all; done) | split | (refine (lasting_foldl _ ?_ _ _).trans ?_) | intro _ _ | dsimp only | simp only [lasting_mk, lasting_fold] | simp)

@[simp] theorem settleStuck_lasts (s : State) :
    lasting (settleStuck s) = lasting s := by
  simp [settleStuck]

@[simp] theorem settlePress_lasts (s : State) :
    lasting (settlePress s) = lasting s := by
  simp [settlePress]

@[simp] theorem settled_lasts (s : State) :
    lasting (settled s) = lasting s := by
  simp [settled]

/-! Stitches.lean -/

@[simp] theorem countStitch_lasts (n : Nat) (s : State) :
    lasting (countStitch n s) = lasting s := by
  simp [countStitch]

@[simp] theorem slotStart_lasts (s : State) :
    lasting (slotStart s) = lasting s := by
  simp [slotStart]

@[simp] theorem fxEnd_lasts (n : Nat) (s : State) :
    lasting (fxEnd n s) = lasting s := by
  simp [fxEnd]

@[simp] theorem fxEnable_lasts (n r : Nat) (s : State) :
    lasting (fxEnable n r s) = lasting s := by
  unfold fxEnable
  repeat' (first | (simp_all; done) | split | (refine (lasting_foldl _ ?_ _ _).trans ?_) | intro _ _ | dsimp only | simp only [lasting_mk, lasting_fold] | simp)

@[simp] theorem fxDisable_lasts (n r : Nat) (s : State) :
    lasting (fxDisable n r s) = lasting s := by
  simp [fxDisable]

@[simp] theorem fxCheck_lasts (n : Nat) (w mv da : Nat) (s : State) :
    lasting (fxCheck n w mv da s) = lasting s := by
  simp [fxCheck]

@[simp] theorem jumpTo_lasts (n i : Nat) (s : State) :
    lasting (jumpTo n i s) = lasting s := by
  simp [jumpTo]

@[simp] theorem passGate_keeps_snd (n : Nat) (q : TwReq) (s : State) : lasting (passGate n q s).2 = lasting s := by
  have hc (t : State) (n : Nat) : lasting { t with aon.clamps := n } = lasting t := rfl
  unfold passGate
  split
  · split
    · rfl
    · exact noteSetPoint_lasts _ _
    · dsimp only
      rw [raise_lasts, noteSetPoint_lasts, hc]
  · rfl
theorem passGate_keeps {n : Nat} {q : TwReq} {s : State} {o : Option TwReq} {t : State} (h : passGate n q s = (o, t)) :
    lasting t = lasting s := by
  rw [← passGate_keeps_snd n q s, h]
@[simp] theorem railSend_lasts (r : Nat) (q : TwReq) (s : State) : lasting (railSend r q s) = lasting s := by
  unfold railSend
  split
  · exact passGate_keeps ‹_›
  · rw [twEngine_lasts]; exact passGate_keeps ‹_›

@[simp] theorem applyMargin_lasts (r : Nat) (a : Int) (trim : W32) (known : Bool) (s : State) :
    lasting (applyMargin r a trim known s) = lasting s := by
  simp [applyMargin]

/-! RailEvents.lean -/

@[simp] theorem fxParentsOn_lasts (r : Nat) (s : State) :
    lasting (fxParentsOn r s) = lasting s := by
  unfold fxParentsOn
  repeat' (first | (simp_all; done) | split | (refine (lasting_foldl _ ?_ _ _).trans ?_) | intro _ _ | dsimp only | simp only [lasting_mk, lasting_fold] | simp)

@[simp] theorem twRailDone_lasts (r : Nat) (s : State) :
    lasting (twRailDone r s) = lasting s := by
  unfold twRailDone
  repeat' (first | (simp_all; done) | split | (refine (lasting_foldl _ ?_ _ _).trans ?_) | intro _ _ | dsimp only | simp only [lasting_mk, lasting_fold] | simp)

@[simp] theorem twRailAck_lasts (r : Nat) (s : State) :
    lasting (twRailAck r s) = lasting s := by
  unfold twRailAck
  repeat' (first | (simp_all; done) | split | (refine (lasting_foldl _ ?_ _ _).trans ?_) | intro _ _ | dsimp only | simp only [lasting_mk, lasting_fold] | simp)

@[simp] theorem fxActionComplete_lasts (r : Nat) (s : State) :
    lasting (fxActionComplete r s) = lasting s := by
  simp [fxActionComplete]

@[simp] theorem fxAttemptRetry_lasts (r : Nat) (s : State) :
    lasting (fxAttemptRetry r s) = lasting s := by
  simp [fxAttemptRetry]

@[simp] theorem fxMarginRetry_lasts (r : Nat) (q : TwReq) (s : State) :
    lasting (fxMarginRetry r q s) = lasting s := by
  simp [fxMarginRetry]

@[simp] theorem fxPowerGood_lasts (r : Nat) (s : State) :
    lasting (fxPowerGood r s) = lasting s := by
  simp [fxPowerGood]

@[simp] theorem fxBelowOff_lasts (r : Nat) (s : State) :
    lasting (fxBelowOff r s) = lasting s := by
  simp [fxBelowOff]

@[simp] theorem fxGapElapsed_lasts (r : Nat) (s : State) :
    lasting (fxGapElapsed r s) = lasting s := by
  simp [fxGapElapsed]

@[simp] theorem fxFallTimeout_lasts (r : Nat) (a : FailAt) (s : State) :
    lasting (fxFallTimeout r a s) = lasting s := by
  simp [fxFallTimeout]

@[simp] theorem pgReading_lasts (r : Nat) (good pastBlank : Bool) (tUs : Nat) (s : State) :
    lasting (pgReading r good pastBlank tUs s) = lasting s := by
  simp [pgReading]

@[simp] theorem fxPoll_lasts (r : Nat) (word : Option W32) (pastBlank : Bool) (tUs : Nat) (s : State) :
    lasting (fxPoll r word pastBlank tUs s) = lasting s := by
  unfold fxPoll
  repeat' (first | (simp_all; done) | split | (refine (lasting_foldl _ ?_ _ _).trans ?_) | intro _ _ | dsimp only | simp only [lasting_mk, lasting_fold] | simp)

@[simp] theorem fxPfailCheck_lasts (mv : List Nat) (tUs : Nat) (s : State) :
    lasting (fxPfailCheck mv tUs s) = lasting s := by
  simp [fxPfailCheck]

@[simp] theorem fxSlotEnable_lasts (r : Nat) (s : State) :
    lasting (fxSlotEnable r s) = lasting s := by
  unfold fxSlotEnable
  repeat' (first | (simp_all; done) | split | (refine (lasting_foldl _ ?_ _ _).trans ?_) | intro _ _ | dsimp only | simp only [lasting_mk, lasting_fold] | simp)

@[simp] theorem fxGroupBlock_lasts (v : W32) (s : State) :
    lasting (fxGroupBlock v s) = lasting s := by
  simp [fxGroupBlock]

@[simp] theorem startStrands_lasts (s : State) :
    lasting (startStrands s) = lasting s := by
  simp [startStrands]

@[simp] theorem drawSeed_lasts (s : State) :
    lasting (drawSeed s) = lasting s := by
  simp [drawSeed]

@[simp] theorem checkTags_lasts (s : State) :
    lasting (checkTags s) = lasting s := by
  simp [checkTags]

@[simp] theorem beginUp_lasts (s : State) :
    lasting (beginUp s) = lasting s := by
  simp [beginUp]

@[simp] theorem endUp_lasts (s : State) :
    lasting (endUp s) = lasting s := by
  simp [endUp]

@[simp] theorem endReverse_lasts (s : State) :
    lasting (endReverse s) = lasting s := by
  simp [endReverse]

/-! TwoWire.lean -/

@[simp] theorem queueCore_lasts (n : Nat) (q : TwReq) (s : State) : lasting (queueCore n q s) = lasting s := by
  unfold queueCore
  split
  · rw [twCoreEnd_lasts]; exact passGate_keeps ‹_›
  · rw [twServe_lasts, setTw_lasts]; exact passGate_keeps ‹_›

@[simp] theorem fxGo_lasts (n : Nat) (v : W32) (s : State) :
    lasting (fxGo n v s) = lasting s := by
  simp [fxGo]

@[simp] theorem twCount_lasts (n result : Nat) (s : State) :
    lasting (twCount n result s) = lasting s := by
  unfold twCount
  repeat' (first | (simp_all; done) | split | (refine (lasting_foldl _ ?_ _ _).trans ?_) | intro _ _ | dsimp only | simp only [lasting_mk, lasting_fold] | simp)

@[simp] theorem endTransaction_lasts (n result : Nat) (data : Bytes) (q : TwReq) (s : State) :
    lasting (endTransaction n result data q s) = lasting s := by
  unfold endTransaction
  repeat' (first | (simp_all; done) | split | (refine (lasting_foldl _ ?_ _ _).trans ?_) | intro _ _ | dsimp only | simp only [lasting_mk, lasting_fold] | simp)

@[simp] theorem fxSclTimeout_lasts (n : Nat) (s : State) :
    lasting (fxSclTimeout n s) = lasting s := by
  unfold fxSclTimeout
  repeat' (first | (simp_all; done) | split | (refine (lasting_foldl _ ?_ _ _).trans ?_) | intro _ _ | dsimp only | simp only [lasting_mk, lasting_fold] | simp)

@[simp] theorem goStuck_lasts (n : Nat) (s : State) :
    lasting (goStuck n s) = lasting s := by
  simp [goStuck]

@[simp] theorem fxResetRelease_lasts (n : Nat) (scl sda : Bool) (s : State) :
    lasting (fxResetRelease n scl sda s) = lasting s := by
  simp [fxResetRelease]

@[simp] theorem fxProtocolError_lasts (n : Nat) (pecError : Bool) (s : State) :
    lasting (fxProtocolError n pecError s) = lasting s := by
  simp [fxProtocolError]

@[simp] theorem fxTargetWrite_lasts (n : Nat) (data : Bytes) (s : State) :
    lasting (fxTargetWrite n data s) = lasting s := by
  simp [fxTargetWrite]

@[simp] theorem fxSelfTest_lasts (n : Nat) (pass : Bool) (s : State) :
    lasting (fxSelfTest n pass s) = lasting s := by
  simp [fxSelfTest]

@[simp] theorem fxTwCtrl_lasts (n : Nat) (v : W32) (s : State) :
    lasting (fxTwCtrl n v s) = lasting s := by
  simp [fxTwCtrl]

/-! Links.lean -/

@[simp] theorem linkGo_lasts (k : Nat) (st : PortSt) (s : State) :
    lasting (linkGo k st s) = lasting s := by
  simp [linkGo]

@[simp] theorem linkDown_lasts (k : Nat) (s : State) :
    lasting (linkDown k s) = lasting s := by
  simp [linkDown]

@[simp] theorem linkStart_lasts (k : Nat) (s : State) :
    lasting (linkStart k s) = lasting s := by
  simp [linkStart]

@[simp] theorem fxPortEnable_lasts (k : Nat) (s : State) :
    lasting (fxPortEnable k s) = lasting s := by
  simp [fxPortEnable]

@[simp] theorem fxPortDisable_lasts (k : Nat) (s : State) :
    lasting (fxPortDisable k s) = lasting s := by
  simp [fxPortDisable]

@[simp] theorem fxRetrain_lasts (k : Nat) (s : State) :
    lasting (fxRetrain k s) = lasting s := by
  simp [fxRetrain]

@[simp] theorem fxLanesTrained_lasts (k inv : Nat) (s : State) :
    lasting (fxLanesTrained k inv s) = lasting s := by
  simp [fxLanesTrained]

@[simp] theorem fxFlitAligned_lasts (certs : Bytes × Bytes) (k : Nat) (s : State) :
    lasting (fxFlitAligned certs k s) = lasting s := by
  simp [fxFlitAligned]

@[simp] theorem fxPortUp_lasts (k : Nat) (s : State) :
    lasting (fxPortUp k s) = lasting s := by
  simp [fxPortUp]

@[simp] theorem identGo_lasts (k : Nat) (s : State) :
    lasting (identGo k s) = lasting s := by
  simp [identGo]

@[simp] theorem identMismatch_lasts (k : Nat) (s : State) :
    lasting (identMismatch k s) = lasting s := by
  simp [identMismatch]

@[simp] theorem fxLinkId_lasts (k : Nat) (p : Bytes) (s : State) :
    lasting (fxLinkId k p s) = lasting s := by
  simp [fxLinkId]

@[simp] theorem fxIdentRecheck_lasts (j : Nat) (s : State) :
    lasting (fxIdentRecheck j s) = lasting s := by
  simp [fxIdentRecheck]

@[simp] theorem fxTrainingTimeout_lasts (k : Nat) (s : State) :
    lasting (fxTrainingTimeout k s) = lasting s := by
  simp [fxTrainingTimeout]

@[simp] theorem fxPortFailure_lasts (k : Nat) (align : Bool) (s : State) :
    lasting (fxPortFailure k align s) = lasting s := by
  simp [fxPortFailure]

@[simp] theorem fxRetrainComplete_lasts (k : Nat) (ok : Bool) (s : State) :
    lasting (fxRetrainComplete k ok s) = lasting s := by
  simp [fxRetrainComplete]

@[simp] theorem takeData_lasts (k : Nat) (f : Flit) (s : State) :
    lasting (takeData k f s) = lasting s := by
  unfold takeData
  repeat' (first | (simp_all; done) | split | (refine (lasting_foldl _ ?_ _ _).trans ?_) | intro _ _ | dsimp only | simp only [lasting_mk, lasting_fold] | simp)

@[simp] theorem compareTest_lasts (k : Nat) (f : Flit) (s : State) :
    lasting (compareTest k f s) = lasting s := by
  simp [compareTest]

@[simp] theorem sendNak_lasts (k : Nat) (s : State) :
    lasting (sendNak k s) = lasting s := by
  simp [sendNak]

@[simp] theorem acceptFlit_lasts (k : Nat) (f : Flit) (s : State) :
    lasting (acceptFlit k f s) = lasting s := by
  simp [acceptFlit]

@[simp] theorem countFec_lasts (corr uncorr : Nat) (s : State) :
    lasting (countFec corr uncorr s) = lasting s := by
  simp [countFec]

@[simp] theorem takeReturned_lasts (k : Nat) (h data : Bytes) (s : State) :
    lasting (takeReturned k h data s) = lasting s := by
  unfold takeReturned
  repeat' (first | (simp_all; done) | split | (refine (lasting_foldl _ ?_ _ _).trans ?_) | intro _ _ | dsimp only | simp only [lasting_mk, lasting_fold] | simp)

@[simp] theorem fxFlitReceived_lasts (k : Nat) (bytes : Bytes) (s : State) :
    lasting (fxFlitReceived k bytes s) = lasting s := by
  simp [fxFlitReceived]

@[simp] theorem fxNak_lasts (k seq : Nat) (s : State) :
    lasting (fxNak k seq s) = lasting s := by
  simp [fxNak]

@[simp] theorem loopBack_lasts (k : Nat) (s : State) :
    lasting (loopBack k s) = lasting s := by
  simp [loopBack]

@[simp] theorem generate_lasts (k : Nat) (s : State) :
    lasting (generate k s) = lasting s := by
  simp [generate]

@[simp] theorem fxCtrlSlot_lasts (k : Nat) (s : State) :
    lasting (fxCtrlSlot k s) = lasting s := by
  simp [fxCtrlSlot]

@[simp] theorem fxTrayStatus_lasts (s : State) :
    lasting (fxTrayStatus s) = lasting s := by
  simp [fxTrayStatus]

@[simp] theorem fxInject_lasts (m : Msg) (s : State) :
    lasting (fxInject m s) = lasting s := by
  unfold fxInject
  repeat' (first | (simp_all; done) | (have hh := sendNode_lasts _ (by assumption); simp_all; done) | split | (refine (lasting_foldl _ ?_ _ _).trans ?_) | intro _ _ | dsimp only | simp only [lasting_mk, lasting_fold] | simp)

@[simp] theorem keepTurn_lasts (f : Flit) (j : Nat) (s : State) :
    lasting (keepTurn f j s) = lasting s := by
  simp [keepTurn]

@[simp] theorem dropFlit_lasts (f : Flit) (s : State) :
    lasting (dropFlit f s) = lasting s := by
  simp [dropFlit]

@[simp] theorem forwardOn_lasts (k : Nat) (yx : Bool) (f : Flit) (s : State) :
    lasting (forwardOn k yx f s) = lasting s := by
  simp [forwardOn]

@[simp] theorem forwardStraight_lasts (k from_ : Nat) (f : Flit) (s : State) :
    lasting (forwardStraight k from_ f s) = lasting s := by
  simp [forwardStraight]

@[simp] theorem followTurn_lasts (k j : Nat) (f : Flit) (s : State) :
    lasting (followTurn k j f s) = lasting s := by
  simp [followTurn]

@[simp] theorem fxForward_lasts (k : Nat) (f : Flit) (s : State) : lasting (fxForward k f s) = lasting s := by
  have h1 : lasting (setPort k (fun p => { p with transit := p.transit.erase f }) s) = lasting s := by simp
  unfold fxForward
  generalize setPort k (fun p => { p with transit := p.transit.erase f }) s = s1 at h1
  dsimp only
  split
  · rw [bump_lasts, dropFlit_lasts, h1]
  split
  · rw [followTurn_lasts, h1]
  split
  · rw [forwardStraight_lasts, h1]
  split
  · rw [forwardOn_lasts, keepTurn_lasts, bump_lasts, h1]
  · rw [dropFlit_lasts, h1]

@[simp] theorem fxLinkNotice_lasts (j : Nat) (p : Bytes) (s : State) :
    lasting (fxLinkNotice j p s) = lasting s := by
  simp [fxLinkNotice]

@[simp] theorem fxLinkMap_lasts (j : Nat) (p : Bytes) (s : State) :
    lasting (fxLinkMap j p s) = lasting s := by
  simp [fxLinkMap]

@[simp] theorem fxTimeExchange_lasts (j : Nat) (s : State) :
    lasting (fxTimeExchange j s) = lasting s := by
  simp [fxTimeExchange]

@[simp] theorem fxTimeFlit_lasts (j : Nat) (payload : Bytes) (arrival : Nat) (s : State) :
    lasting (fxTimeFlit j payload arrival s) = lasting s := by
  simp [fxTimeFlit]

@[simp] theorem fxLoopReq_lasts (k : Nat) (payload : Bytes) (s : State) :
    lasting (fxLoopReq k payload s) = lasting s := by
  simp [fxLoopReq]

@[simp] theorem fxRouteCtrl_lasts (v : W32) (s : State) :
    lasting (fxRouteCtrl v s) = lasting s := by
  simp [fxRouteCtrl]

/-! Press.lean -/

@[simp] theorem handPlan_lasts (id home span : Nat) (s : State) :
    lasting (handPlan id home span s) = lasting s := by
  simp [handPlan]

@[simp] theorem allocAndStart_lasts (id : Nat) (s : State) :
    lasting (allocAndStart id s) = lasting s := by
  unfold allocAndStart
  repeat' (first | (simp_all; done) | split | (refine (lasting_foldl _ ?_ _ _).trans ?_) | intro _ _ | dsimp only | simp only [lasting_mk, lasting_fold] | simp)

@[simp] theorem fxPlanLoad_lasts (id : Nat) (s : State) :
    lasting (fxPlanLoad id s) = lasting s := by
  unfold fxPlanLoad
  repeat' (first | (simp_all; done) | split | (refine (lasting_foldl _ ?_ _ _).trans ?_) | intro _ _ | dsimp only | simp only [lasting_mk, lasting_fold] | simp)

@[simp] theorem undecided_lasts (id i : Nat) (s : State) :
    lasting (undecided id i s) = lasting s := by
  unfold undecided
  repeat' (first | (simp_all; done) | split | (refine (lasting_foldl _ ?_ _ _).trans ?_) | intro _ _ | dsimp only | simp only [lasting_mk, lasting_fold] | simp)

@[simp] theorem spreadPoison_lasts (id g : Nat) (s : State) :
    lasting (spreadPoison id g s) = lasting s := by
  unfold spreadPoison
  repeat' (first | (simp_all; done) | split | (refine (lasting_foldl _ ?_ _ _).trans ?_) | intro _ _ | dsimp only | simp only [lasting_mk, lasting_fold] | simp)

@[simp] theorem fxSourcePoison_lasts (c i : Nat) (still : Bool) (id : Nat) (s : State) :
    lasting (fxSourcePoison c i still id s) = lasting s := by
  have h1 : lasting (setBits (R.IRON_ERR c i) 16 (latchFault c 3 6 i s)) = lasting s := by
    rw [setBits_lasts, latchFault_lasts]
  unfold fxSourcePoison
  generalize setBits (R.IRON_ERR c i) 16 (latchFault c 3 6 i s) = s1 at h1
  split
  · rfl
  dsimp only
  split
  · rw [endPlan_lasts]
    refine (lasting_foldl _ (fun a k => undecided_lasts id k a) _ _).trans ?_
    rw [spreadPoison_lasts, h1]
  · refine (lasting_foldl _ (fun a r => pressReadPiece_lasts _ _ _ _ a) _ _).trans ?_
    rw [setCl_lasts, setCl_lasts]
    exact h1

@[simp] theorem fxCheckFailure_lasts (c i kind unit : Nat) (s : State) : lasting (fxCheckFailure c i kind unit s) = lasting s := by
  unfold fxCheckFailure
  dsimp only
  generalize h : setIrons c _ _ = w
  have hw : lasting w = lasting s := by
    rw [← h, setIrons_lasts, setBits_lasts, bump_lasts, latchFault_lasts]
  repeat' (first | rw [setCl_lasts] | rw [setIron_lasts] | rw [spreadPoison_lasts] | exact hw | split)

@[simp] theorem rerunPlan_lasts (c id : Nat) (s : State) :
    lasting (rerunPlan c id s) = lasting s := by
  simp [rerunPlan]

@[simp] theorem fxQuickTest_lasts (c : Nat) (pass : Bool) (id : Nat) (s : State) :
    lasting (fxQuickTest c pass id s) = lasting s := by
  simp [fxQuickTest]

@[simp] theorem fxSramScrub_lasts (c i corrected : Nat) (bad : Bool) (s : State) :
    lasting (fxSramScrub c i corrected bad s) = lasting s := by
  simp [fxSramScrub]

@[simp] theorem fxResume_lasts (c : Nat) (s : State) :
    lasting (fxResume c s) = lasting s := by
  simp [fxResume]

@[simp] theorem fxAbort_lasts (id : Nat) (s : State) :
    lasting (fxAbort id s) = lasting s := by
  simp [fxAbort]

@[simp] theorem clusterWrite_lasts (c off : Nat) (f : State → State) (s : State) (h_f : ∀ x0, lasting (f x0) = lasting x0) :
    lasting (clusterWrite c off f s) = lasting s := by
  simp [clusterWrite, h_f]

@[simp] theorem fxBridgeCtrl_lasts (c : Nat) (v : W32) (s : State) :
    lasting (fxBridgeCtrl c v s) = lasting s := by
  simp [fxBridgeCtrl]

@[simp] theorem fxClusterPowerUp_lasts (c : Nat) (s : State) :
    lasting (fxClusterPowerUp c s) = lasting s := by
  simp [fxClusterPowerUp]

@[simp] theorem fxClusterPowerDown_lasts (c : Nat) (s : State) :
    lasting (fxClusterPowerDown c s) = lasting s := by
  unfold fxClusterPowerDown
  repeat' (first | (simp_all; done) | split | (refine (lasting_foldl _ ?_ _ _).trans ?_) | intro _ _ | dsimp only | simp only [lasting_mk, lasting_fold] | simp)

/-! Meter.lean -/

@[simp] theorem addSample_lasts (r : Nat) (vc ic : Int) (s : State) :
    lasting (addSample r vc ic s) = lasting s := by
  simp [addSample]

@[simp] theorem tickMicro_lasts (s : State) :
    lasting (tickMicro s) = lasting s := by
  simp [tickMicro]

@[simp] theorem fxMeterSample_lasts (volts amps : List Int) (s : State) :
    lasting (fxMeterSample volts amps s) = lasting s := by
  simp [fxMeterSample]

@[simp] theorem fxTimeStep_lasts (by_ : Int) (s : State) :
    lasting (fxTimeStep by_ s) = lasting s := by
  simp [fxTimeStep]

@[simp] theorem fxAttribInterval_lasts (a : Nat) (p : Bytes) (s : State) :
    lasting (fxAttribInterval a p s) = lasting s := by
  simp [fxAttribInterval]

@[simp] theorem account_lasts (iv : Interval) (d : Draw) (alloc : Int) (u : Frac) (s : State) :
    lasting (account iv d alloc u s) = lasting s := by
  simp [account]

@[simp] theorem divideInterval_lasts (iv : Interval) (s : State) :
    lasting (divideInterval iv s) = lasting s := by
  simp [divideInterval]

@[simp] theorem signBatch_lasts (b : Batch) (s : State) :
    lasting (signBatch b s) = lasting s := by
  simp [signBatch]

@[simp] theorem startSweep_lasts (chs : List Nat) (s : State) :
    lasting (startSweep chs s) = lasting s := by
  unfold startSweep
  repeat' (first | (simp_all; done) | split | (refine (lasting_foldl _ ?_ _ _).trans ?_) | intro _ _ | dsimp only | simp only [lasting_mk, lasting_fold] | simp)

@[simp] theorem markDacs_lasts (dac : BitVec 16) (s : State) :
    lasting (markDacs dac s) = lasting s := by
  simp [markDacs]

@[simp] theorem fxChannelCal_lasts (w : Sweep) (ch : Nat) (g o : W32) (dac : Nat) (s : State) :
    lasting (fxChannelCal w ch g o dac s) = lasting s := by
  simp [fxChannelCal]

@[simp] theorem fxSweepEnd_lasts (w : Sweep) (s : State) :
    lasting (fxSweepEnd w s) = lasting s := by
  simp [fxSweepEnd]

/-! Memory.lean -/

@[simp] theorem poisonTo_lasts (m a : Nat) (s : State) :
    lasting (poisonTo m a s) = lasting s := by
  simp [poisonTo]

@[simp] theorem fxDramRead_lasts (a m : Nat) (e1 e2 : Bytes) (s : State) :
    lasting (fxDramRead a m e1 e2 s) = lasting s := by
  simp [fxDramRead]

@[simp] theorem fxDramWrite_lasts (a m : Nat) (data err : Bytes) (s : State) :
    lasting (fxDramWrite a m data err s) = lasting s := by
  simp [fxDramWrite]

@[simp] theorem onDram_lasts (a n m : Nat) (write : Bool) (data : Bytes) (f : State → State) (s : State) (h_f : ∀ x0, lasting (f x0) = lasting x0) :
    lasting (onDram a n m write data f s) = lasting s := by
  simp [onDram, h_f]

@[simp] theorem patrolOn_lasts (q : Nat) (s : State) :
    lasting (patrolOn q s) = lasting s := by
  simp [patrolOn]

@[simp] theorem fxScrubRead_lasts (q : Nat) (e1 e2 : Bytes) (s : State) :
    lasting (fxScrubRead q e1 e2 s) = lasting s := by
  unfold fxScrubRead
  repeat' (first | (simp_all; done) | (have hh := readWord_lasts _ _ (by assumption); simp_all; done) | split | (refine (lasting_foldl _ ?_ _ _).trans ?_) | intro _ _ | dsimp only | simp only [lasting_mk, lasting_fold] | simp)

@[simp] theorem startPass_lasts (s : State) :
    lasting (startPass s) = lasting s := by
  simp [startPass]

@[simp] theorem fxScrubNow_lasts (s : State) :
    lasting (fxScrubNow s) = lasting s := by
  simp [fxScrubNow]

@[simp] theorem onMemReg_lasts (off : Nat) (f : State → State) (s : State) (h_f : ∀ x0, lasting (f x0) = lasting x0) :
    lasting (onMemReg off f s) = lasting s := by
  simp [onMemReg, h_f]

@[simp] theorem fxScrubPeriod_lasts (v : W32) (s : State) :
    lasting (fxScrubPeriod v s) = lasting s := by
  simp [fxScrubPeriod]

@[simp] theorem fxPassEnd_lasts (q : Nat) (s : State) :
    lasting (fxPassEnd q s) = lasting s := by
  simp [fxPassEnd]

@[simp] theorem setDie_lasts (q d : Nat) (f : DieSens → DieSens) (s : State) :
    lasting (setDie q d f s) = lasting s := by
  simp [setDie]

@[simp] theorem dieRead_lasts (q : Nat) (temps : List Int) (s0 s : State) (d : Nat) :
    lasting (dieRead q temps s0 s d) = lasting s := by
  simp [dieRead]

@[simp] theorem enterBand_lasts (q b : Nat) (s : State) :
    lasting (enterBand q b s) = lasting s := by
  simp [enterBand]

@[simp] theorem fxDieTemps_lasts (q : Nat) (temps : List Int) (s : State) :
    lasting (fxDieTemps q temps s) = lasting s := by
  simp [fxDieTemps]

@[simp] theorem fxTraining_lasts (q : Nat) (ok : Bool) (s : State) :
    lasting (fxTraining q ok s) = lasting s := by
  simp [fxTraining]

@[simp] theorem fxZeroFill_lasts (q : Nat) (s : State) :
    lasting (fxZeroFill q s) = lasting s := by
  simp [fxZeroFill]

/-! Heat.lean -/

@[simp] theorem setRo_lasts (n : Nat) (f : Ro → Ro) (s : State) :
    lasting (setRo n f s) = lasting s := by
  simp [setRo]

@[simp] theorem convertAll_lasts (counts : List Nat) (temps : List Int) (s : State) :
    lasting (convertAll counts temps s) = lasting s := by
  simp [convertAll]

@[simp] theorem neighbours_lasts (s : State) (n : Nat) :
    lasting (neighbours s n) = lasting s := by
  simp [neighbours]

@[simp] theorem breakSensor_lasts (s : State) (n : Nat) :
    lasting (breakSensor s n) = lasting s := by
  simp [breakSensor]

@[simp] theorem countCool_lasts (s : State) :
    lasting (countCool s) = lasting s := by
  unfold countCool
  repeat' (first | (simp_all; done) | split | (refine (lasting_foldl _ ?_ _ _).trans ?_) | intro _ _ | dsimp only | simp only [lasting_mk, lasting_fold] | simp)

@[simp] theorem fxRingConversion_lasts (counts : List Nat) (temps : List Int) (s : State) :
    lasting (fxRingConversion counts temps s) = lasting s := by
  have h1 (xs : List Nat) (t : State) : lasting (xs.foldl neighbours t) = lasting t := lasting_foldl _ (by simp) _ _
  have h2 (xs : List Nat) (t : State) : lasting (xs.foldl breakSensor t) = lasting t := lasting_foldl _ (by simp) _ _
  unfold fxRingConversion
  dsimp only
  generalize h3 : List.foldl breakSensor _ _ = w
  have h4 : lasting w = lasting s := by rw [← h3, h2, h1, convertAll_lasts]
  clear h3
  repeat' (first | split | (simp only [aonTrip_lasts, hwTrip_lasts, countCool_lasts]; exact h4))

@[simp] theorem setDiode_lasts (d : Nat) (f : Sens → Sens) (s : State) :
    lasting (setDiode d f s) = lasting s := by
  simp [setDiode]

@[simp] theorem setTherm_lasts (t : Nat) (f : Sens → Sens) (s : State) :
    lasting (setTherm t f s) = lasting s := by
  simp [setTherm]

@[simp] theorem fxDiode_lasts (d : Nat) (r : Option Int) (s : State) :
    lasting (fxDiode d r s) = lasting s := by
  simp [fxDiode]

@[simp] theorem fxTherm_lasts (t ohms : Nat) (s : State) :
    lasting (fxTherm t ohms s) = lasting s := by
  simp [fxTherm]

@[simp] theorem fxInputClear_lasts (thermistor : Bool) (i : Nat) (s : State) :
    lasting (fxInputClear thermistor i s) = lasting s := by
  simp [fxInputClear]

@[simp] theorem fxTrim_lasts (s : State) (n : Nat) :
    lasting (fxTrim s n) = lasting s := by
  unfold fxTrim
  repeat' (first | (simp_all; done) | split | (refine (lasting_foldl _ ?_ _ _).trans ?_) | intro _ _ | dsimp only | simp only [lasting_mk, lasting_fold] | simp)

@[simp] theorem thermStep_lasts (s : State) (c : Nat) :
    lasting (thermStep s c) = lasting s := by
  simp [thermStep]

@[simp] theorem ageOverride_lasts (s : State) (c : Nat) :
    lasting (ageOverride s c) = lasting s := by
  simp [ageOverride]

@[simp] theorem fxRelease_lasts (s : State) :
    lasting (fxRelease s) = lasting s := by
  unfold fxRelease
  repeat' (first | (simp_all; done) | split | (refine (lasting_foldl _ ?_ _ _).trans ?_) | intro _ _ | dsimp only | simp only [lasting_mk, lasting_fold] | simp)

@[simp] theorem fxWdgWrite_lasts (v : W32) (s : State) :
    lasting (fxWdgWrite v s) = lasting s := by
  simp [fxWdgWrite]

@[simp] theorem fxChFail_lasts (c rpm : Nat) (s : State) :
    lasting (fxChFail c rpm s) = lasting s := by
  simp [fxChFail]

@[simp] theorem setRate_lasts (f rate : Nat) (s : State) :
    lasting (setRate f rate s) = lasting s := by
  simp [setRate]

@[simp] theorem fxFlowLow_lasts (f : Nat) (s : State) :
    lasting (fxFlowLow f s) = lasting s := by
  simp [fxFlowLow]

@[simp] theorem fxRecover_lasts (isFlow : Bool) (i speed : Nat) (s : State) :
    lasting (fxRecover isFlow i speed s) = lasting s := by
  simp [fxRecover]

@[simp] theorem fxTach_lasts (rpm rates : List Nat) (s : State) :
    lasting (fxTach rpm rates s) = lasting s := by
  simp [fxTach]

@[simp] theorem leakActs_lasts (z : Nat) (s : State) :
    lasting (leakActs z s) = lasting s := by
  simp [leakActs]

@[simp] theorem leakRespond_lasts (l : Nat) (s : State) :
    lasting (leakRespond l s) = lasting s := by
  simp [leakRespond]

@[simp] theorem fxLeakMeasure_lasts (l ins cont : Nat) (s : State) :
    lasting (fxLeakMeasure l ins cont s) = lasting s := by
  simp [fxLeakMeasure]

@[simp] theorem fxRelaxedEnd_lasts (l : Nat) (s : State) :
    lasting (fxRelaxedEnd l s) = lasting s := by
  simp [fxRelaxedEnd]

/-! Budget.lean -/

@[simp] theorem measure_lasts (s : State) :
    lasting (measure s) = lasting s := by
  simp [measure]

@[simp] theorem setThW_lasts (i n : Nat) (s : State) :
    lasting (setThW i n s) = lasting s := by
  simp [setThW]

@[simp] theorem stepThW_lasts (s : State) (i : Nat) :
    lasting (stepThW s i) = lasting s := by
  simp [stepThW]

@[simp] theorem noteActive_lasts (s : State) (i : Nat) :
    lasting (noteActive s i) = lasting s := by
  simp [noteActive]

@[simp] theorem sendGrant_lasts (held : Bool) (s : State) (a : Nat) :
    lasting (sendGrant held s a) = lasting s := by
  simp [sendGrant]

@[simp] theorem guardTakes_lasts (a g : Nat) (s : State) :
    lasting (guardTakes a g s) = lasting s := by
  simp [guardTakes]

@[simp] theorem clearRack_lasts (s : State) (a : Nat) :
    lasting (clearRack s a) = lasting s := by
  simp [clearRack]

@[simp] theorem grantAcc_lasts (held : Bool) (s : State) (a : Nat) :
    lasting (grantAcc held s a) = lasting s := by
  simp [grantAcc]

@[simp] theorem storeGrants_lasts (s : State) :
    lasting (storeGrants s) = lasting s := by
  simp [storeGrants]

@[simp] theorem capCluster_lasts (s : State) (c : Nat) :
    lasting (capCluster s c) = lasting s := by
  simp [capCluster]

@[simp] theorem setHold_lasts (h : Bool) (s : State) :
    lasting (setHold h s) = lasting s := by
  simp [setHold]

@[simp] theorem fxBudget_lasts (s : State) :
    lasting (fxBudget s) = lasting s := by
  simp [fxBudget]

@[simp] theorem fxHeldGrants_lasts (s : State) :
    lasting (fxHeldGrants s) = lasting s := by
  simp [fxHeldGrants]

@[simp] theorem fxDemand_lasts (a : Nat) (p : Bytes) (s : State) :
    lasting (fxDemand a p s) = lasting s := by
  simp [fxDemand]

@[simp] theorem fxGuardCompare_lasts (a w : Nat) (s : State) :
    lasting (fxGuardCompare a w s) = lasting s := by
  simp [fxGuardCompare]

@[simp] theorem fxGuardLevel_lasts (a : Nat) (s : State) :
    lasting (fxGuardLevel a s) = lasting s := by
  unfold fxGuardLevel
  repeat' (first | (simp_all; done) | split | (refine (lasting_foldl _ ?_ _ _).trans ?_) | intro _ _ | dsimp only | simp only [lasting_mk, lasting_fold] | simp)

@[simp] theorem fxCauseClear_lasts (a : Nat) (guard : Bool) (s : State) :
    lasting (fxCauseClear a guard s) = lasting s := by
  simp [fxCauseClear]

@[simp] theorem fxTraySummary_lasts (s : State) :
    lasting (fxTraySummary s) = lasting s := by
  simp [fxTraySummary]

@[simp] theorem setBal_lasts (a : Nat) (x : Int) (s : State) :
    lasting (setBal a x s) = lasting s := by
  simp [setBal]

@[simp] theorem creditAll_lasts (n : Nat) (s : State) :
    lasting (creditAll n s) = lasting s := by
  simp [creditAll]

@[simp] theorem releaseItem_lasts (w : WorkItem) (s : State) :
    lasting (releaseItem w s) = lasting s := by
  simp [releaseItem]

@[simp] theorem releaseGo_lasts (ws : List WorkItem) (held : Nat) (s : State) :
    lasting (releaseGo ws held s) = lasting s := by
  induction ws generalizing held s <;> unfold releaseGo <;> (repeat' (first | (simp_all; done) | split | (refine (lasting_foldl _ ?_ _ _).trans ?_) | intro _ _ | dsimp only | simp only [lasting_mk, lasting_fold] | simp))

@[simp] theorem agePlans_lasts (s : State) :
    lasting (agePlans s) = lasting s := by
  simp [agePlans]

theorem startPlan_lasts {p : Plan} {s : State} (t0 : State) (h0 : startPlan p s = some t0) : lasting t0 = lasting s := by
  unfold startPlan at h0
  dsimp only at h0
  split at h0
  · injection h0 with h0; rw [← h0, refusePlan_lasts]
  split at h0
  · split at h0
    · injection h0 with h0; rw [← h0, handPlan_lasts]
    · split at h0
      · cases h0
      · injection h0 with h0; rw [← h0, refusePlan_lasts]
  · obtain ⟨h, -, hh⟩ := Option.map_eq_some_iff.mp h0
    rw [← hh, handPlan_lasts]

@[simp] theorem startFirst_lasts (ps : List Plan) (s : State) :
    lasting (startFirst ps s) = lasting s := by
  induction ps generalizing s <;> unfold startFirst <;> (repeat' (first | (simp_all; done) | (have hh := startPlan_lasts _ (by assumption); simp_all; done) | split | (refine (lasting_foldl _ ?_ _ _).trans ?_) | intro _ _ | dsimp only | simp only [lasting_mk, lasting_fold] | simp))

@[simp] theorem screenAll_lasts (s : State) :
    lasting (screenAll s) = lasting s := by
  unfold screenAll
  repeat' (first | (simp_all; done) | split | (refine (lasting_foldl _ ?_ _ _).trans ?_) | intro _ _ | dsimp only | simp only [lasting_mk, lasting_fold] | simp)

@[simp] theorem assureLedger_lasts (s : State) :
    lasting (assureLedger s) = lasting s := by
  simp [assureLedger]

@[simp] theorem fxLedger_lasts (s : State) :
    lasting (fxLedger s) = lasting s := by
  simp [fxLedger]

/-! CfgLoad.lean -/

@[simp] theorem enrol_lasts (ks : List AuthKey) (s : State) :
    lasting (enrol ks s) = lasting s := by
  simp [enrol]

@[simp] theorem resetField_lasts (off : Nat) (s : State) :
    lasting (resetField off s) = lasting s := by
  unfold resetField
  repeat' (first | (simp_all; done) | split | (refine (lasting_foldl _ ?_ _ _).trans ?_) | intro _ _ | dsimp only | simp only [lasting_mk, lasting_fold] | simp)

@[simp] theorem loadRegSection_lasts (es : List RegEntry) (s : State) :
    lasting (loadRegSection es s) = lasting s := by
  simp [loadRegSection]

@[simp] theorem onChange_lasts (old : State) (off : Nat) (fx : W32 → State → State) (s : State) (h_fx : ∀ x0 x1, lasting (fx x0 x1) = lasting x1) :
    lasting (onChange old off fx s) = lasting s := by
  simp [onChange, h_fx]

@[simp] theorem onEnable_lasts (old : State) (k : Nat) (s : State) :
    lasting (onEnable old k s) = lasting s := by
  simp [onEnable]

@[simp] theorem identityEvent_lasts (s : State) :
    lasting (identityEvent s) = lasting s := by
  simp [identityEvent]

@[simp] theorem areaEvent_lasts (s : State) (r : Nat) :
    lasting (areaEvent s r) = lasting s := by
  simp [areaEvent]

@[simp] theorem windowEvent_lasts (s : State) : lasting (windowEvent s) = lasting s := by
  unfold windowEvent
  generalize badWindow s = b
  cases b with
  | none => rfl
  | some i => exact raise_lasts _ _ _ _ _

@[simp] theorem roleEvents_lasts (s : State) :
    lasting (roleEvents s) = lasting s := by
  simp [roleEvents]

@[simp] theorem regsFollow_lasts (old s : State) :
    lasting (regsFollow old s) = lasting s := by
  simp [regsFollow]

@[simp] theorem applyPress_lasts (p : Bytes) (s : State) :
    lasting (applyPress p s) = lasting s := by
  simp [applyPress]

@[simp] theorem applyFru_lasts (f : Bytes) (s : State) :
    lasting (applyFru f s) = lasting s := by
  simp [applyFru]

@[simp] theorem setOwner_lasts (r : Nat) (s : State) :
    lasting (setOwner r s) = lasting s := by
  simp [setOwner]

@[simp] theorem applyOwner_lasts (img : Bytes) (s : State) :
    lasting (applyOwner img s) = lasting s := by
  unfold applyOwner
  repeat' (first | (simp_all; done) | split | (refine (lasting_foldl _ ?_ _ _).trans ?_) | intro _ _ | dsimp only | simp only [lasting_mk, lasting_fold] | simp)

/-! Boot.lean -/

@[simp] theorem program_lasts (b : List (Nat × Bytes)) (s : State) :
    lasting (program b s) = lasting s := by
  unfold program
  repeat' (first | (simp_all; done) | split | (refine (lasting_foldl _ ?_ _ _).trans ?_) | intro _ _ | dsimp only | simp only [lasting_mk, lasting_fold] | simp)

@[simp] theorem recoverRecorder_lasts (adopt : Bool) (s : State) :
    lasting (recoverRecorder adopt s) = lasting s := by
  unfold recoverRecorder
  repeat' (first | (simp_all; done) | split | (refine (lasting_foldl _ ?_ _ _).trans ?_) | intro _ _ | dsimp only | simp only [lasting_mk, lasting_fold] | simp)

@[simp] theorem moduleTest_lasts (t : Nat) (s : State) :
    lasting (moduleTest t s) = lasting s := by
  simp [moduleTest]

@[simp] theorem drawChallenge_lasts (s : State) :
    lasting (drawChallenge s) = lasting s := by
  simp [drawChallenge]

@[simp] theorem batchEvent_lasts (s : State) :
    lasting (batchEvent s) = lasting s := by
  simp [batchEvent]

@[simp] theorem bootRom_lasts (s : State) :
    lasting (bootRom s) = lasting s := by
  simp [bootRom]

@[simp] theorem aonStarts_lasts (selfTest : Nat) (adopt : Bool) (s : State) :
    lasting (aonStarts selfTest adopt s) = lasting s := by
  simp [aonStarts]

@[simp] theorem fxSysrstRelease_lasts (selfTest : Nat) (adopt : Bool) (s : State) :
    lasting (fxSysrstRelease selfTest adopt s) = lasting s := by
  simp [fxSysrstRelease]

@[simp] theorem startPorts_lasts (s : State) :
    lasting (startPorts s) = lasting s := by
  simp [startPorts]

@[simp] theorem startManager_lasts (k : Nat) (s : State) :
    lasting (startManager k s) = lasting s := by
  simp [startManager]

@[simp] theorem enterStandby_lasts (s : State) :
    lasting (enterStandby s) = lasting s := by
  simp [enterStandby]

@[simp] theorem pfailTaken_lasts (s : State) :
    lasting (pfailTaken s) = lasting s := by
  simp [pfailTaken]

@[simp] theorem fxVstbyLow_lasts (s : State) :
    lasting (fxVstbyLow s) = lasting s := by
  simp [fxVstbyLow]

@[simp] theorem pfailReleased_lasts (s : State) :
    lasting (pfailReleased s) = lasting s := by
  simp [pfailReleased]

@[simp] theorem fxRefclkLost_lasts (s : State) :
    lasting (fxRefclkLost s) = lasting s := by
  simp [fxRefclkLost]

@[simp] theorem fxXtalStopped_lasts (s : State) :
    lasting (fxXtalStopped s) = lasting s := by
  simp [fxXtalStopped]

@[simp] theorem lineOff_lasts (s : State) :
    lasting (lineOff s) = lasting s := by
  simp [lineOff]

@[simp] theorem fxThrottleLow_lasts (s : State) :
    lasting (fxThrottleLow s) = lasting s := by
  simp [fxThrottleLow]

@[simp] theorem fxThrottleHigh_lasts (s : State) :
    lasting (fxThrottleHigh s) = lasting s := by
  simp [fxThrottleHigh]

@[simp] theorem leaveDown_lasts (s : State) :
    lasting (leaveDown s) = lasting s := by
  simp [leaveDown]

@[simp] theorem switchAgain_lasts (s : State) :
    lasting (switchAgain s) = lasting s := by
  simp [switchAgain]

@[simp] theorem fxReverseEnd_lasts (s : State) :
    lasting (fxReverseEnd s) = lasting s := by
  simp [fxReverseEnd]

@[simp] theorem fxAonEnd_lasts (s : State) :
    lasting (fxAonEnd s) = lasting s := by
  simp [fxAonEnd]

@[simp] theorem fxTripRestart_lasts (s : State) :
    lasting (fxTripRestart s) = lasting s := by
  simp [fxTripRestart]

@[simp] theorem fxDrained_lasts (i : Nat) (s : State) :
    lasting (fxDrained i s) = lasting s := by
  simp [fxDrained]

@[simp] theorem gradPair_lasts (s : State) (p : Nat) :
    lasting (gradPair s p) = lasting s := by
  simp [gradPair]

/-! Firmware.lean -/

@[simp] theorem reloadCore_lasts (k : Nat) (s : State) :
    lasting (reloadCore k s) = lasting s := by
  simp [reloadCore]

@[simp] theorem fxRestart_lasts (k : Nat) (s : State) :
    lasting (fxRestart k s) = lasting s := by
  unfold fxRestart
  repeat' (first | (simp_all; done) | split | (refine (lasting_foldl _ ?_ _ _).trans ?_) | intro _ _ | dsimp only | simp only [lasting_mk, lasting_fold] | simp)

@[simp] theorem movePointer_lasts (slot : Nat) (rollback : Bool) (s : State) :
    lasting (movePointer slot rollback s) = lasting s := by
  simp [movePointer]

@[simp] theorem fxStaged_lasts (slot : Nat) (img : Bytes) (s : State) :
    lasting (fxStaged slot img s) = lasting s := by
  simp [fxStaged]

@[simp] theorem fxFwStaged_lasts (cls slot : Nat) (img : Bytes) (s : State) :
    lasting (fxFwStaged cls slot img s) = lasting s := by
  simp [fxFwStaged]

@[simp] theorem fxBackstop_lasts (s : State) :
    lasting (fxBackstop s) = lasting s := by
  simp [fxBackstop]

@[simp] theorem endCtl_lasts (c st : Nat) (s : State) :
    lasting (endCtl c st s) = lasting s := by
  simp [endCtl]

@[simp] theorem fxSelftestEnd_lasts (c bad : Nat) (up down : Bool) (s : State) :
    lasting (fxSelftestEnd c bad up down s) = lasting s := by
  simp [fxSelftestEnd]

@[simp] theorem enterKey_lasts (node : Nat) (att : Bytes) (s : State) :
    lasting (enterKey node att s) = lasting s := by
  simp [enterKey]

@[simp] theorem passKeys_lasts (j : Nat) (id att : Bytes) (s : State) :
    lasting (passKeys j id att s) = lasting s := by
  simp [passKeys]

@[simp] theorem fxKeyCert_lasts (j : Nat) (p : Bytes) (s : State) :
    lasting (fxKeyCert j p s) = lasting s := by
  simp [fxKeyCert]

/-! Assure.lean -/

@[simp] theorem noteSelect_lasts (a job step g : Nat) (s : State) :
    lasting (noteSelect a job step g s) = lasting s := by
  simp [noteSelect]

@[simp] theorem fxStepOpen_lasts (a : Nat) (p : Bytes) (s : State) :
    lasting (fxStepOpen a p s) = lasting s := by
  simp [fxStepOpen]

@[simp] theorem acceptCapsule_lasts (c : Capsule) (s : State) :
    lasting (acceptCapsule c s) = lasting s := by
  simp [acceptCapsule]

@[simp] theorem fxCapsule_lasts (a : Nat) (p : Bytes) (s : State) :
    lasting (fxCapsule a p s) = lasting s := by
  simp [fxCapsule]

@[simp] theorem takeSeams_lasts (cls typ node : Nat) (p : Bytes) (s : State) :
    lasting (takeSeams cls typ node p s) = lasting s := by
  unfold takeSeams
  repeat' (first | (simp_all; done) | split | (refine (lasting_foldl _ ?_ _ _).trans ?_) | intro _ _ | dsimp only | simp only [lasting_mk, lasting_fold] | simp)

@[simp] theorem fxDelivered_lasts (c : Capsule) (s : State) :
    lasting (fxDelivered c s) = lasting s := by
  simp [fxDelivered]

@[simp] theorem fxDelegateCapsule_lasts (node : Nat) (p : Bytes) (s : State) :
    lasting (fxDelegateCapsule node p s) = lasting s := by
  simp [fxDelegateCapsule]

@[simp] theorem fxDarnOffer_lasts (j : Nat) (p : Bytes) (s : State) :
    lasting (fxDarnOffer j p s) = lasting s := by
  simp [fxDarnOffer]

@[simp] theorem fxDarnFetched_lasts (w : DarnWork) (s : State) :
    lasting (fxDarnFetched w s) = lasting s := by
  unfold fxDarnFetched
  repeat' (first | (simp_all; done) | split | (refine (lasting_foldl _ ?_ _ _).trans ?_) | intro _ _ | dsimp only | simp only [lasting_mk, lasting_fold] | simp)

@[simp] theorem fxDarnWant_lasts (j : Nat) (p : Bytes) (s : State) :
    lasting (fxDarnWant j p s) = lasting s := by
  simp [fxDarnWant]

@[simp] theorem fxScreenResult_lasts (a : Nat) (p : Bytes) (s : State) :
    lasting (fxScreenResult a p s) = lasting s := by
  unfold fxScreenResult
  repeat' (first | (simp_all; done) | split | (refine (lasting_foldl _ ?_ _ _).trans ?_) | intro _ _ | dsimp only | simp only [lasting_mk, lasting_fold] | simp)

/-! RegRead.lean -/

@[simp] theorem meterLatch_lasts (off : Nat) (s : State) :
    lasting (meterLatch off s) = lasting s := by
  unfold meterLatch
  repeat' (first | (simp_all; done) | split | (refine (lasting_foldl _ ?_ _ _).trans ?_) | intro _ _ | dsimp only | simp only [lasting_mk, lasting_fold] | simp)

/-! RegWrite.lean -/

@[simp] theorem storeReg_lasts (r : RegRow) (off : Nat) (v : W32) (s : State) :
    lasting (storeReg r off v s) = lasting s := by
  simp [storeReg]

@[simp] theorem kickCores_lasts (m : Nat) (v : W32) (s : State) :
    lasting (kickCores m v s) = lasting s := by
  simp [kickCores]

@[simp] theorem linkCtrl_lasts (k : Nat) (r : RegRow) (v : W32) (s : State) :
    lasting (linkCtrl k r v s) = lasting s := by
  simp [linkCtrl]

@[simp] theorem hlcWrite_lasts (v : W32) (s : State) :
    lasting (hlcWrite v s) = lasting s := by
  simp [hlcWrite]

@[simp] theorem clCtrl_lasts (c : Nat) (v : W32) (s : State) : lasting (clCtrl c v s) = lasting s := by
  unfold clCtrl
  dsimp only
  cases (cluster s c).plan <;> repeat' (first | split | (simp; done))

@[simp] theorem twXfer_lasts (n : Nat) (r : RegRow) (v : W32) (s : State) :
    lasting (twXfer n r v s) = lasting s := by
  simp [twXfer]

@[simp] theorem twStest_lasts (n : Nat) (v : W32) (s : State) :
    lasting (twStest n v s) = lasting s := by
  simp [twStest]

theorem effectLow_lasts {m off : Nat} {v : W32} {s : State} (t0 : State) (h0 : effectLow m off v s = some t0) :
    lasting t0 = lasting s := by
  unfold effectLow at h0
  repeat' (first | split at h0 | (cases h0; simp; done))
  obtain ⟨h, -, rfl⟩ := Option.map_eq_some_iff.mp h0
  simp

theorem effectTw_lasts {r : RegRow} {off : Nat} {v : W32} {s : State} (t0 : State) (h0 : effectTw r off v s = some t0) :
    lasting t0 = lasting s := by
  unfold effectTw at h0
  dsimp only at h0
  split at h0
  · cases h0
  split at h0
  · injection h0 with h0; rw [← h0]; exact fxTwCtrl_lasts _ _ _
  split at h0
  · injection h0 with h0; rw [← h0]; exact twXfer_lasts _ _ _ _
  split at h0
  · injection h0 with h0; rw [← h0]; exact twStest_lasts _ _ _
  · cases h0

theorem effectHigh_lasts {r : RegRow} {off : Nat} {v : W32} {s : State} (t0 : State)
    (h0 : effectHigh r off v s = some t0) : lasting t0 = lasting s := by
  unfold effectHigh at h0
  repeat' (first | split at h0 | (cases h0; simp; done))
  obtain ⟨h, -, rfl⟩ := Option.map_eq_some_iff.mp h0
  simp

@[simp] theorem afterStore_lasts (off : Nat) (s : State) :
    lasting (afterStore off s) = lasting s := by
  simp [afterStore]

@[simp] theorem regEffect_lasts (m off : Nat) (r : RegRow) (v : W32) (s : State) :
    lasting (regEffect m off r v s) = lasting s := by
  unfold regEffect
  repeat' (first | (simp_all; done) | (have hh := effectLow_lasts _ (by assumption); simp_all; done) | (have hh := effectTw_lasts _ (by assumption); simp_all; done) | (have hh := effectHigh_lasts _ (by assumption); simp_all; done) | split | (refine (lasting_foldl _ ?_ _ _).trans ?_) | intro _ _ | dsimp only | simp only [lasting_mk, lasting_fold] | simp)

@[simp] theorem writeReg_lasts (m : Nat) (bound : Bool) (off : Nat) (v : W32) (s : State) :
    lasting (writeReg m bound off v s) = lasting s := by
  unfold writeReg
  repeat' (first | (simp_all; done) | split | (refine (lasting_foldl _ ?_ _ _).trans ?_) | intro _ _ | dsimp only | simp only [lasting_mk, lasting_fold] | simp)

@[simp] theorem fxRegisterWrite_lasts (m a : Nat) (v : W32) (s : State) :
    lasting (fxRegisterWrite m a v s) = lasting s := by
  unfold fxRegisterWrite
  repeat' (first | (simp_all; done) | split | (refine (lasting_foldl _ ?_ _ _).trans ?_) | intro _ _ | dsimp only | simp only [lasting_mk, lasting_fold] | simp)

/-! Serve.lean -/

@[simp] theorem poisonFree_lasts (bad : List Nat) (bs : Bytes) (s : State) : lasting (poisonFree bad bs s).2 = lasting s := rfl

@[simp] theorem deliver_lasts (c a : Nat) (bs : Bytes) (bad : List Nat) (s : State) :
    lasting (deliver c a bs bad s) = lasting s := by
  simp [deliver]

@[simp] theorem sendData_lasts (tag : Nat) (bs : Bytes) (bad : List Nat) (s : State) :
    lasting (sendData tag bs bad s) = lasting s := by
  simp [sendData]

@[simp] theorem sendAck_lasts (tag : Nat) (s : State) :
    lasting (sendAck tag s) = lasting s := by
  simp [sendAck]

@[simp] theorem answerData_lasts (o : Owner) (base : Nat) (bs : Bytes) (bad : List Nat) (s : State) :
    lasting (answerData o base bs bad s) = lasting s := by
  unfold answerData
  repeat' (first | (simp_all; done) | split | (refine (lasting_foldl _ ?_ _ _).trans ?_) | intro _ _ | dsimp only | simp only [lasting_mk, lasting_fold] | simp)

@[simp] theorem answerAck_lasts (o : Owner) (s : State) :
    lasting (answerAck o s) = lasting s := by
  unfold answerAck
  repeat' (first | (simp_all; done) | split | (refine (lasting_foldl _ ?_ _ _).trans ?_) | intro _ _ | dsimp only | simp only [lasting_mk, lasting_fold] | simp)

@[simp] theorem accessFails_lasts (o : Owner) (n status : Nat) (s : State) :
    lasting (accessFails o n status s) = lasting s := by
  unfold accessFails
  repeat' (first | (simp_all; done) | (have hh := poisonFree_lasts _ (by assumption); simp_all; done) | split | (refine (lasting_foldl _ ?_ _ _).trans ?_) | intro _ _ | dsimp only | simp only [lasting_mk, lasting_fold] | simp)

@[simp] theorem answerLoad_lasts (o : Owner) (base d n : Nat) (s : State) :
    lasting (answerLoad o base d n s) = lasting s := by
  simp [answerLoad]

@[simp] theorem answerStore_lasts (o : Owner) (d : Nat) (bs : Bytes) (s : State) :
    lasting (answerStore o d bs s) = lasting s := by
  simp [answerStore]

@[simp] theorem fetchWords_lasts (k off : Nat) (s : State) : lasting (fetchWords k off s).2 = lasting s := by
  induction k generalizing off s with
  | zero => rfl
  | succ m ih =>
    unfold fetchWords
    dsimp only
    rw [ih]
    simp [readReg]

@[simp] theorem storeWords_lasts (m off : Nat) (bs : Bytes) (k : Nat) (s : State) :
    lasting (storeWords m off bs k s) = lasting s := by
  induction k generalizing m off bs s <;> unfold storeWords <;> (repeat' (first | (simp_all; done) | split | (refine (lasting_foldl _ ?_ _ _).trans ?_) | intro _ _ | dsimp only | simp only [lasting_mk, lasting_fold] | simp))

@[simp] theorem serveAbsent_lasts (o : Owner) (a : Nat) (s : State) :
    lasting (serveAbsent o a s) = lasting s := by
  simp [serveAbsent]

@[simp] theorem discard_lasts (m : Nat) (o : Owner) (a : Nat) (s : State) :
    lasting (discard m o a s) = lasting s := by
  simp [discard]

@[simp] theorem serveDecode_lasts (o : Owner) (a : Nat) (s : State) :
    lasting (serveDecode o a s) = lasting s := by
  simp [serveDecode]

@[simp] theorem serveDramRead_lasts (claims : Bool) (o : Owner) (a d n : Nat) (s : State) :
    lasting (serveDramRead claims o a d n s) = lasting s := by
  simp [serveDramRead]

@[simp] theorem serveDramWrite_lasts (claims : Bool) (m : Nat) (o : Owner) (a d : Nat) (bs : Bytes) (s : State) :
    lasting (serveDramWrite claims m o a d bs s) = lasting s := by
  simp [serveDramWrite]

@[simp] theorem serveRead_lasts (claims : Bool) (o : Owner) (a n : Nat) (s : State) :
    lasting (serveRead claims o a n s) = lasting s := by
  unfold serveRead
  repeat' (first | (simp_all; done) | (have hh := hostRead_lasts _ _ (by assumption); simp_all; done) | (have hh := fetchWords_lasts _ (by assumption); simp_all; done) | split | (refine (lasting_foldl _ ?_ _ _).trans ?_) | intro _ _ | dsimp only | simp only [lasting_mk, lasting_fold] | simp)

@[simp] theorem serveWrite_lasts (claims : Bool) (m : Nat) (o : Owner) (a : Nat) (bs : Bytes) (s : State) :
    lasting (serveWrite claims m o a bs s) = lasting s := by
  unfold serveWrite
  repeat' (first | (simp_all; done) | split | (refine (lasting_foldl _ ?_ _ _).trans ?_) | intro _ _ | dsimp only | simp only [lasting_mk, lasting_fold] | simp)

theorem hostPieces_keep (off : Nat) (image : Bytes) (l : List (Nat × Nat)) (s : State) (x : State × Bytes)
    (hx : lasting x.1 = lasting s) :
    lasting (l.foldl (fun r q => match hostRead q.1 q.2 (fun _ => .plain) r.1 with
      | (t, some bs) => (t, r.2 ++ bs)
      | (t, none) => (t, r.2 ++ fix q.2 (image.drop (q.1 - off)))) x).1 = lasting s := by
  induction l generalizing x with
  | nil => exact hx
  | cons q t ih =>
    refine ih _ ?_
    dsimp only
    split
    · exact (hostRead_lasts _ _ ‹_›).trans hx
    · exact (hostRead_lasts _ _ ‹_›).trans hx
@[simp] theorem hostImage_lasts_fst (off len : Nat) (image : Bytes) (s : State) : lasting (hostImage off len image s).1 = lasting s := by
  unfold hostImage
  exact hostPieces_keep _ _ _ _ _ rfl
theorem hostImage_lasts {off len : Nat} {image : Bytes} {s : State} (t0 : State) (y0 : Bytes) (h0 : hostImage off len image s = (t0, y0)) :
    lasting t0 = lasting s := by
  rw [← hostImage_lasts_fst off len image s, h0]

@[simp] theorem claimRead_lasts (d len : Nat) (s : State) :
    lasting (claimRead d len s) = lasting s := by
  simp [claimRead]

theorem fetchImage_lasts {a len : Nat} {image : Bytes} {s : State} (t0 : State) (y0 : Option Bytes) (h0 : fetchImage a len image s = (t0, y0)) :
    lasting t0 = lasting s := by
  unfold fetchImage at h0
  repeat' (first | (simp at h0; done) | split at h0 | (cases h0) | dsimp only at h0 | (simp_all; done) | (have hh := dramLoad_lasts _ _ (by assumption); simp_all; done) | (have hh := poisonFree_lasts _ (by assumption); simp_all; done) | (have hh := hostImage_lasts _ _ (by assumption); simp_all; done) | split | (refine (lasting_foldl _ ?_ _ _).trans ?_) | intro _ _ | dsimp only | simp only [lasting_mk, lasting_fold] | simp)

@[simp] theorem fetchImage_lasts_fst (a len : Nat) (image : Bytes) (s : State) :
    lasting (fetchImage a len image s).1 = lasting s := fetchImage_lasts _ _ rfl

@[simp] theorem portDenied_lasts (m a n : Nat) (write : Bool) (o : Owner) (s : State) :
    lasting (portDenied m a n write o s) = lasting s := by
  simp [portDenied]

@[simp] theorem servePort_lasts (k : Nat) (m : Msg) (write : Bool) (s : State) :
    lasting (servePort k m write s) = lasting s := by
  simp [servePort]

/-! PressRun.lean -/

@[simp] theorem fetchRegs_lasts (c off k : Nat) (s : State) :
    lasting (fetchRegs c off k s) = lasting s := by
  induction k generalizing c off s <;> unfold fetchRegs <;> (repeat' (first | (simp_all; done) | (have hh := fetchWords_lasts _ (by assumption); simp_all; done) | split | (refine (lasting_foldl _ ?_ _ _).trans ?_) | intro _ _ | dsimp only | simp only [lasting_mk, lasting_fold] | simp))

@[simp] theorem fetchPhaseRegs_lasts (p : Plan) (s : State) :
    lasting (fetchPhaseRegs p s) = lasting s := by
  unfold fetchPhaseRegs
  repeat' (first | (simp_all; done) | split | (refine (lasting_foldl _ ?_ _ _).trans ?_) | intro _ _ | dsimp only | simp only [lasting_mk, lasting_fold] | simp)

@[simp] theorem storeRegRun_lasts (m a : Nat) (bs : Bytes) (s : State) :
    lasting (storeRegRun m a bs s) = lasting s := by
  simp [storeRegRun]

@[simp] theorem flushRegs_lasts (s : State) :
    lasting (flushRegs s) = lasting s := by
  simp [flushRegs]

@[simp] theorem countCorrected_lasts (cs : List (Nat × Nat)) (s : State) :
    lasting (countCorrected cs s) = lasting s := by
  simp [countCorrected]

theorem runOne_keeps (id : Nat) (r : PhaseRun) (i : Nat) : lasting (runOne id r i).st = lasting r.st := by
  unfold runOne
  split
  · rfl
  dsimp only
  split
  · rfl
  split
  · rfl
  dsimp only
  refine (lasting_foldl _ ?_ _ _).trans ?_
  · intro a x
    repeat' (first | rfl | split | simp)
  · split <;> simp
theorem runPhase_keeps (id : Nat) (s : State) : lasting (runPhase id s).st = lasting s := by
  have h (l : List Nat) (r : PhaseRun) : lasting (l.foldl (runOne id) r).st = lasting r.st := by
    induction l generalizing r with
    | nil => rfl
    | cons x t ih => rw [List.foldl_cons, ih, runOne_keeps]
  unfold runPhase
  split
  · rfl
  · rw [h]
@[simp] theorem fxPhaseComplete_lasts (p : Plan) (corrected : List (Nat × Nat)) (s : State) :
    lasting (fxPhaseComplete p corrected s) = lasting s := by
  unfold fxPhaseComplete
  split
  · exact nextPhase_lasts _ _
  dsimp only
  generalize h : flushRegs _ = t
  have ht : lasting t = lasting s := by
    rw [← h, flushRegs_lasts, runPhase_keeps, fetchPhaseRegs_lasts, countCorrected_lasts]
  split
  · rw [endPlan_lasts, ht]
  split
  · split
    · rw [setPlan_lasts, ht]
    · rw [nextPhase_lasts, ht]
  · exact ht

@[simp] theorem reissue_lasts (r : Remote) (s : State) :
    lasting (reissue r s) = lasting s := by
  unfold reissue
  repeat' (first | (simp_all; done) | split | (refine (lasting_foldl _ ?_ _ _).trans ?_) | intro _ _ | dsimp only | simp only [lasting_mk, lasting_fold] | simp)

@[simp] theorem retryAbsent_lasts (p : Owner → Bool) (s : State) :
    lasting (retryAbsent p s) = lasting s := by
  simp [retryAbsent]

/-! Messages.lean -/

@[simp] theorem takeMsg_lasts (k : Nat) (m : Msg) (s : State) :
    lasting (takeMsg k m s) = lasting s := by
  simp [takeMsg]

@[simp] theorem onMsg_lasts (k : Nat) (h payload : Bytes) (fx : Msg → State → State) (s : State) (h_fx : ∀ x0 x1, lasting (fx x0 x1) = lasting x1) :
    lasting (onMsg k h payload fx s) = lasting s := by
  simp [onMsg, h_fx]

@[simp] theorem endRemote_lasts (r : Remote) (f : State → State) (s : State) (h_f : ∀ x0, lasting (f x0) = lasting x0) :
    lasting (endRemote r f s) = lasting s := by
  simp [endRemote, h_f]

@[simp] theorem fxRdData_lasts (k : Nat) (m : Msg) (s : State) :
    lasting (fxRdData k m s) = lasting s := by
  unfold fxRdData
  repeat' (first | (simp_all; done) | split | (refine (lasting_foldl _ ?_ _ _).trans ?_) | intro _ _ | dsimp only | simp only [lasting_mk, lasting_fold] | simp)

@[simp] theorem fxWrAck_lasts (k : Nat) (m : Msg) (s : State) :
    lasting (fxWrAck k m s) = lasting s := by
  unfold fxWrAck
  repeat' (first | (simp_all; done) | split | (refine (lasting_foldl _ ?_ _ _).trans ?_) | intro _ _ | dsimp only | simp only [lasting_mk, lasting_fold] | simp)

@[simp] theorem failRemote_lasts (r : Remote) (status : Nat) (s : State) :
    lasting (failRemote r status s) = lasting s := by
  simp [failRemote]

@[simp] theorem fxErr_lasts (k : Nat) (m : Msg) (s : State) :
    lasting (fxErr k m s) = lasting s := by
  unfold fxErr
  repeat' (first | (simp_all; done) | split | (refine (lasting_foldl _ ?_ _ _).trans ?_) | intro _ _ | dsimp only | simp only [lasting_mk, lasting_fold] | simp)

theorem deliverFwd_lasts {m : Msg} {s : State} (t0 : State) (h0 : deliverFwd m s = some t0) :
    lasting t0 = lasting s := by
  unfold deliverFwd at h0
  repeat' (first | (simp at h0; done) | split at h0 | (cases h0) | dsimp only at h0 | (simp_all; done) | split | (refine (lasting_foldl _ ?_ _ _).trans ?_) | intro _ _ | dsimp only | simp only [lasting_mk, lasting_fold] | simp)

@[simp] theorem fxFwd_lasts (k : Nat) (m : Msg) (s : State) : lasting (fxFwd k m s) = lasting s := by
  have ht (t : State) (x : Torus) : lasting { t with torus := x } = lasting t := rfl
  unfold fxFwd
  split
  · rename_i h
    split
    · rw [ht]
      split at h
      · exact deliverFwd_lasts _ h
      · exact sendNode_lasts _ h
    · split at h
      · exact deliverFwd_lasts _ h
      · exact sendNode_lasts _ h
  · rw [respond_lasts, bump_lasts]

@[simp] theorem fxOrder_lasts (k : Nat) (m : Msg) (s : State) :
    lasting (fxOrder k m s) = lasting s := by
  simp [fxOrder]

@[simp] theorem fxAccStatus_lasts (a : Nat) (p : Bytes) (s : State) :
    lasting (fxAccStatus a p s) = lasting s := by
  simp [fxAccStatus]

/-! HostFrames.lean -/

@[simp] theorem suNak_lasts (s : State) :
    lasting (suNak s) = lasting s := by
  simp [suNak]

@[simp] theorem suTakeNak_lasts (seq : Nat) (s : State) :
    lasting (suTakeNak seq s) = lasting s := by
  simp [suTakeNak]

@[simp] theorem suTakeErr_lasts (f : Frame) (s : State) :
    lasting (suTakeErr f s) = lasting s := by
  unfold suTakeErr
  repeat' (first | (simp_all; done) | split | (refine (lasting_foldl _ ?_ _ _).trans ?_) | intro _ _ | dsimp only | simp only [lasting_mk, lasting_fold] | simp)

@[simp] theorem suAccept_lasts (f : Frame) (s : State) :
    lasting (suAccept f s) = lasting s := by
  simp [suAccept]

@[simp] theorem fxFrameReceived_lasts (bytes : Bytes) (s : State) :
    lasting (fxFrameReceived bytes s) = lasting s := by
  simp [fxFrameReceived]

@[simp] theorem hostTag_lasts (f : Frame) (s : State) :
    lasting (hostTag f s) = lasting s := by
  simp [hostTag]

@[simp] theorem hostAdmits_lasts (f : Frame) (n : Nat) (write : Bool) (go : State → State) (s : State) (h_go : ∀ x0, lasting (go x0) = lasting x0) :
    lasting (hostAdmits f n write go s) = lasting s := by
  simp [hostAdmits, h_go]

@[simp] theorem fxHRd_lasts (f : Frame) (s : State) :
    lasting (fxHRd f s) = lasting s := by
  simp [fxHRd]

@[simp] theorem fxHWr_lasts (f : Frame) (s : State) :
    lasting (fxHWr f s) = lasting s := by
  simp [fxHWr]

@[simp] theorem writeBack_lasts (f : Frame) (s : State) :
    lasting (writeBack f s) = lasting s := by
  simp [writeBack]

@[simp] theorem fxHWb_lasts (f : Frame) (s : State) :
    lasting (fxHWb f s) = lasting s := by
  simp [fxHWb]

@[simp] theorem snoopLine_lasts (l : Nat) (s : State) :
    lasting (snoopLine l s) = lasting s := by
  unfold snoopLine
  repeat' (first | (simp_all; done) | split | (refine (lasting_foldl _ ?_ _ _).trans ?_) | intro _ _ | dsimp only | simp only [lasting_mk, lasting_fold] | simp)

@[simp] theorem fxSnpInv_lasts (f : Frame) (s : State) :
    lasting (fxSnpInv f s) = lasting s := by
  simp [fxSnpInv]

@[simp] theorem fillLine_lasts (l : Nat) (bs : Bytes) (bad : Bool) (s : State) :
    lasting (fillLine l bs bad s) = lasting s := by
  unfold fillLine
  repeat' (first | (simp_all; done) | split | (refine (lasting_foldl _ ?_ _ _).trans ?_) | intro _ _ | dsimp only | simp only [lasting_mk, lasting_fold] | simp)

@[simp] theorem fillLines_lasts (r : HostReq) (f : Frame) (s : State) :
    lasting (fillLines r f s) = lasting s := by
  simp [fillLines]

@[simp] theorem endRequest_lasts (r : HostReq) (f : State → State) (s : State) (h_f : ∀ x0, lasting (f x0) = lasting x0) :
    lasting (endRequest r f s) = lasting s := by
  simp [endRequest, h_f]

@[simp] theorem fxData_lasts (f : Frame) (s : State) :
    lasting (fxData f s) = lasting s := by
  unfold fxData
  repeat' (first | (simp_all; done) | split | (refine (lasting_foldl _ ?_ _ _).trans ?_) | intro _ _ | dsimp only | simp only [lasting_mk, lasting_fold] | simp)

@[simp] theorem claimed_lasts (r : HostReq) (s : State) :
    lasting (claimed r s) = lasting s := by
  unfold claimed
  repeat' (first | (simp_all; done) | split | (refine (lasting_foldl _ ?_ _ _).trans ?_) | intro _ _ | dsimp only | simp only [lasting_mk, lasting_fold] | simp)

@[simp] theorem fxGrant_lasts (f : Frame) (s : State) :
    lasting (fxGrant f s) = lasting s := by
  unfold fxGrant
  repeat' (first | (simp_all; done) | split | (refine (lasting_foldl _ ?_ _ _).trans ?_) | intro _ _ | dsimp only | simp only [lasting_mk, lasting_fold] | simp)

@[simp] theorem fxAck_lasts (f : Frame) (s : State) :
    lasting (fxAck f s) = lasting s := by
  unfold fxAck
  repeat' (first | (simp_all; done) | split | (refine (lasting_foldl _ ?_ _ _).trans ?_) | intro _ _ | dsimp only | simp only [lasting_mk, lasting_fold] | simp)

@[simp] theorem fxTimeFrame_lasts (p : Bytes) (s : State) :
    lasting (fxTimeFrame p s) = lasting s := by
  simp [fxTimeFrame]

@[simp] theorem fxFwdFrame_lasts (f : Frame) (s : State) : lasting (fxFwdFrame f s) = lasting s := by
  have ht (t : State) (x : Torus) : lasting { t with torus := x } = lasting t := rfl
  unfold fxFwdFrame
  dsimp only
  split
  · rename_i h
    rw [ht]
    split at h
    · exact deliverFwd_lasts _ h
    · exact sendNode_lasts _ h
  · rw [hostErr_lasts, bump_lasts]

/-! MailboxCmds.lean -/

@[simp] theorem fxTakeTimeout_lasts (n : Nat) (s : State) :
    lasting (fxTakeTimeout n s) = lasting s := by
  simp [fxTakeTimeout]

@[simp] theorem mctpSend_lasts (p tag : Nat) (bytes : Bytes) (s : State) :
    lasting (mctpSend p tag bytes s) = lasting s := by
  simp [mctpSend]

@[simp] theorem fxMctpOrder_lasts (p tag : Nat) (msg : Bytes) (s : State) :
    lasting (fxMctpOrder p tag msg s) = lasting s := by
  simp [fxMctpOrder]

@[simp] theorem mctpReply_lasts (p tag : Nat) (msg : Bytes) (cmd code : Nat) (data : Bytes) (s : State) :
    lasting (mctpReply p tag msg cmd code data s) = lasting s := by
  simp [mctpReply]

@[simp] theorem fxSetEid_lasts (p tag : Nat) (msg : Bytes) (s : State) :
    lasting (fxSetEid p tag msg s) = lasting s := by
  simp [fxSetEid]

@[simp] theorem fxMctpVersion_lasts (p tag : Nat) (msg : Bytes) (s : State) :
    lasting (fxMctpVersion p tag msg s) = lasting s := by
  simp [fxMctpVersion]

@[simp] theorem fxMctpVendor_lasts (p tag : Nat) (msg : Bytes) (s : State) :
    lasting (fxMctpVendor p tag msg s) = lasting s := by
  simp [fxMctpVendor]

/-! OrdersChip.lean -/

@[simp] theorem fxHello_lasts (n : Nat) (p : Bytes) (s : State) :
    lasting (fxHello n p s) = lasting s := by
  unfold fxHello
  repeat' (first | (simp_all; done) | split | (refine (lasting_foldl _ ?_ _ _).trans ?_) | intro _ _ | dsimp only | simp only [lasting_mk, lasting_fold] | simp)

@[simp] theorem fxPing_lasts (n : Nat) (p0 : Bytes) (s : State) :
    lasting (fxPing n p0 s) = lasting s := by
  simp [fxPing]

@[simp] theorem fxTrayQuery_lasts (n : Nat) (p0 : Bytes) (s : State) :
    lasting (fxTrayQuery n p0 s) = lasting s := by
  simp [fxTrayQuery]

@[simp] theorem fxGetId_lasts (n : Nat) (p0 : Bytes) (s : State) :
    lasting (fxGetId n p0 s) = lasting s := by
  simp [fxGetId]

@[simp] theorem fxRegRead_lasts (n : Nat) (p : Bytes) (s : State) : lasting (fxRegRead n p s) = lasting s := by
  unfold fxRegRead
  dsimp only
  split
  · simp
  split
  · simp
  split
  · simp
  split
  · simp
  · simp
  · rw [replyDone_lasts, fetchWords_lasts]

@[simp] theorem fxRegWrite_lasts (n : Nat) (p : Bytes) (s : State) :
    lasting (fxRegWrite n p s) = lasting s := by
  simp [fxRegWrite]

@[simp] theorem storeMasked_lasts (off v : Nat) (s : State) :
    lasting (storeMasked off v s) = lasting s := by
  unfold storeMasked
  repeat' (first | (simp_all; done) | split | (refine (lasting_foldl _ ?_ _ _).trans ?_) | intro _ _ | dsimp only | simp only [lasting_mk, lasting_fold] | simp)

@[simp] theorem fxIdentitySet_lasts (n : Nat) (p : Bytes) (s : State) :
    lasting (fxIdentitySet n p s) = lasting s := by
  simp [fxIdentitySet]

@[simp] theorem fxPeerWinSet_lasts (n : Nat) (p : Bytes) (s : State) :
    lasting (fxPeerWinSet n p s) = lasting s := by
  simp [fxPeerWinSet]

@[simp] theorem hlcOrder_lasts (on : Bool) (s : State) :
    lasting (hlcOrder on s) = lasting s := by
  simp [hlcOrder]

@[simp] theorem fxHlcCtrl_lasts (n : Nat) (p : Bytes) (s : State) :
    lasting (fxHlcCtrl n p s) = lasting s := by
  simp [fxHlcCtrl]

@[simp] theorem fxHcrSet_lasts (n : Nat) (p : Bytes) (s : State) :
    lasting (fxHcrSet n p s) = lasting s := by
  simp [fxHcrSet]

/-! OrdersPower.lean -/

@[simp] theorem raiseSwitch_lasts (s : State) :
    lasting (raiseSwitch s) = lasting s := by
  simp [raiseSwitch]

@[simp] theorem holdOn_lasts (s : State) :
    lasting (holdOn s) = lasting s := by
  simp [holdOn]

@[simp] theorem onGoes_lasts (s : State) :
    lasting (onGoes s) = lasting s := by
  simp [onGoes]

@[simp] theorem acceptOn_lasts (n : Nat) (s : State) :
    lasting (acceptOn n s) = lasting s := by
  simp [acceptOn]

@[simp] theorem trayOnActs_lasts (n : Nat) (s : State) :
    lasting (trayOnActs n s) = lasting s := by
  unfold trayOnActs
  repeat' (first | (simp_all; done) | split | (refine (lasting_foldl _ ?_ _ _).trans ?_) | intro _ _ | dsimp only | simp only [lasting_mk, lasting_fold] | simp)

@[simp] theorem fxTrayOn_lasts (n : Nat) (p0 : Bytes) (s : State) :
    lasting (fxTrayOn n p0 s) = lasting s := by
  simp [fxTrayOn]

@[simp] theorem fxTrayOff_lasts (n : Nat) (p0 : Bytes) (s : State) :
    lasting (fxTrayOff n p0 s) = lasting s := by
  simp [fxTrayOff]

@[simp] theorem setRackHold_lasts (a : Nat) (v : Bool) (s : State) :
    lasting (setRackHold a v s) = lasting s := by
  simp [setRackHold]

@[simp] theorem accPowerOn_lasts (n a : Nat) (s : State) :
    lasting (accPowerOn n a s) = lasting s := by
  simp [accPowerOn]

@[simp] theorem accPowerOff_lasts (n a : Nat) (s : State) :
    lasting (accPowerOff n a s) = lasting s := by
  simp [accPowerOff]

@[simp] theorem fxAccPower_lasts (n : Nat) (p : Bytes) (s : State) :
    lasting (fxAccPower n p s) = lasting s := by
  simp [fxAccPower]

@[simp] theorem fxRailQuery_lasts (n : Nat) (p : Bytes) (s : State) :
    lasting (fxRailQuery n p s) = lasting s := by
  unfold fxRailQuery
  repeat' (first | (simp_all; done) | split | (refine (lasting_foldl _ ?_ _ _).trans ?_) | intro _ _ | dsimp only | simp only [lasting_mk, lasting_fold] | simp)

@[simp] theorem fxReadRails_lasts (n : Nat) (p : Bytes) (s : State) :
    lasting (fxReadRails n p s) = lasting s := by
  unfold fxReadRails
  repeat' (first | (simp_all; done) | split | (refine (lasting_foldl _ ?_ _ _).trans ?_) | intro _ _ | dsimp only | simp only [lasting_mk, lasting_fold] | simp)

@[simp] theorem runtimeLoad_lasts (op : Nat) (bs : Bytes) (s : State) :
    lasting (runtimeLoad op bs s) = lasting s := by
  simp [runtimeLoad]

@[simp] theorem stitchLoaded_lasts (n : Nat) (img : Bytes) (s : State) :
    lasting (stitchLoaded n img s) = lasting s := by
  simp [stitchLoaded]

@[simp] theorem fxStitchLoad_lasts (n : Nat) (image p : Bytes) (s : State) :
    lasting (fxStitchLoad n image p s) = lasting s := by
  unfold fxStitchLoad
  repeat' (first | (simp_all; done) | (have hh := fetchImage_lasts _ _ (by assumption); simp_all; done) | split | (refine (lasting_foldl _ ?_ _ _).trans ?_) | intro _ _ | dsimp only | simp only [lasting_mk, lasting_fold] | simp)

@[simp] theorem slotsLoaded_lasts (n len : Nat) (t : Bytes) (s : State) :
    lasting (slotsLoaded n len t s) = lasting s := by
  simp [slotsLoaded]

@[simp] theorem fxSlotLoad_lasts (n : Nat) (image p : Bytes) (s : State) :
    lasting (fxSlotLoad n image p s) = lasting s := by
  unfold fxSlotLoad
  repeat' (first | (simp_all; done) | (have hh := fetchImage_lasts _ _ (by assumption); simp_all; done) | split | (refine (lasting_foldl _ ?_ _ _).trans ?_) | intro _ _ | dsimp only | simp only [lasting_mk, lasting_fold] | simp)

@[simp] theorem fxLoadSlots_lasts (n : Nat) (p0 : Bytes) (s : State) :
    lasting (fxLoadSlots n p0 s) = lasting s := by
  simp [fxLoadSlots]

@[simp] theorem fxReadSlots_lasts (n : Nat) (p0 : Bytes) (s : State) :
    lasting (fxReadSlots n p0 s) = lasting s := by
  simp [fxReadSlots]

@[simp] theorem fxFaillogRead_lasts (n : Nat) (p : Bytes) (s : State) :
    lasting (fxFaillogRead n p s) = lasting s := by
  simp [fxFaillogRead]

@[simp] theorem fxMargin_lasts (n : Nat) (trim : W32) (p : Bytes) (s : State) :
    lasting (fxMargin n trim p s) = lasting s := by
  simp [fxMargin]

/-! OrdersHeat.lean -/

@[simp] theorem fxMeterRead_lasts (n : Nat) (p : Bytes) (s : State) :
    lasting (fxMeterRead n p s) = lasting s := by
  unfold fxMeterRead
  repeat' (first | (simp_all; done) | split | (refine (lasting_foldl _ ?_ _ _).trans ?_) | intro _ _ | dsimp only | simp only [lasting_mk, lasting_fold] | simp)

@[simp] theorem fxReadEnergy_lasts (n : Nat) (p : Bytes) (s : State) :
    lasting (fxReadEnergy n p s) = lasting s := by
  unfold fxReadEnergy
  repeat' (first | (simp_all; done) | split | (refine (lasting_foldl _ ?_ _ _).trans ?_) | intro _ _ | dsimp only | simp only [lasting_mk, lasting_fold] | simp)

@[simp] theorem freeDelivered_lasts (s : State) :
    lasting (freeDelivered s) = lasting s := by
  simp [freeDelivered]

@[simp] theorem hostStream_lasts (k off : Nat) (bs : Bytes) (s : State) :
    lasting (hostStream k off bs s) = lasting s := by
  induction k generalizing off bs s <;> unfold hostStream <;> (repeat' (first | (simp_all; done) | split | (refine (lasting_foldl _ ?_ _ _).trans ?_) | intro _ _ | dsimp only | simp only [lasting_mk, lasting_fold] | simp))

@[simp] theorem deliverBatches_lasts (n dest : Nat) (bs : List Batch) (s : State) :
    lasting (deliverBatches n dest bs s) = lasting s := by
  simp [deliverBatches]

@[simp] theorem fxTicketFetch_lasts (n : Nat) (p : Bytes) (s : State) :
    lasting (fxTicketFetch n p s) = lasting s := by
  simp [fxTicketFetch]

@[simp] theorem fxBatchQuery_lasts (n : Nat) (p : Bytes) (s : State) :
    lasting (fxBatchQuery n p s) = lasting s := by
  unfold fxBatchQuery
  repeat' (first | (simp_all; done) | split | (refine (lasting_foldl _ ?_ _ _).trans ?_) | intro _ _ | dsimp only | simp only [lasting_mk, lasting_fold] | simp)

@[simp] theorem fxCalibrate_lasts (n : Nat) (p : Bytes) (s : State) :
    lasting (fxCalibrate n p s) = lasting s := by
  simp [fxCalibrate]

@[simp] theorem fxTimeSet_lasts (n : Nat) (p : Bytes) (s : State) :
    lasting (fxTimeSet n p s) = lasting s := by
  simp [fxTimeSet]

@[simp] theorem fxThermalQuery_lasts (n : Nat) (p0 : Bytes) (s : State) :
    lasting (fxThermalQuery n p0 s) = lasting s := by
  simp [fxThermalQuery]

@[simp] theorem fxReadTemps_lasts (n : Nat) (p0 : Bytes) (s : State) :
    lasting (fxReadTemps n p0 s) = lasting s := by
  simp [fxReadTemps]

@[simp] theorem fxCoolQuery_lasts (n : Nat) (p0 : Bytes) (s : State) :
    lasting (fxCoolQuery n p0 s) = lasting s := by
  simp [fxCoolQuery]

@[simp] theorem fxLeakQuery_lasts (n : Nat) (p0 : Bytes) (s : State) :
    lasting (fxLeakQuery n p0 s) = lasting s := by
  simp [fxLeakQuery]

@[simp] theorem coolOverride_lasts (n c d ms : Nat) (s : State) :
    lasting (coolOverride n c d ms s) = lasting s := by
  simp [coolOverride]

@[simp] theorem fxCoolOverride_lasts (n : Nat) (p : Bytes) (s : State) :
    lasting (fxCoolOverride n p s) = lasting s := by
  simp [fxCoolOverride]

@[simp] theorem fxSetFan_lasts (n : Nat) (p : Bytes) (s : State) :
    lasting (fxSetFan n p s) = lasting s := by
  simp [fxSetFan]

@[simp] theorem endResponse_lasts (z : Nat) (s : State) :
    lasting (endResponse z s) = lasting s := by
  simp [endResponse]

@[simp] theorem fxLeakReset_lasts (n : Nat) (p : Bytes) (s : State) :
    lasting (fxLeakReset n p s) = lasting s := by
  unfold fxLeakReset
  repeat' (first | (simp_all; done) | split | (refine (lasting_foldl _ ?_ _ _).trans ?_) | intro _ _ | dsimp only | simp only [lasting_mk, lasting_fold] | simp)

/-! OrdersSched.lean -/

@[simp] theorem setCaps_lasts (rack : Bool) (cap floor : Nat) (s : State) :
    lasting (setCaps rack cap floor s) = lasting s := by
  simp [setCaps]

@[simp] theorem fxCapSet_lasts (n : Nat) (p : Bytes) (s : State) :
    lasting (fxCapSet n p s) = lasting s := by
  simp [fxCapSet]

@[simp] theorem fxCapQuery_lasts (n : Nat) (p0 : Bytes) (s : State) :
    lasting (fxCapQuery n p0 s) = lasting s := by
  simp [fxCapQuery]

@[simp] theorem fxWorkSubmit_lasts (n : Nat) (p : Bytes) (s : State) :
    lasting (fxWorkSubmit n p s) = lasting s := by
  simp [fxWorkSubmit]

@[simp] theorem fxWorkCancel_lasts (n : Nat) (p : Bytes) (s : State) :
    lasting (fxWorkCancel n p s) = lasting s := by
  unfold fxWorkCancel
  repeat' (first | (simp_all; done) | split | (refine (lasting_foldl _ ?_ _ _).trans ?_) | intro _ _ | dsimp only | simp only [lasting_mk, lasting_fold] | simp)

@[simp] theorem fxLedgerQuery_lasts (n : Nat) (p0 : Bytes) (s : State) :
    lasting (fxLedgerQuery n p0 s) = lasting s := by
  simp [fxLedgerQuery]

@[simp] theorem fxAssurePolicy_lasts (n : Nat) (p : Bytes) (s : State) :
    lasting (fxAssurePolicy n p s) = lasting s := by
  simp [fxAssurePolicy]

@[simp] theorem fxReplayRegister_lasts (n : Nat) (p : Bytes) (s : State) :
    lasting (fxReplayRegister n p s) = lasting s := by
  unfold fxReplayRegister
  repeat' (first | (simp_all; done) | split | (refine (lasting_foldl _ ?_ _ _).trans ?_) | intro _ _ | dsimp only | simp only [lasting_mk, lasting_fold] | simp)

@[simp] theorem fxReplayRemove_lasts (n : Nat) (p : Bytes) (s : State) :
    lasting (fxReplayRemove n p s) = lasting s := by
  simp [fxReplayRemove]

@[simp] theorem fxJobQuery_lasts (n : Nat) (p : Bytes) (s : State) :
    lasting (fxJobQuery n p s) = lasting s := by
  unfold fxJobQuery
  repeat' (first | (simp_all; done) | split | (refine (lasting_foldl _ ?_ _ _).trans ?_) | intro _ _ | dsimp only | simp only [lasting_mk, lasting_fold] | simp)

@[simp] theorem rollbackJob_lasts (j : Nat) (l : Option Nat) (s : State) :
    lasting (rollbackJob j l s) = lasting s := by
  simp [rollbackJob]

@[simp] theorem fxJobRollback_lasts (n : Nat) (p : Bytes) (s : State) :
    lasting (fxJobRollback n p s) = lasting s := by
  unfold fxJobRollback
  repeat' (first | (simp_all; done) | split | (refine (lasting_foldl _ ?_ _ _).trans ?_) | intro _ _ | dsimp only | simp only [lasting_mk, lasting_fold] | simp)

@[simp] theorem fxJobClose_lasts (n : Nat) (p : Bytes) (s : State) :
    lasting (fxJobClose n p s) = lasting s := by
  unfold fxJobClose
  repeat' (first | (simp_all; done) | split | (refine (lasting_foldl _ ?_ _ _).trans ?_) | intro _ _ | dsimp only | simp only [lasting_mk, lasting_fold] | simp)

@[simp] theorem releaseCap_lasts (c : Capsule) (d : Nat) (s : State) :
    lasting (releaseCap c d s) = lasting s := by
  simp [releaseCap]

@[simp] theorem fxCapsuleRelease_lasts (n : Nat) (p : Bytes) (s : State) :
    lasting (fxCapsuleRelease n p s) = lasting s := by
  unfold fxCapsuleRelease
  repeat' (first | (simp_all; done) | split | (refine (lasting_foldl _ ?_ _ _).trans ?_) | intro _ _ | dsimp only | simp only [lasting_mk, lasting_fold] | simp)

@[simp] theorem fxAccUntag_lasts (n : Nat) (p : Bytes) (s : State) :
    lasting (fxAccUntag n p s) = lasting s := by
  simp [fxAccUntag]

@[simp] theorem fxDarnQuery_lasts (n : Nat) (p : Bytes) (s : State) :
    lasting (fxDarnQuery n p s) = lasting s := by
  simp [fxDarnQuery]

@[simp] theorem fxSelfUntag_lasts (n : Nat) (p0 : Bytes) (s : State) :
    lasting (fxSelfUntag n p0 s) = lasting s := by
  simp [fxSelfUntag]

@[simp] theorem submitHost_lasts (n addr len : Nat) (s : State) :
    lasting (submitHost n addr len s) = lasting s := by
  simp [submitHost]

@[simp] theorem fxPlanSubmit_lasts (n : Nat) (p : Bytes) (s : State) :
    lasting (fxPlanSubmit n p s) = lasting s := by
  simp [fxPlanSubmit]

@[simp] theorem fxPlanQuery_lasts (n : Nat) (q : Bytes) (s : State) :
    lasting (fxPlanQuery n q s) = lasting s := by
  unfold fxPlanQuery
  repeat' (first | (simp_all; done) | split | (refine (lasting_foldl _ ?_ _ _).trans ?_) | intro _ _ | dsimp only | simp only [lasting_mk, lasting_fold] | simp)

@[simp] theorem fxPlanAbort_lasts (n : Nat) (q : Bytes) (s : State) :
    lasting (fxPlanAbort n q s) = lasting s := by
  unfold fxPlanAbort
  repeat' (first | (simp_all; done) | split | (refine (lasting_foldl _ ?_ _ _).trans ?_) | intro _ _ | dsimp only | simp only [lasting_mk, lasting_fold] | simp)

@[simp] theorem ctrlFails_lasts (n c : Nat) (s : State) :
    lasting (ctrlFails n c s) = lasting s := by
  simp [ctrlFails]

@[simp] theorem ctrlSuspend_lasts (n c : Nat) (s : State) :
    lasting (ctrlSuspend n c s) = lasting s := by
  simp [ctrlSuspend]

@[simp] theorem ctrlResume_lasts (n c : Nat) (s : State) :
    lasting (ctrlResume n c s) = lasting s := by
  simp [ctrlResume]

@[simp] theorem ctrlTest_lasts (n c : Nat) (s : State) :
    lasting (ctrlTest n c s) = lasting s := by
  simp [ctrlTest]

@[simp] theorem fxClusterCtrl_lasts (n : Nat) (p : Bytes) (s : State) :
    lasting (fxClusterCtrl n p s) = lasting s := by
  simp [fxClusterCtrl]

/-! OrdersSec.lean -/

@[simp] theorem fxEventRead_lasts (n : Nat) (p : Bytes) (s : State) :
    lasting (fxEventRead n p s) = lasting s := by
  simp [fxEventRead]

@[simp] theorem fxEventClear_lasts (n : Nat) (p0 : Bytes) (s : State) :
    lasting (fxEventClear n p0 s) = lasting s := by
  simp [fxEventClear]

@[simp] theorem beginStage_lasts (n : Nat) (img : Bytes) (s : State) :
    lasting (beginStage n img s) = lasting s := by
  simp [beginStage]

@[simp] theorem stageChecked_lasts (n len : Nat) (img : Bytes) (s : State) :
    lasting (stageChecked n len img s) = lasting s := by
  simp [stageChecked]

@[simp] theorem fxConfigStage_lasts (n : Nat) (image p : Bytes) (s : State) :
    lasting (fxConfigStage n image p s) = lasting s := by
  unfold fxConfigStage
  repeat' (first | (simp_all; done) | (have hh := fetchImage_lasts _ _ (by assumption); simp_all; done) | split | (refine (lasting_foldl _ ?_ _ _).trans ?_) | intro _ _ | dsimp only | simp only [lasting_mk, lasting_fold] | simp)

@[simp] theorem deferCfg_lasts (n slot : Nat) (rollback : Bool) (s : State) :
    lasting (deferCfg n slot rollback s) = lasting s := by
  simp [deferCfg]

@[simp] theorem fxConfigActivate_lasts (n : Nat) (p : Bytes) (s : State) :
    lasting (fxConfigActivate n p s) = lasting s := by
  unfold fxConfigActivate
  repeat' (first | (simp_all; done) | split | (refine (lasting_foldl _ ?_ _ _).trans ?_) | intro _ _ | dsimp only | simp only [lasting_mk, lasting_fold] | simp)

@[simp] theorem fxConfigQuery_lasts (n : Nat) (p0 : Bytes) (s : State) :
    lasting (fxConfigQuery n p0 s) = lasting s := by
  simp [fxConfigQuery]

@[simp] theorem fxAttest_lasts (n : Nat) (p : Bytes) (s : State) :
    lasting (fxAttest n p s) = lasting s := by
  simp [fxAttest]

@[simp] theorem fxKeyQuery_lasts (n : Nat) (p : Bytes) (s : State) :
    lasting (fxKeyQuery n p s) = lasting s := by
  simp [fxKeyQuery]

@[simp] theorem fwStageChecked_lasts (n mask slot : Nat) (img : Bytes) (s : State) :
    lasting (fwStageChecked n mask slot img s) = lasting s := by
  simp [fwStageChecked]

@[simp] theorem fxFwStage_lasts (n : Nat) (image p : Bytes) (s : State) :
    lasting (fxFwStage n image p s) = lasting s := by
  unfold fxFwStage
  repeat' (first | (simp_all; done) | (have hh := fetchImage_lasts _ _ (by assumption); simp_all; done) | split | (refine (lasting_foldl _ ?_ _ _).trans ?_) | intro _ _ | dsimp only | simp only [lasting_mk, lasting_fold] | simp)

@[simp] theorem fxFwActivate_lasts (n : Nat) (p : Bytes) (s : State) :
    lasting (fxFwActivate n p s) = lasting s := by
  simp [fxFwActivate]

@[simp] theorem restartCore_lasts (k : Nat) (s : State) :
    lasting (restartCore k s) = lasting s := by
  simp [restartCore]

@[simp] theorem fxCoreRestart_lasts (n : Nat) (p : Bytes) (s : State) :
    lasting (fxCoreRestart n p s) = lasting s := by
  simp [fxCoreRestart]

@[simp] theorem fxUnpin_lasts (n : Nat) (p : Bytes) (s : State) :
    lasting (fxUnpin n p s) = lasting s := by
  simp [fxUnpin]

@[simp] theorem signWaiting_lasts (fuel : Nat) (s : State) :
    lasting (signWaiting fuel s) = lasting s := by
  induction fuel generalizing s <;> unfold signWaiting <;> (repeat' (first | (simp_all; done) | split | (refine (lasting_foldl _ ?_ _ _).trans ?_) | intro _ _ | dsimp only | simp only [lasting_mk, lasting_fold] | simp))

/-! What the rest does to the lasting values -/

@[simp] theorem applySections_lasts (img : Bytes) (s : State) : lasting (applySections img s) =
    lasting (tighten (leAt (cfgBytes img 5) 0 2) (leAt (cfgBytes img 5) 2 2) (leAt (cfgBytes img 5) 4 1)
      { s with cfg.loaded := img }) := by
  unfold applySections
  simp

theorem tightens_of_lasting {s t : State} (h : lasting t = lasting s) : Tightens s t := by
  simp only [lasting, Lasting.mk.injEq] at h
  obtain ⟨h1, -, -, h4, h5, h6, h7, h8, h9⟩ := h
  exact ⟨h1, Nat.le_of_eq h5, Nat.le_of_eq h6, Nat.le_of_eq h7, fun k => Nat.le_of_eq (by rw [h4]), Nat.le_of_eq h8.symm, fun h => by rw [h9, h]⟩

theorem Tightens.trans {s t u : State} (h : Tightens s t) (k : Tightens t u) : Tightens s u :=
  ⟨k.pending.trans h.pending, Nat.le_trans k.vcore h.vcore, Nat.le_trans k.iclk h.iclk, Nat.le_trans k.tj h.tj,
   fun i => Nat.le_trans (h.floor i) (k.floor i), Nat.le_trans h.epoch k.epoch, fun x => k.unlocked (h.unlocked x)⟩

theorem Tightens.of_eq {s t u : State} (h : Tightens s t) (k : lasting u = lasting t) : Tightens s u :=
  h.trans (tightens_of_lasting k)

theorem Tightens.on_eq {s s1 t : State} (k : lasting s1 = lasting s) (h : Tightens s1 t) : Tightens s t :=
  (tightens_of_lasting k).trans h

theorem tighten_tightens (v i t : Nat) (s : State) : Tightens s (tighten v i t s) := by
  have hlow (x old : Nat) : (if x = 0 then old else min x old) ≤ old := by split <;> omega
  have hg (a : Aon) (hv : a.vcoreEff ≤ s.aon.vcoreEff) (hi : a.iclkEff ≤ s.aon.iclkEff) (ht : a.tjEff ≤ s.aon.tjEff)
      (hf : a.svnFloor = s.aon.svnFloor) : Tightens s { s with aon := a } :=
    ⟨rfl, hv, hi, ht, fun k => Nat.le_of_eq (by rw [← hf]), Nat.le_refl _, fun h => h⟩
  have key (s1 : State) (h : Tightens s s1) : Tightens s (if s1.aon = s.aon then s else
      if (raise 11 6 noInst [] s1).aon.vcoreEff < (raise 11 6 noInst [] s1).aon.setMv then
        writeVcoreLimit { raise 11 6 noInst [] s1 with aon.vcoreCap := true } else raise 11 6 noInst [] s1) := by
    split
    · exact tightens_of_lasting rfl
    split
    · exact h.of_eq (by simp)
    · exact h.of_eq (by simp)
  exact key _ (hg _ (hlow _ _) (hlow _ _) (hlow _ _) rfl)

theorem applySections_tightens (img : Bytes) (s : State) : Tightens s (applySections img s) :=
  .of_eq (.on_eq (s1 := { s with cfg.loaded := img }) rfl (tighten_tightens _ _ _ _)) (applySections_lasts img s)

theorem bootConfig_tightens (s : State) : Tightens s (bootConfig s) := by
  unfold bootConfig
  dsimp only
  split
  · exact tightens_of_lasting rfl
  · refine .on_eq ?_ (applySections_tightens _ _)
    split <;> simp

theorem fxSecRunning_tightens (s : State) : Tightens s (fxSecRunning s) := by
  unfold fxSecRunning
  dsimp only
  generalize h : bootConfig _ = w
  have hw : Tightens s w := by
    rw [← h]
    exact .on_eq (by simp) (bootConfig_tightens _)
  split
  · exact hw
  · exact hw.of_eq (by simp)

theorem fxActivate_tightens (slot : Nat) (rb : Bool) (s : State) : Tightens s (fxActivate slot rb s) := by
  unfold fxActivate
  dsimp only
  generalize h : applySections _ _ = w
  have hw : Tightens s w := by
    rw [← h]
    exact .on_eq (by simp) (applySections_tightens _ _)
  split
  · exact tightens_of_lasting (by simp)
  · refine hw.of_eq ?_
    rw [finishLong_lasts]
    split <;> simp

theorem fxRollback_tightens (s : State) : Tightens s (fxRollback s) := by
  unfold fxRollback
  dsimp only
  split
  · generalize h : applySections _ _ = w
    have hw : Tightens s w := by
      rw [← h]
      refine .on_eq ?_ (applySections_tightens _ _)
      repeat' (first | split | (simp; done))
    exact hw.of_eq (by simp)
  · generalize h : applySections _ _ = w
    have hw : Tightens s w := by
      rw [← h]
      refine .on_eq ?_ (applySections_tightens _ _)
      repeat' (first | split | (simp; done))
    exact hw.of_eq (by simp)

theorem fxRollbackOrder_tightens (n : Nat) (p : Bytes) (s : State) : Tightens s (fxRollbackOrder n p s) := by
  have h1 (k : Nat) (b : Nat) : Tightens s (replyFail n b noDetail 1 (fxActivate k true s)) :=
    (fxActivate_tightens _ _ _).of_eq (replyFail_lasts _ _ _ _ _)
  have h2 (k : Nat) (b : Bytes) : Tightens s (replyDone n b (fxActivate k true s)) :=
    (fxActivate_tightens _ _ _).of_eq (replyDone_lasts _ _ _)
  unfold fxRollbackOrder
  split
  · exact tightens_of_lasting (replyFail_lasts _ _ _ _ _)
  split
  · exact tightens_of_lasting (replyFail_lasts _ _ _ _ _)
  split
  · exact tightens_of_lasting (deferCfg_lasts _ _ _ _)
  split
  · exact h1 _ _
  · exact h2 _ _

theorem fxStarchTighten_tightens (n : Nat) (p : Bytes) (s : State) : Tightens s (fxStarchTighten n p s) := by
  unfold fxStarchTighten
  dsimp only
  repeat' (first | (refine tightens_of_lasting ?_; simp; done) | (exact (tighten_tightens _ _ _ _).of_eq (replyDone_lasts _ _ _)) | split)

theorem fxProbationPass_tightens (k : Nat) (s : State) : Tightens s (fxProbationPass k s) := by
  unfold fxProbationPass
  dsimp only
  generalize fwSvn (coreSt s k).image = n
  refine .of_eq (t := { s with aon.svnFloor := SMap.set 0 s.aon.svnFloor (coreClass k) (max (s.aon.svnFloor.get 0 (coreClass k)) n) })
    ?_ (setCore_lasts _ _ _)
  refine ⟨rfl, Nat.le_refl _, Nat.le_refl _, Nat.le_refl _, fun i => ?_, Nat.le_refl _, fun h => h⟩
  simp only [SMap.get_set]
  split
  · subst_vars; exact Nat.le_max_left _ _
  · exact Nat.le_refl _

theorem unlock_tightens (s : State) : Tightens s (unlock s) := by
  unfold unlock
  dsimp only
  generalize h : (if secOperational s then signWaiting s.meter.batches.length s else s) = w
  have hw : Tightens s w := by
    rw [← h]
    refine tightens_of_lasting ?_
    split <;> simp
  refine (hw.trans ?_).of_eq (raise_lasts _ _ _ _ _)
  exact ⟨rfl, Nat.le_refl _, Nat.le_refl _, Nat.le_refl _, fun _ => Nat.le_refl _, Nat.le_succ _, fun _ => rfl⟩

theorem fxDebugUnlock_tightens (n : Nat) (p : Bytes) (s : State) : Tightens s (fxDebugUnlock n p s) := by
  unfold fxDebugUnlock
  repeat' (first | (refine tightens_of_lasting ?_; simp; done) | (exact (unlock_tightens _).of_eq (replyDone_lasts _ _ _)) | split)

theorem fxVaonRestored_tightens (t : Nat) (adopt : Bool) (s : State) : Tightens s (fxVaonRestored t adopt s) := by
  unfold fxVaonRestored
  dsimp only
  have hg (c : Chip) (n : Nat) (a : Assure) : Tightens s { s with chip := c, aon.powerCycles := n, assure := a } :=
    ⟨rfl, Nat.le_refl _, Nat.le_refl _, Nat.le_refl _, fun _ => Nat.le_refl _, Nat.le_refl _, fun h => h⟩
  split
  · exact hg _ _ _
  · exact (hg _ _ _).of_eq (aonStarts_lasts _ _ _)

theorem done_tightens {s u t : State} (h : done u = .next t) (k : Tightens s u) : Tightens s t := by
  unfold done at h
  injection h with h
  rw [← h]
  exact k.of_eq (settled_lasts u)

theorem takeOrder_tightens (n : Nat) (body : State → State) (s : State) (h : ∀ a, Tightens a (body a)) :
    Tightens s (takeOrder n body s) := by
  unfold takeOrder
  dsimp only
  split
  · exact tightens_of_lasting (replyFail_lasts _ _ _ _ _)
  split
  · refine tightens_of_lasting ?_
    simp
  · exact .on_eq (by simp) (h _)

theorem onOrder_tightens (op n : Nat) (body : Bytes → State → State) (s : State) (h : ∀ p a, Tightens a (body p a)) :
    Tightens s (onOrder op n body s) := by
  unfold onOrder
  split
  · exact takeOrder_tightens _ _ _ (h _)
  · exact tightens_of_lasting rfl

theorem onCommand_tightens (cmd n : Nat) (body : Bytes → State → State) (s : State) (h : ∀ p a, Tightens a (body p a)) :
    Tightens s (onCommand cmd n body s) := by
  unfold onCommand
  split
  · exact takeOrder_tightens _ _ _ (h _)
  · exact tightens_of_lasting rfl

end Sys2Proof.Machine
end

