-- ==== Sys2Proof/Laws/Memory.lean ====
section
/-! SUPPORT. The bytes of tray DRAM and of what a node holds from beyond it: reads after writes, and the canonical form. -/

namespace Sys2Proof.Machine

/-- A byte after a write: the new one inside the range, the old one outside. -/
theorem writeMap_get (m : SMap Byte) (a : Nat) (bs : Bytes) (x : Nat) :
    SMap.get 0 (writeMap m a bs) x = if a ≤ x ∧ x < a + bs.length then bs.getD (x - a) 0 else SMap.get 0 m x := by
  induction bs generalizing m a with
  | nil => rw [writeMap, if_neg (by simp)]
  | cons b t ih =>
    rw [writeMap, ih, SMap.get_set]
    by_cases h : a = x
    · subst h
      rw [if_neg (by omega), if_pos rfl, if_pos (by simp), Nat.sub_self]
      rfl
    · by_cases g : a + 1 ≤ x ∧ x < a + 1 + t.length
      · rw [if_pos g, if_pos (by simp; omega)]
        obtain ⟨j, hj⟩ : ∃ j, x - a = j + 1 := ⟨x - a - 1, by omega⟩
        rw [hj, List.getD_cons_succ, show x - (a + 1) = j by omega]
      · rw [if_neg g, if_neg (fun e => h e.symm), if_neg (by rw [List.length_cons]; omega)]

/-- Every write keeps the canonical form. -/
theorem writeMap_wf {m : SMap Byte} (h : SMap.wf 0 m = true) (a : Nat) (bs : Bytes) : SMap.wf 0 (writeMap m a bs) = true := by
  induction bs generalizing m a with
  | nil => exact h
  | cons b t ih => exact ih (SMap.wf_set h a b) (a + 1)

/-- Dropping what a predicate names keeps it. -/
theorem keep_wf {m : SMap Byte} (h : SMap.wf 0 m = true) (p : Nat → Bool) : SMap.wf 0 (SMap.keep m p) = true :=
  SMap.wf_filter h _

@[simp] theorem dramByte_dramPut (a : Nat) (bs : Bytes) (s : State) (x : Nat) :
    dramByte (dramPut a bs s) x = if a ≤ x ∧ x < a + bs.length then bs.getD (x - a) 0 else dramByte s x :=
  writeMap_get _ _ _ _

@[simp] theorem dramRead_length (s : State) (a n : Nat) : (dramRead s a n).length = n := by simp [dramRead]

end Sys2Proof.Machine
end

