-- ==== Sys2Proof/Laws/Orders.lean ====
section
/-! SUPPORT. What taking an order comes to: where it stands SUBMITTED, its core runs and it passes the checks 1 to 6 of R271,
its own part acts on the state in which it has been begun. -/

namespace Sys2Proof.Machine

/-- A taken version 3 order is its own part. -/
theorem onOrder_taken {s : State} {n op : Nat} (h : taken s n op = true) (body : Bytes → State → State) :
    onOrder op n body s = body (payload s n) (begun n s) := by
  simp only [taken, Bool.and_eq_true, Bool.not_eq_true', beq_iff_eq] at h
  obtain ⟨⟨h1, h2⟩, h3⟩ := h
  simp [onOrder, h1, takeOrder, h2, h3, payload, begun]

/-- A taken TAL2 command is its own part. -/
theorem onCommand_taken {s : State} {n cmd : Nat} (h : takenV2 s n cmd = true) (body : Bytes → State → State) :
    onCommand cmd n body s = body (payload s n) (begun n s) := by
  simp only [takenV2, Bool.and_eq_true, Bool.not_eq_true', beq_iff_eq] at h
  obtain ⟨⟨h1, h2⟩, h3⟩ := h
  simp [onCommand, h1, takeOrder, h2, h3, payload, begun]

/-- An order that does not stand SUBMITTED changes nothing. -/
theorem onOrder_absent {s : State} {n op : Nat} (h : orderStands s n op = false) (body : Bytes → State → State) :
    onOrder op n body s = s := by
  simp [onOrder, h]

/-- A TAL2 command that does not stand SUBMITTED changes nothing. -/
theorem onCommand_absent {s : State} {n cmd : Nat} (h : commandStands s n cmd = false) (body : Bytes → State → State) :
    onCommand cmd n body s = s := by
  simp [onCommand, h]

end Sys2Proof.Machine
end

