-- ==== Sys2Proof/Laws/State.lean ====
section
/-! SUPPORT. For each named update of one part of the state: that it leaves every other part alone, and what it leaves in its
own. -/

namespace Sys2Proof.Machine

/-! wr -/

@[simp] theorem wr_pending (off : Nat) (v : W32) (s : State) : (wr off v s).pending = s.pending := rfl
@[simp] theorem wr_fresh (off : Nat) (v : W32) (s : State) : (wr off v s).fresh = s.fresh := rfl
@[simp] theorem wr_chip (off : Nat) (v : W32) (s : State) : (wr off v s).chip = s.chip := rfl
@[simp] theorem wr_aon (off : Nat) (v : W32) (s : State) : (wr off v s).aon = s.aon := rfl
@[simp] theorem wr_sec (off : Nat) (v : W32) (s : State) : (wr off v s).sec = s.sec := rfl
@[simp] theorem wr_rcd (off : Nat) (v : W32) (s : State) : (wr off v s).rcd = s.rcd := rfl
@[simp] theorem wr_cfg (off : Nat) (v : W32) (s : State) : (wr off v s).cfg = s.cfg := rfl
@[simp] theorem wr_flash (off : Nat) (v : W32) (s : State) : (wr off v s).flash = s.flash := rfl
@[simp] theorem wr_st (off : Nat) (v : W32) (s : State) : (wr off v s).st = s.st := rfl
@[simp] theorem wr_tw (off : Nat) (v : W32) (s : State) : (wr off v s).tw = s.tw := rfl
@[simp] theorem wr_mem (off : Nat) (v : W32) (s : State) : (wr off v s).mem = s.mem := rfl
@[simp] theorem wr_time (off : Nat) (v : W32) (s : State) : (wr off v s).time = s.time := rfl
@[simp] theorem wr_press (off : Nat) (v : W32) (s : State) : (wr off v s).press = s.press := rfl
@[simp] theorem wr_meter (off : Nat) (v : W32) (s : State) : (wr off v s).meter = s.meter := rfl
@[simp] theorem wr_heat (off : Nat) (v : W32) (s : State) : (wr off v s).heat = s.heat := rfl
@[simp] theorem wr_budget (off : Nat) (v : W32) (s : State) : (wr off v s).budget = s.budget := rfl
@[simp] theorem wr_assure (off : Nat) (v : W32) (s : State) : (wr off v s).assure = s.assure := rfl
@[simp] theorem wr_ports (off : Nat) (v : W32) (s : State) : (wr off v s).ports = s.ports := rfl
@[simp] theorem wr_torus (off : Nat) (v : W32) (s : State) : (wr off v s).torus = s.torus := rfl
@[simp] theorem wr_su (off : Nat) (v : W32) (s : State) : (wr off v s).su = s.su := rfl
@[simp] theorem wr_mbx (off : Nat) (v : W32) (s : State) : (wr off v s).mbx = s.mbx := rfl
@[simp] theorem wr_mctpOut (off : Nat) (v : W32) (s : State) : (wr off v s).mctpOut = s.mctpOut := rfl
@[simp] theorem wr_longs (off : Nat) (v : W32) (s : State) : (wr off v s).longs = s.longs := rfl

/-! bumpBy -/

@[simp] theorem bumpBy_pending (off n : Nat) (s : State) : (bumpBy off n s).pending = s.pending := rfl
@[simp] theorem bumpBy_fresh (off n : Nat) (s : State) : (bumpBy off n s).fresh = s.fresh := rfl
@[simp] theorem bumpBy_chip (off n : Nat) (s : State) : (bumpBy off n s).chip = s.chip := rfl
@[simp] theorem bumpBy_aon (off n : Nat) (s : State) : (bumpBy off n s).aon = s.aon := rfl
@[simp] theorem bumpBy_sec (off n : Nat) (s : State) : (bumpBy off n s).sec = s.sec := rfl
@[simp] theorem bumpBy_rcd (off n : Nat) (s : State) : (bumpBy off n s).rcd = s.rcd := rfl
@[simp] theorem bumpBy_cfg (off n : Nat) (s : State) : (bumpBy off n s).cfg = s.cfg := rfl
@[simp] theorem bumpBy_flash (off n : Nat) (s : State) : (bumpBy off n s).flash = s.flash := rfl
@[simp] theorem bumpBy_st (off n : Nat) (s : State) : (bumpBy off n s).st = s.st := rfl
@[simp] theorem bumpBy_tw (off n : Nat) (s : State) : (bumpBy off n s).tw = s.tw := rfl
@[simp] theorem bumpBy_mem (off n : Nat) (s : State) : (bumpBy off n s).mem = s.mem := rfl
@[simp] theorem bumpBy_time (off n : Nat) (s : State) : (bumpBy off n s).time = s.time := rfl
@[simp] theorem bumpBy_press (off n : Nat) (s : State) : (bumpBy off n s).press = s.press := rfl
@[simp] theorem bumpBy_meter (off n : Nat) (s : State) : (bumpBy off n s).meter = s.meter := rfl
@[simp] theorem bumpBy_heat (off n : Nat) (s : State) : (bumpBy off n s).heat = s.heat := rfl
@[simp] theorem bumpBy_budget (off n : Nat) (s : State) : (bumpBy off n s).budget = s.budget := rfl
@[simp] theorem bumpBy_assure (off n : Nat) (s : State) : (bumpBy off n s).assure = s.assure := rfl
@[simp] theorem bumpBy_ports (off n : Nat) (s : State) : (bumpBy off n s).ports = s.ports := rfl
@[simp] theorem bumpBy_torus (off n : Nat) (s : State) : (bumpBy off n s).torus = s.torus := rfl
@[simp] theorem bumpBy_su (off n : Nat) (s : State) : (bumpBy off n s).su = s.su := rfl
@[simp] theorem bumpBy_mbx (off n : Nat) (s : State) : (bumpBy off n s).mbx = s.mbx := rfl
@[simp] theorem bumpBy_mctpOut (off n : Nat) (s : State) : (bumpBy off n s).mctpOut = s.mctpOut := rfl
@[simp] theorem bumpBy_longs (off n : Nat) (s : State) : (bumpBy off n s).longs = s.longs := rfl

/-! bump -/

@[simp] theorem bump_pending (off : Nat) (s : State) : (bump off s).pending = s.pending := rfl
@[simp] theorem bump_fresh (off : Nat) (s : State) : (bump off s).fresh = s.fresh := rfl
@[simp] theorem bump_chip (off : Nat) (s : State) : (bump off s).chip = s.chip := rfl
@[simp] theorem bump_aon (off : Nat) (s : State) : (bump off s).aon = s.aon := rfl
@[simp] theorem bump_sec (off : Nat) (s : State) : (bump off s).sec = s.sec := rfl
@[simp] theorem bump_rcd (off : Nat) (s : State) : (bump off s).rcd = s.rcd := rfl
@[simp] theorem bump_cfg (off : Nat) (s : State) : (bump off s).cfg = s.cfg := rfl
@[simp] theorem bump_flash (off : Nat) (s : State) : (bump off s).flash = s.flash := rfl
@[simp] theorem bump_st (off : Nat) (s : State) : (bump off s).st = s.st := rfl
@[simp] theorem bump_tw (off : Nat) (s : State) : (bump off s).tw = s.tw := rfl
@[simp] theorem bump_mem (off : Nat) (s : State) : (bump off s).mem = s.mem := rfl
@[simp] theorem bump_time (off : Nat) (s : State) : (bump off s).time = s.time := rfl
@[simp] theorem bump_press (off : Nat) (s : State) : (bump off s).press = s.press := rfl
@[simp] theorem bump_meter (off : Nat) (s : State) : (bump off s).meter = s.meter := rfl
@[simp] theorem bump_heat (off : Nat) (s : State) : (bump off s).heat = s.heat := rfl
@[simp] theorem bump_budget (off : Nat) (s : State) : (bump off s).budget = s.budget := rfl
@[simp] theorem bump_assure (off : Nat) (s : State) : (bump off s).assure = s.assure := rfl
@[simp] theorem bump_ports (off : Nat) (s : State) : (bump off s).ports = s.ports := rfl
@[simp] theorem bump_torus (off : Nat) (s : State) : (bump off s).torus = s.torus := rfl
@[simp] theorem bump_su (off : Nat) (s : State) : (bump off s).su = s.su := rfl
@[simp] theorem bump_mbx (off : Nat) (s : State) : (bump off s).mbx = s.mbx := rfl
@[simp] theorem bump_mctpOut (off : Nat) (s : State) : (bump off s).mctpOut = s.mctpOut := rfl
@[simp] theorem bump_longs (off : Nat) (s : State) : (bump off s).longs = s.longs := rfl

/-! setBits -/

@[simp] theorem setBits_pending (off m : Nat) (s : State) : (setBits off m s).pending = s.pending := rfl
@[simp] theorem setBits_fresh (off m : Nat) (s : State) : (setBits off m s).fresh = s.fresh := rfl
@[simp] theorem setBits_chip (off m : Nat) (s : State) : (setBits off m s).chip = s.chip := rfl
@[simp] theorem setBits_aon (off m : Nat) (s : State) : (setBits off m s).aon = s.aon := rfl
@[simp] theorem setBits_sec (off m : Nat) (s : State) : (setBits off m s).sec = s.sec := rfl
@[simp] theorem setBits_rcd (off m : Nat) (s : State) : (setBits off m s).rcd = s.rcd := rfl
@[simp] theorem setBits_cfg (off m : Nat) (s : State) : (setBits off m s).cfg = s.cfg := rfl
@[simp] theorem setBits_flash (off m : Nat) (s : State) : (setBits off m s).flash = s.flash := rfl
@[simp] theorem setBits_st (off m : Nat) (s : State) : (setBits off m s).st = s.st := rfl
@[simp] theorem setBits_tw (off m : Nat) (s : State) : (setBits off m s).tw = s.tw := rfl
@[simp] theorem setBits_mem (off m : Nat) (s : State) : (setBits off m s).mem = s.mem := rfl
@[simp] theorem setBits_time (off m : Nat) (s : State) : (setBits off m s).time = s.time := rfl
@[simp] theorem setBits_press (off m : Nat) (s : State) : (setBits off m s).press = s.press := rfl
@[simp] theorem setBits_meter (off m : Nat) (s : State) : (setBits off m s).meter = s.meter := rfl
@[simp] theorem setBits_heat (off m : Nat) (s : State) : (setBits off m s).heat = s.heat := rfl
@[simp] theorem setBits_budget (off m : Nat) (s : State) : (setBits off m s).budget = s.budget := rfl
@[simp] theorem setBits_assure (off m : Nat) (s : State) : (setBits off m s).assure = s.assure := rfl
@[simp] theorem setBits_ports (off m : Nat) (s : State) : (setBits off m s).ports = s.ports := rfl
@[simp] theorem setBits_torus (off m : Nat) (s : State) : (setBits off m s).torus = s.torus := rfl
@[simp] theorem setBits_su (off m : Nat) (s : State) : (setBits off m s).su = s.su := rfl
@[simp] theorem setBits_mbx (off m : Nat) (s : State) : (setBits off m s).mbx = s.mbx := rfl
@[simp] theorem setBits_mctpOut (off m : Nat) (s : State) : (setBits off m s).mctpOut = s.mctpOut := rfl
@[simp] theorem setBits_longs (off m : Nat) (s : State) : (setBits off m s).longs = s.longs := rfl

/-! clrBits -/

@[simp] theorem clrBits_pending (off m : Nat) (s : State) : (clrBits off m s).pending = s.pending := rfl
@[simp] theorem clrBits_fresh (off m : Nat) (s : State) : (clrBits off m s).fresh = s.fresh := rfl
@[simp] theorem clrBits_chip (off m : Nat) (s : State) : (clrBits off m s).chip = s.chip := rfl
@[simp] theorem clrBits_aon (off m : Nat) (s : State) : (clrBits off m s).aon = s.aon := rfl
@[simp] theorem clrBits_sec (off m : Nat) (s : State) : (clrBits off m s).sec = s.sec := rfl
@[simp] theorem clrBits_rcd (off m : Nat) (s : State) : (clrBits off m s).rcd = s.rcd := rfl
@[simp] theorem clrBits_cfg (off m : Nat) (s : State) : (clrBits off m s).cfg = s.cfg := rfl
@[simp] theorem clrBits_flash (off m : Nat) (s : State) : (clrBits off m s).flash = s.flash := rfl
@[simp] theorem clrBits_st (off m : Nat) (s : State) : (clrBits off m s).st = s.st := rfl
@[simp] theorem clrBits_tw (off m : Nat) (s : State) : (clrBits off m s).tw = s.tw := rfl
@[simp] theorem clrBits_mem (off m : Nat) (s : State) : (clrBits off m s).mem = s.mem := rfl
@[simp] theorem clrBits_time (off m : Nat) (s : State) : (clrBits off m s).time = s.time := rfl
@[simp] theorem clrBits_press (off m : Nat) (s : State) : (clrBits off m s).press = s.press := rfl
@[simp] theorem clrBits_meter (off m : Nat) (s : State) : (clrBits off m s).meter = s.meter := rfl
@[simp] theorem clrBits_heat (off m : Nat) (s : State) : (clrBits off m s).heat = s.heat := rfl
@[simp] theorem clrBits_budget (off m : Nat) (s : State) : (clrBits off m s).budget = s.budget := rfl
@[simp] theorem clrBits_assure (off m : Nat) (s : State) : (clrBits off m s).assure = s.assure := rfl
@[simp] theorem clrBits_ports (off m : Nat) (s : State) : (clrBits off m s).ports = s.ports := rfl
@[simp] theorem clrBits_torus (off m : Nat) (s : State) : (clrBits off m s).torus = s.torus := rfl
@[simp] theorem clrBits_su (off m : Nat) (s : State) : (clrBits off m s).su = s.su := rfl
@[simp] theorem clrBits_mbx (off m : Nat) (s : State) : (clrBits off m s).mbx = s.mbx := rfl
@[simp] theorem clrBits_mctpOut (off m : Nat) (s : State) : (clrBits off m s).mctpOut = s.mctpOut := rfl
@[simp] theorem clrBits_longs (off m : Nat) (s : State) : (clrBits off m s).longs = s.longs := rfl

/-! wrFld -/

@[simp] theorem wrFld_pending (off hi lo v : Nat) (s : State) : (wrFld off hi lo v s).pending = s.pending := rfl
@[simp] theorem wrFld_fresh (off hi lo v : Nat) (s : State) : (wrFld off hi lo v s).fresh = s.fresh := rfl
@[simp] theorem wrFld_chip (off hi lo v : Nat) (s : State) : (wrFld off hi lo v s).chip = s.chip := rfl
@[simp] theorem wrFld_aon (off hi lo v : Nat) (s : State) : (wrFld off hi lo v s).aon = s.aon := rfl
@[simp] theorem wrFld_sec (off hi lo v : Nat) (s : State) : (wrFld off hi lo v s).sec = s.sec := rfl
@[simp] theorem wrFld_rcd (off hi lo v : Nat) (s : State) : (wrFld off hi lo v s).rcd = s.rcd := rfl
@[simp] theorem wrFld_cfg (off hi lo v : Nat) (s : State) : (wrFld off hi lo v s).cfg = s.cfg := rfl
@[simp] theorem wrFld_flash (off hi lo v : Nat) (s : State) : (wrFld off hi lo v s).flash = s.flash := rfl
@[simp] theorem wrFld_st (off hi lo v : Nat) (s : State) : (wrFld off hi lo v s).st = s.st := rfl
@[simp] theorem wrFld_tw (off hi lo v : Nat) (s : State) : (wrFld off hi lo v s).tw = s.tw := rfl
@[simp] theorem wrFld_mem (off hi lo v : Nat) (s : State) : (wrFld off hi lo v s).mem = s.mem := rfl
@[simp] theorem wrFld_time (off hi lo v : Nat) (s : State) : (wrFld off hi lo v s).time = s.time := rfl
@[simp] theorem wrFld_press (off hi lo v : Nat) (s : State) : (wrFld off hi lo v s).press = s.press := rfl
@[simp] theorem wrFld_meter (off hi lo v : Nat) (s : State) : (wrFld off hi lo v s).meter = s.meter := rfl
@[simp] theorem wrFld_heat (off hi lo v : Nat) (s : State) : (wrFld off hi lo v s).heat = s.heat := rfl
@[simp] theorem wrFld_budget (off hi lo v : Nat) (s : State) : (wrFld off hi lo v s).budget = s.budget := rfl
@[simp] theorem wrFld_assure (off hi lo v : Nat) (s : State) : (wrFld off hi lo v s).assure = s.assure := rfl
@[simp] theorem wrFld_ports (off hi lo v : Nat) (s : State) : (wrFld off hi lo v s).ports = s.ports := rfl
@[simp] theorem wrFld_torus (off hi lo v : Nat) (s : State) : (wrFld off hi lo v s).torus = s.torus := rfl
@[simp] theorem wrFld_su (off hi lo v : Nat) (s : State) : (wrFld off hi lo v s).su = s.su := rfl
@[simp] theorem wrFld_mbx (off hi lo v : Nat) (s : State) : (wrFld off hi lo v s).mbx = s.mbx := rfl
@[simp] theorem wrFld_mctpOut (off hi lo v : Nat) (s : State) : (wrFld off hi lo v s).mctpOut = s.mctpOut := rfl
@[simp] theorem wrFld_longs (off hi lo v : Nat) (s : State) : (wrFld off hi lo v s).longs = s.longs := rfl

/-! takeFresh -/

@[simp] theorem takeFresh_pending (s : State) : (takeFresh s).pending = s.pending := rfl
@[simp] theorem takeFresh_regs (s : State) : (takeFresh s).regs = s.regs := rfl
@[simp] theorem takeFresh_chip (s : State) : (takeFresh s).chip = s.chip := rfl
@[simp] theorem takeFresh_aon (s : State) : (takeFresh s).aon = s.aon := rfl
@[simp] theorem takeFresh_sec (s : State) : (takeFresh s).sec = s.sec := rfl
@[simp] theorem takeFresh_rcd (s : State) : (takeFresh s).rcd = s.rcd := rfl
@[simp] theorem takeFresh_cfg (s : State) : (takeFresh s).cfg = s.cfg := rfl
@[simp] theorem takeFresh_flash (s : State) : (takeFresh s).flash = s.flash := rfl
@[simp] theorem takeFresh_st (s : State) : (takeFresh s).st = s.st := rfl
@[simp] theorem takeFresh_tw (s : State) : (takeFresh s).tw = s.tw := rfl
@[simp] theorem takeFresh_mem (s : State) : (takeFresh s).mem = s.mem := rfl
@[simp] theorem takeFresh_time (s : State) : (takeFresh s).time = s.time := rfl
@[simp] theorem takeFresh_press (s : State) : (takeFresh s).press = s.press := rfl
@[simp] theorem takeFresh_meter (s : State) : (takeFresh s).meter = s.meter := rfl
@[simp] theorem takeFresh_heat (s : State) : (takeFresh s).heat = s.heat := rfl
@[simp] theorem takeFresh_budget (s : State) : (takeFresh s).budget = s.budget := rfl
@[simp] theorem takeFresh_assure (s : State) : (takeFresh s).assure = s.assure := rfl
@[simp] theorem takeFresh_ports (s : State) : (takeFresh s).ports = s.ports := rfl
@[simp] theorem takeFresh_torus (s : State) : (takeFresh s).torus = s.torus := rfl
@[simp] theorem takeFresh_su (s : State) : (takeFresh s).su = s.su := rfl
@[simp] theorem takeFresh_mbx (s : State) : (takeFresh s).mbx = s.mbx := rfl
@[simp] theorem takeFresh_mctpOut (s : State) : (takeFresh s).mctpOut = s.mctpOut := rfl
@[simp] theorem takeFresh_longs (s : State) : (takeFresh s).longs = s.longs := rfl

/-! setRail -/

@[simp] theorem setRail_pending (r : Nat) (f : Rail → Rail) (s : State) : (setRail r f s).pending = s.pending := rfl
@[simp] theorem setRail_fresh (r : Nat) (f : Rail → Rail) (s : State) : (setRail r f s).fresh = s.fresh := rfl
@[simp] theorem setRail_regs (r : Nat) (f : Rail → Rail) (s : State) : (setRail r f s).regs = s.regs := rfl
@[simp] theorem setRail_chip (r : Nat) (f : Rail → Rail) (s : State) : (setRail r f s).chip = s.chip := rfl
@[simp] theorem setRail_aon (r : Nat) (f : Rail → Rail) (s : State) : (setRail r f s).aon = s.aon := rfl
@[simp] theorem setRail_sec (r : Nat) (f : Rail → Rail) (s : State) : (setRail r f s).sec = s.sec := rfl
@[simp] theorem setRail_rcd (r : Nat) (f : Rail → Rail) (s : State) : (setRail r f s).rcd = s.rcd := rfl
@[simp] theorem setRail_cfg (r : Nat) (f : Rail → Rail) (s : State) : (setRail r f s).cfg = s.cfg := rfl
@[simp] theorem setRail_flash (r : Nat) (f : Rail → Rail) (s : State) : (setRail r f s).flash = s.flash := rfl
@[simp] theorem setRail_tw (r : Nat) (f : Rail → Rail) (s : State) : (setRail r f s).tw = s.tw := rfl
@[simp] theorem setRail_mem (r : Nat) (f : Rail → Rail) (s : State) : (setRail r f s).mem = s.mem := rfl
@[simp] theorem setRail_time (r : Nat) (f : Rail → Rail) (s : State) : (setRail r f s).time = s.time := rfl
@[simp] theorem setRail_press (r : Nat) (f : Rail → Rail) (s : State) : (setRail r f s).press = s.press := rfl
@[simp] theorem setRail_meter (r : Nat) (f : Rail → Rail) (s : State) : (setRail r f s).meter = s.meter := rfl
@[simp] theorem setRail_heat (r : Nat) (f : Rail → Rail) (s : State) : (setRail r f s).heat = s.heat := rfl
@[simp] theorem setRail_budget (r : Nat) (f : Rail → Rail) (s : State) : (setRail r f s).budget = s.budget := rfl
@[simp] theorem setRail_assure (r : Nat) (f : Rail → Rail) (s : State) : (setRail r f s).assure = s.assure := rfl
@[simp] theorem setRail_ports (r : Nat) (f : Rail → Rail) (s : State) : (setRail r f s).ports = s.ports := rfl
@[simp] theorem setRail_torus (r : Nat) (f : Rail → Rail) (s : State) : (setRail r f s).torus = s.torus := rfl
@[simp] theorem setRail_su (r : Nat) (f : Rail → Rail) (s : State) : (setRail r f s).su = s.su := rfl
@[simp] theorem setRail_mbx (r : Nat) (f : Rail → Rail) (s : State) : (setRail r f s).mbx = s.mbx := rfl
@[simp] theorem setRail_mctpOut (r : Nat) (f : Rail → Rail) (s : State) : (setRail r f s).mctpOut = s.mctpOut := rfl
@[simp] theorem setRail_longs (r : Nat) (f : Rail → Rail) (s : State) : (setRail r f s).longs = s.longs := rfl

/-! setStrand -/

@[simp] theorem setStrand_pending (n : Nat) (f : Strand → Strand) (s : State) : (setStrand n f s).pending = s.pending := rfl
@[simp] theorem setStrand_fresh (n : Nat) (f : Strand → Strand) (s : State) : (setStrand n f s).fresh = s.fresh := rfl
@[simp] theorem setStrand_regs (n : Nat) (f : Strand → Strand) (s : State) : (setStrand n f s).regs = s.regs := rfl
@[simp] theorem setStrand_chip (n : Nat) (f : Strand → Strand) (s : State) : (setStrand n f s).chip = s.chip := rfl
@[simp] theorem setStrand_aon (n : Nat) (f : Strand → Strand) (s : State) : (setStrand n f s).aon = s.aon := rfl
@[simp] theorem setStrand_sec (n : Nat) (f : Strand → Strand) (s : State) : (setStrand n f s).sec = s.sec := rfl
@[simp] theorem setStrand_rcd (n : Nat) (f : Strand → Strand) (s : State) : (setStrand n f s).rcd = s.rcd := rfl
@[simp] theorem setStrand_cfg (n : Nat) (f : Strand → Strand) (s : State) : (setStrand n f s).cfg = s.cfg := rfl
@[simp] theorem setStrand_flash (n : Nat) (f : Strand → Strand) (s : State) : (setStrand n f s).flash = s.flash := rfl
@[simp] theorem setStrand_tw (n : Nat) (f : Strand → Strand) (s : State) : (setStrand n f s).tw = s.tw := rfl
@[simp] theorem setStrand_mem (n : Nat) (f : Strand → Strand) (s : State) : (setStrand n f s).mem = s.mem := rfl
@[simp] theorem setStrand_time (n : Nat) (f : Strand → Strand) (s : State) : (setStrand n f s).time = s.time := rfl
@[simp] theorem setStrand_press (n : Nat) (f : Strand → Strand) (s : State) : (setStrand n f s).press = s.press := rfl
@[simp] theorem setStrand_meter (n : Nat) (f : Strand → Strand) (s : State) : (setStrand n f s).meter = s.meter := rfl
@[simp] theorem setStrand_heat (n : Nat) (f : Strand → Strand) (s : State) : (setStrand n f s).heat = s.heat := rfl
@[simp] theorem setStrand_budget (n : Nat) (f : Strand → Strand) (s : State) : (setStrand n f s).budget = s.budget := rfl
@[simp] theorem setStrand_assure (n : Nat) (f : Strand → Strand) (s : State) : (setStrand n f s).assure = s.assure := rfl
@[simp] theorem setStrand_ports (n : Nat) (f : Strand → Strand) (s : State) : (setStrand n f s).ports = s.ports := rfl
@[simp] theorem setStrand_torus (n : Nat) (f : Strand → Strand) (s : State) : (setStrand n f s).torus = s.torus := rfl
@[simp] theorem setStrand_su (n : Nat) (f : Strand → Strand) (s : State) : (setStrand n f s).su = s.su := rfl
@[simp] theorem setStrand_mbx (n : Nat) (f : Strand → Strand) (s : State) : (setStrand n f s).mbx = s.mbx := rfl
@[simp] theorem setStrand_mctpOut (n : Nat) (f : Strand → Strand) (s : State) : (setStrand n f s).mctpOut = s.mctpOut := rfl
@[simp] theorem setStrand_longs (n : Nat) (f : Strand → Strand) (s : State) : (setStrand n f s).longs = s.longs := rfl

/-! setPort -/

@[simp] theorem setPort_pending (k : Nat) (f : Port → Port) (s : State) : (setPort k f s).pending = s.pending := rfl
@[simp] theorem setPort_fresh (k : Nat) (f : Port → Port) (s : State) : (setPort k f s).fresh = s.fresh := rfl
@[simp] theorem setPort_regs (k : Nat) (f : Port → Port) (s : State) : (setPort k f s).regs = s.regs := rfl
@[simp] theorem setPort_chip (k : Nat) (f : Port → Port) (s : State) : (setPort k f s).chip = s.chip := rfl
@[simp] theorem setPort_aon (k : Nat) (f : Port → Port) (s : State) : (setPort k f s).aon = s.aon := rfl
@[simp] theorem setPort_sec (k : Nat) (f : Port → Port) (s : State) : (setPort k f s).sec = s.sec := rfl
@[simp] theorem setPort_rcd (k : Nat) (f : Port → Port) (s : State) : (setPort k f s).rcd = s.rcd := rfl
@[simp] theorem setPort_cfg (k : Nat) (f : Port → Port) (s : State) : (setPort k f s).cfg = s.cfg := rfl
@[simp] theorem setPort_flash (k : Nat) (f : Port → Port) (s : State) : (setPort k f s).flash = s.flash := rfl
@[simp] theorem setPort_st (k : Nat) (f : Port → Port) (s : State) : (setPort k f s).st = s.st := rfl
@[simp] theorem setPort_tw (k : Nat) (f : Port → Port) (s : State) : (setPort k f s).tw = s.tw := rfl
@[simp] theorem setPort_mem (k : Nat) (f : Port → Port) (s : State) : (setPort k f s).mem = s.mem := rfl
@[simp] theorem setPort_time (k : Nat) (f : Port → Port) (s : State) : (setPort k f s).time = s.time := rfl
@[simp] theorem setPort_press (k : Nat) (f : Port → Port) (s : State) : (setPort k f s).press = s.press := rfl
@[simp] theorem setPort_meter (k : Nat) (f : Port → Port) (s : State) : (setPort k f s).meter = s.meter := rfl
@[simp] theorem setPort_heat (k : Nat) (f : Port → Port) (s : State) : (setPort k f s).heat = s.heat := rfl
@[simp] theorem setPort_budget (k : Nat) (f : Port → Port) (s : State) : (setPort k f s).budget = s.budget := rfl
@[simp] theorem setPort_assure (k : Nat) (f : Port → Port) (s : State) : (setPort k f s).assure = s.assure := rfl
@[simp] theorem setPort_torus (k : Nat) (f : Port → Port) (s : State) : (setPort k f s).torus = s.torus := rfl
@[simp] theorem setPort_su (k : Nat) (f : Port → Port) (s : State) : (setPort k f s).su = s.su := rfl
@[simp] theorem setPort_mbx (k : Nat) (f : Port → Port) (s : State) : (setPort k f s).mbx = s.mbx := rfl
@[simp] theorem setPort_mctpOut (k : Nat) (f : Port → Port) (s : State) : (setPort k f s).mctpOut = s.mctpOut := rfl
@[simp] theorem setPort_longs (k : Nat) (f : Port → Port) (s : State) : (setPort k f s).longs = s.longs := rfl

/-! setTw -/

@[simp] theorem setTw_pending (n : Nat) (f : TwPort → TwPort) (s : State) : (setTw n f s).pending = s.pending := rfl
@[simp] theorem setTw_fresh (n : Nat) (f : TwPort → TwPort) (s : State) : (setTw n f s).fresh = s.fresh := rfl
@[simp] theorem setTw_regs (n : Nat) (f : TwPort → TwPort) (s : State) : (setTw n f s).regs = s.regs := rfl
@[simp] theorem setTw_chip (n : Nat) (f : TwPort → TwPort) (s : State) : (setTw n f s).chip = s.chip := rfl
@[simp] theorem setTw_aon (n : Nat) (f : TwPort → TwPort) (s : State) : (setTw n f s).aon = s.aon := rfl
@[simp] theorem setTw_sec (n : Nat) (f : TwPort → TwPort) (s : State) : (setTw n f s).sec = s.sec := rfl
@[simp] theorem setTw_rcd (n : Nat) (f : TwPort → TwPort) (s : State) : (setTw n f s).rcd = s.rcd := rfl
@[simp] theorem setTw_cfg (n : Nat) (f : TwPort → TwPort) (s : State) : (setTw n f s).cfg = s.cfg := rfl
@[simp] theorem setTw_flash (n : Nat) (f : TwPort → TwPort) (s : State) : (setTw n f s).flash = s.flash := rfl
@[simp] theorem setTw_st (n : Nat) (f : TwPort → TwPort) (s : State) : (setTw n f s).st = s.st := rfl
@[simp] theorem setTw_mem (n : Nat) (f : TwPort → TwPort) (s : State) : (setTw n f s).mem = s.mem := rfl
@[simp] theorem setTw_time (n : Nat) (f : TwPort → TwPort) (s : State) : (setTw n f s).time = s.time := rfl
@[simp] theorem setTw_press (n : Nat) (f : TwPort → TwPort) (s : State) : (setTw n f s).press = s.press := rfl
@[simp] theorem setTw_meter (n : Nat) (f : TwPort → TwPort) (s : State) : (setTw n f s).meter = s.meter := rfl
@[simp] theorem setTw_heat (n : Nat) (f : TwPort → TwPort) (s : State) : (setTw n f s).heat = s.heat := rfl
@[simp] theorem setTw_budget (n : Nat) (f : TwPort → TwPort) (s : State) : (setTw n f s).budget = s.budget := rfl
@[simp] theorem setTw_assure (n : Nat) (f : TwPort → TwPort) (s : State) : (setTw n f s).assure = s.assure := rfl
@[simp] theorem setTw_ports (n : Nat) (f : TwPort → TwPort) (s : State) : (setTw n f s).ports = s.ports := rfl
@[simp] theorem setTw_torus (n : Nat) (f : TwPort → TwPort) (s : State) : (setTw n f s).torus = s.torus := rfl
@[simp] theorem setTw_su (n : Nat) (f : TwPort → TwPort) (s : State) : (setTw n f s).su = s.su := rfl
@[simp] theorem setTw_mbx (n : Nat) (f : TwPort → TwPort) (s : State) : (setTw n f s).mbx = s.mbx := rfl
@[simp] theorem setTw_mctpOut (n : Nat) (f : TwPort → TwPort) (s : State) : (setTw n f s).mctpOut = s.mctpOut := rfl
@[simp] theorem setTw_longs (n : Nat) (f : TwPort → TwPort) (s : State) : (setTw n f s).longs = s.longs := rfl

/-! setCl -/

@[simp] theorem setCl_pending (c : Nat) (f : Cluster → Cluster) (s : State) : (setCl c f s).pending = s.pending := rfl
@[simp] theorem setCl_fresh (c : Nat) (f : Cluster → Cluster) (s : State) : (setCl c f s).fresh = s.fresh := rfl
@[simp] theorem setCl_regs (c : Nat) (f : Cluster → Cluster) (s : State) : (setCl c f s).regs = s.regs := rfl
@[simp] theorem setCl_chip (c : Nat) (f : Cluster → Cluster) (s : State) : (setCl c f s).chip = s.chip := rfl
@[simp] theorem setCl_aon (c : Nat) (f : Cluster → Cluster) (s : State) : (setCl c f s).aon = s.aon := rfl
@[simp] theorem setCl_sec (c : Nat) (f : Cluster → Cluster) (s : State) : (setCl c f s).sec = s.sec := rfl
@[simp] theorem setCl_rcd (c : Nat) (f : Cluster → Cluster) (s : State) : (setCl c f s).rcd = s.rcd := rfl
@[simp] theorem setCl_cfg (c : Nat) (f : Cluster → Cluster) (s : State) : (setCl c f s).cfg = s.cfg := rfl
@[simp] theorem setCl_flash (c : Nat) (f : Cluster → Cluster) (s : State) : (setCl c f s).flash = s.flash := rfl
@[simp] theorem setCl_st (c : Nat) (f : Cluster → Cluster) (s : State) : (setCl c f s).st = s.st := rfl
@[simp] theorem setCl_tw (c : Nat) (f : Cluster → Cluster) (s : State) : (setCl c f s).tw = s.tw := rfl
@[simp] theorem setCl_mem (c : Nat) (f : Cluster → Cluster) (s : State) : (setCl c f s).mem = s.mem := rfl
@[simp] theorem setCl_time (c : Nat) (f : Cluster → Cluster) (s : State) : (setCl c f s).time = s.time := rfl
@[simp] theorem setCl_meter (c : Nat) (f : Cluster → Cluster) (s : State) : (setCl c f s).meter = s.meter := rfl
@[simp] theorem setCl_heat (c : Nat) (f : Cluster → Cluster) (s : State) : (setCl c f s).heat = s.heat := rfl
@[simp] theorem setCl_budget (c : Nat) (f : Cluster → Cluster) (s : State) : (setCl c f s).budget = s.budget := rfl
@[simp] theorem setCl_assure (c : Nat) (f : Cluster → Cluster) (s : State) : (setCl c f s).assure = s.assure := rfl
@[simp] theorem setCl_ports (c : Nat) (f : Cluster → Cluster) (s : State) : (setCl c f s).ports = s.ports := rfl
@[simp] theorem setCl_torus (c : Nat) (f : Cluster → Cluster) (s : State) : (setCl c f s).torus = s.torus := rfl
@[simp] theorem setCl_su (c : Nat) (f : Cluster → Cluster) (s : State) : (setCl c f s).su = s.su := rfl
@[simp] theorem setCl_mbx (c : Nat) (f : Cluster → Cluster) (s : State) : (setCl c f s).mbx = s.mbx := rfl
@[simp] theorem setCl_mctpOut (c : Nat) (f : Cluster → Cluster) (s : State) : (setCl c f s).mctpOut = s.mctpOut := rfl
@[simp] theorem setCl_longs (c : Nat) (f : Cluster → Cluster) (s : State) : (setCl c f s).longs = s.longs := rfl

/-! setIron -/

@[simp] theorem setIron_pending (i : Nat) (f : Iron → Iron) (s : State) : (setIron i f s).pending = s.pending := rfl
@[simp] theorem setIron_fresh (i : Nat) (f : Iron → Iron) (s : State) : (setIron i f s).fresh = s.fresh := rfl
@[simp] theorem setIron_regs (i : Nat) (f : Iron → Iron) (s : State) : (setIron i f s).regs = s.regs := rfl
@[simp] theorem setIron_chip (i : Nat) (f : Iron → Iron) (s : State) : (setIron i f s).chip = s.chip := rfl
@[simp] theorem setIron_aon (i : Nat) (f : Iron → Iron) (s : State) : (setIron i f s).aon = s.aon := rfl
@[simp] theorem setIron_sec (i : Nat) (f : Iron → Iron) (s : State) : (setIron i f s).sec = s.sec := rfl
@[simp] theorem setIron_rcd (i : Nat) (f : Iron → Iron) (s : State) : (setIron i f s).rcd = s.rcd := rfl
@[simp] theorem setIron_cfg (i : Nat) (f : Iron → Iron) (s : State) : (setIron i f s).cfg = s.cfg := rfl
@[simp] theorem setIron_flash (i : Nat) (f : Iron → Iron) (s : State) : (setIron i f s).flash = s.flash := rfl
@[simp] theorem setIron_st (i : Nat) (f : Iron → Iron) (s : State) : (setIron i f s).st = s.st := rfl
@[simp] theorem setIron_tw (i : Nat) (f : Iron → Iron) (s : State) : (setIron i f s).tw = s.tw := rfl
@[simp] theorem setIron_mem (i : Nat) (f : Iron → Iron) (s : State) : (setIron i f s).mem = s.mem := rfl
@[simp] theorem setIron_time (i : Nat) (f : Iron → Iron) (s : State) : (setIron i f s).time = s.time := rfl
@[simp] theorem setIron_meter (i : Nat) (f : Iron → Iron) (s : State) : (setIron i f s).meter = s.meter := rfl
@[simp] theorem setIron_heat (i : Nat) (f : Iron → Iron) (s : State) : (setIron i f s).heat = s.heat := rfl
@[simp] theorem setIron_budget (i : Nat) (f : Iron → Iron) (s : State) : (setIron i f s).budget = s.budget := rfl
@[simp] theorem setIron_assure (i : Nat) (f : Iron → Iron) (s : State) : (setIron i f s).assure = s.assure := rfl
@[simp] theorem setIron_ports (i : Nat) (f : Iron → Iron) (s : State) : (setIron i f s).ports = s.ports := rfl
@[simp] theorem setIron_torus (i : Nat) (f : Iron → Iron) (s : State) : (setIron i f s).torus = s.torus := rfl
@[simp] theorem setIron_su (i : Nat) (f : Iron → Iron) (s : State) : (setIron i f s).su = s.su := rfl
@[simp] theorem setIron_mbx (i : Nat) (f : Iron → Iron) (s : State) : (setIron i f s).mbx = s.mbx := rfl
@[simp] theorem setIron_mctpOut (i : Nat) (f : Iron → Iron) (s : State) : (setIron i f s).mctpOut = s.mctpOut := rfl
@[simp] theorem setIron_longs (i : Nat) (f : Iron → Iron) (s : State) : (setIron i f s).longs = s.longs := rfl

/-! setPlan -/

@[simp] theorem setPlan_pending (id : Nat) (f : Plan → Plan) (s : State) : (setPlan id f s).pending = s.pending := rfl
@[simp] theorem setPlan_fresh (id : Nat) (f : Plan → Plan) (s : State) : (setPlan id f s).fresh = s.fresh := rfl
@[simp] theorem setPlan_regs (id : Nat) (f : Plan → Plan) (s : State) : (setPlan id f s).regs = s.regs := rfl
@[simp] theorem setPlan_chip (id : Nat) (f : Plan → Plan) (s : State) : (setPlan id f s).chip = s.chip := rfl
@[simp] theorem setPlan_aon (id : Nat) (f : Plan → Plan) (s : State) : (setPlan id f s).aon = s.aon := rfl
@[simp] theorem setPlan_sec (id : Nat) (f : Plan → Plan) (s : State) : (setPlan id f s).sec = s.sec := rfl
@[simp] theorem setPlan_rcd (id : Nat) (f : Plan → Plan) (s : State) : (setPlan id f s).rcd = s.rcd := rfl
@[simp] theorem setPlan_cfg (id : Nat) (f : Plan → Plan) (s : State) : (setPlan id f s).cfg = s.cfg := rfl
@[simp] theorem setPlan_flash (id : Nat) (f : Plan → Plan) (s : State) : (setPlan id f s).flash = s.flash := rfl
@[simp] theorem setPlan_st (id : Nat) (f : Plan → Plan) (s : State) : (setPlan id f s).st = s.st := rfl
@[simp] theorem setPlan_tw (id : Nat) (f : Plan → Plan) (s : State) : (setPlan id f s).tw = s.tw := rfl
@[simp] theorem setPlan_mem (id : Nat) (f : Plan → Plan) (s : State) : (setPlan id f s).mem = s.mem := rfl
@[simp] theorem setPlan_time (id : Nat) (f : Plan → Plan) (s : State) : (setPlan id f s).time = s.time := rfl
@[simp] theorem setPlan_meter (id : Nat) (f : Plan → Plan) (s : State) : (setPlan id f s).meter = s.meter := rfl
@[simp] theorem setPlan_heat (id : Nat) (f : Plan → Plan) (s : State) : (setPlan id f s).heat = s.heat := rfl
@[simp] theorem setPlan_budget (id : Nat) (f : Plan → Plan) (s : State) : (setPlan id f s).budget = s.budget := rfl
@[simp] theorem setPlan_assure (id : Nat) (f : Plan → Plan) (s : State) : (setPlan id f s).assure = s.assure := rfl
@[simp] theorem setPlan_ports (id : Nat) (f : Plan → Plan) (s : State) : (setPlan id f s).ports = s.ports := rfl
@[simp] theorem setPlan_torus (id : Nat) (f : Plan → Plan) (s : State) : (setPlan id f s).torus = s.torus := rfl
@[simp] theorem setPlan_su (id : Nat) (f : Plan → Plan) (s : State) : (setPlan id f s).su = s.su := rfl
@[simp] theorem setPlan_mbx (id : Nat) (f : Plan → Plan) (s : State) : (setPlan id f s).mbx = s.mbx := rfl
@[simp] theorem setPlan_mctpOut (id : Nat) (f : Plan → Plan) (s : State) : (setPlan id f s).mctpOut = s.mctpOut := rfl
@[simp] theorem setPlan_longs (id : Nat) (f : Plan → Plan) (s : State) : (setPlan id f s).longs = s.longs := rfl

/-! setMb -/

@[simp] theorem setMb_pending (n : Nat) (f : Mailbox → Mailbox) (s : State) : (setMb n f s).pending = s.pending := rfl
@[simp] theorem setMb_fresh (n : Nat) (f : Mailbox → Mailbox) (s : State) : (setMb n f s).fresh = s.fresh := rfl
@[simp] theorem setMb_regs (n : Nat) (f : Mailbox → Mailbox) (s : State) : (setMb n f s).regs = s.regs := rfl
@[simp] theorem setMb_chip (n : Nat) (f : Mailbox → Mailbox) (s : State) : (setMb n f s).chip = s.chip := rfl
@[simp] theorem setMb_aon (n : Nat) (f : Mailbox → Mailbox) (s : State) : (setMb n f s).aon = s.aon := rfl
@[simp] theorem setMb_sec (n : Nat) (f : Mailbox → Mailbox) (s : State) : (setMb n f s).sec = s.sec := rfl
@[simp] theorem setMb_rcd (n : Nat) (f : Mailbox → Mailbox) (s : State) : (setMb n f s).rcd = s.rcd := rfl
@[simp] theorem setMb_cfg (n : Nat) (f : Mailbox → Mailbox) (s : State) : (setMb n f s).cfg = s.cfg := rfl
@[simp] theorem setMb_flash (n : Nat) (f : Mailbox → Mailbox) (s : State) : (setMb n f s).flash = s.flash := rfl
@[simp] theorem setMb_st (n : Nat) (f : Mailbox → Mailbox) (s : State) : (setMb n f s).st = s.st := rfl
@[simp] theorem setMb_tw (n : Nat) (f : Mailbox → Mailbox) (s : State) : (setMb n f s).tw = s.tw := rfl
@[simp] theorem setMb_mem (n : Nat) (f : Mailbox → Mailbox) (s : State) : (setMb n f s).mem = s.mem := rfl
@[simp] theorem setMb_time (n : Nat) (f : Mailbox → Mailbox) (s : State) : (setMb n f s).time = s.time := rfl
@[simp] theorem setMb_press (n : Nat) (f : Mailbox → Mailbox) (s : State) : (setMb n f s).press = s.press := rfl
@[simp] theorem setMb_meter (n : Nat) (f : Mailbox → Mailbox) (s : State) : (setMb n f s).meter = s.meter := rfl
@[simp] theorem setMb_heat (n : Nat) (f : Mailbox → Mailbox) (s : State) : (setMb n f s).heat = s.heat := rfl
@[simp] theorem setMb_budget (n : Nat) (f : Mailbox → Mailbox) (s : State) : (setMb n f s).budget = s.budget := rfl
@[simp] theorem setMb_assure (n : Nat) (f : Mailbox → Mailbox) (s : State) : (setMb n f s).assure = s.assure := rfl
@[simp] theorem setMb_ports (n : Nat) (f : Mailbox → Mailbox) (s : State) : (setMb n f s).ports = s.ports := rfl
@[simp] theorem setMb_torus (n : Nat) (f : Mailbox → Mailbox) (s : State) : (setMb n f s).torus = s.torus := rfl
@[simp] theorem setMb_su (n : Nat) (f : Mailbox → Mailbox) (s : State) : (setMb n f s).su = s.su := rfl
@[simp] theorem setMb_mctpOut (n : Nat) (f : Mailbox → Mailbox) (s : State) : (setMb n f s).mctpOut = s.mctpOut := rfl
@[simp] theorem setMb_longs (n : Nat) (f : Mailbox → Mailbox) (s : State) : (setMb n f s).longs = s.longs := rfl

/-! setAcc -/

@[simp] theorem setAcc_pending (a : Nat) (f : AccB → AccB) (s : State) : (setAcc a f s).pending = s.pending := rfl
@[simp] theorem setAcc_fresh (a : Nat) (f : AccB → AccB) (s : State) : (setAcc a f s).fresh = s.fresh := rfl
@[simp] theorem setAcc_regs (a : Nat) (f : AccB → AccB) (s : State) : (setAcc a f s).regs = s.regs := rfl
@[simp] theorem setAcc_chip (a : Nat) (f : AccB → AccB) (s : State) : (setAcc a f s).chip = s.chip := rfl
@[simp] theorem setAcc_aon (a : Nat) (f : AccB → AccB) (s : State) : (setAcc a f s).aon = s.aon := rfl
@[simp] theorem setAcc_sec (a : Nat) (f : AccB → AccB) (s : State) : (setAcc a f s).sec = s.sec := rfl
@[simp] theorem setAcc_rcd (a : Nat) (f : AccB → AccB) (s : State) : (setAcc a f s).rcd = s.rcd := rfl
@[simp] theorem setAcc_cfg (a : Nat) (f : AccB → AccB) (s : State) : (setAcc a f s).cfg = s.cfg := rfl
@[simp] theorem setAcc_flash (a : Nat) (f : AccB → AccB) (s : State) : (setAcc a f s).flash = s.flash := rfl
@[simp] theorem setAcc_st (a : Nat) (f : AccB → AccB) (s : State) : (setAcc a f s).st = s.st := rfl
@[simp] theorem setAcc_tw (a : Nat) (f : AccB → AccB) (s : State) : (setAcc a f s).tw = s.tw := rfl
@[simp] theorem setAcc_mem (a : Nat) (f : AccB → AccB) (s : State) : (setAcc a f s).mem = s.mem := rfl
@[simp] theorem setAcc_time (a : Nat) (f : AccB → AccB) (s : State) : (setAcc a f s).time = s.time := rfl
@[simp] theorem setAcc_press (a : Nat) (f : AccB → AccB) (s : State) : (setAcc a f s).press = s.press := rfl
@[simp] theorem setAcc_meter (a : Nat) (f : AccB → AccB) (s : State) : (setAcc a f s).meter = s.meter := rfl
@[simp] theorem setAcc_heat (a : Nat) (f : AccB → AccB) (s : State) : (setAcc a f s).heat = s.heat := rfl
@[simp] theorem setAcc_assure (a : Nat) (f : AccB → AccB) (s : State) : (setAcc a f s).assure = s.assure := rfl
@[simp] theorem setAcc_ports (a : Nat) (f : AccB → AccB) (s : State) : (setAcc a f s).ports = s.ports := rfl
@[simp] theorem setAcc_torus (a : Nat) (f : AccB → AccB) (s : State) : (setAcc a f s).torus = s.torus := rfl
@[simp] theorem setAcc_su (a : Nat) (f : AccB → AccB) (s : State) : (setAcc a f s).su = s.su := rfl
@[simp] theorem setAcc_mbx (a : Nat) (f : AccB → AccB) (s : State) : (setAcc a f s).mbx = s.mbx := rfl
@[simp] theorem setAcc_mctpOut (a : Nat) (f : AccB → AccB) (s : State) : (setAcc a f s).mctpOut = s.mctpOut := rfl
@[simp] theorem setAcc_longs (a : Nat) (f : AccB → AccB) (s : State) : (setAcc a f s).longs = s.longs := rfl

/-! setLoop -/

@[simp] theorem setLoop_pending (l : Nat) (f : LeakLoop → LeakLoop) (s : State) : (setLoop l f s).pending = s.pending := rfl
@[simp] theorem setLoop_fresh (l : Nat) (f : LeakLoop → LeakLoop) (s : State) : (setLoop l f s).fresh = s.fresh := rfl
@[simp] theorem setLoop_regs (l : Nat) (f : LeakLoop → LeakLoop) (s : State) : (setLoop l f s).regs = s.regs := rfl
@[simp] theorem setLoop_chip (l : Nat) (f : LeakLoop → LeakLoop) (s : State) : (setLoop l f s).chip = s.chip := rfl
@[simp] theorem setLoop_aon (l : Nat) (f : LeakLoop → LeakLoop) (s : State) : (setLoop l f s).aon = s.aon := rfl
@[simp] theorem setLoop_sec (l : Nat) (f : LeakLoop → LeakLoop) (s : State) : (setLoop l f s).sec = s.sec := rfl
@[simp] theorem setLoop_rcd (l : Nat) (f : LeakLoop → LeakLoop) (s : State) : (setLoop l f s).rcd = s.rcd := rfl
@[simp] theorem setLoop_cfg (l : Nat) (f : LeakLoop → LeakLoop) (s : State) : (setLoop l f s).cfg = s.cfg := rfl
@[simp] theorem setLoop_flash (l : Nat) (f : LeakLoop → LeakLoop) (s : State) : (setLoop l f s).flash = s.flash := rfl
@[simp] theorem setLoop_st (l : Nat) (f : LeakLoop → LeakLoop) (s : State) : (setLoop l f s).st = s.st := rfl
@[simp] theorem setLoop_tw (l : Nat) (f : LeakLoop → LeakLoop) (s : State) : (setLoop l f s).tw = s.tw := rfl
@[simp] theorem setLoop_mem (l : Nat) (f : LeakLoop → LeakLoop) (s : State) : (setLoop l f s).mem = s.mem := rfl
@[simp] theorem setLoop_time (l : Nat) (f : LeakLoop → LeakLoop) (s : State) : (setLoop l f s).time = s.time := rfl
@[simp] theorem setLoop_press (l : Nat) (f : LeakLoop → LeakLoop) (s : State) : (setLoop l f s).press = s.press := rfl
@[simp] theorem setLoop_meter (l : Nat) (f : LeakLoop → LeakLoop) (s : State) : (setLoop l f s).meter = s.meter := rfl
@[simp] theorem setLoop_budget (l : Nat) (f : LeakLoop → LeakLoop) (s : State) : (setLoop l f s).budget = s.budget := rfl
@[simp] theorem setLoop_assure (l : Nat) (f : LeakLoop → LeakLoop) (s : State) : (setLoop l f s).assure = s.assure := rfl
@[simp] theorem setLoop_ports (l : Nat) (f : LeakLoop → LeakLoop) (s : State) : (setLoop l f s).ports = s.ports := rfl
@[simp] theorem setLoop_torus (l : Nat) (f : LeakLoop → LeakLoop) (s : State) : (setLoop l f s).torus = s.torus := rfl
@[simp] theorem setLoop_su (l : Nat) (f : LeakLoop → LeakLoop) (s : State) : (setLoop l f s).su = s.su := rfl
@[simp] theorem setLoop_mbx (l : Nat) (f : LeakLoop → LeakLoop) (s : State) : (setLoop l f s).mbx = s.mbx := rfl
@[simp] theorem setLoop_mctpOut (l : Nat) (f : LeakLoop → LeakLoop) (s : State) : (setLoop l f s).mctpOut = s.mctpOut := rfl
@[simp] theorem setLoop_longs (l : Nat) (f : LeakLoop → LeakLoop) (s : State) : (setLoop l f s).longs = s.longs := rfl

/-! setCore -/

@[simp] theorem setCore_pending (k : Nat) (f : CoreSt → CoreSt) (s : State) : (setCore k f s).pending = s.pending := rfl
@[simp] theorem setCore_fresh (k : Nat) (f : CoreSt → CoreSt) (s : State) : (setCore k f s).fresh = s.fresh := rfl
@[simp] theorem setCore_regs (k : Nat) (f : CoreSt → CoreSt) (s : State) : (setCore k f s).regs = s.regs := rfl
@[simp] theorem setCore_chip (k : Nat) (f : CoreSt → CoreSt) (s : State) : (setCore k f s).chip = s.chip := rfl
@[simp] theorem setCore_sec (k : Nat) (f : CoreSt → CoreSt) (s : State) : (setCore k f s).sec = s.sec := rfl
@[simp] theorem setCore_rcd (k : Nat) (f : CoreSt → CoreSt) (s : State) : (setCore k f s).rcd = s.rcd := rfl
@[simp] theorem setCore_cfg (k : Nat) (f : CoreSt → CoreSt) (s : State) : (setCore k f s).cfg = s.cfg := rfl
@[simp] theorem setCore_flash (k : Nat) (f : CoreSt → CoreSt) (s : State) : (setCore k f s).flash = s.flash := rfl
@[simp] theorem setCore_st (k : Nat) (f : CoreSt → CoreSt) (s : State) : (setCore k f s).st = s.st := rfl
@[simp] theorem setCore_tw (k : Nat) (f : CoreSt → CoreSt) (s : State) : (setCore k f s).tw = s.tw := rfl
@[simp] theorem setCore_mem (k : Nat) (f : CoreSt → CoreSt) (s : State) : (setCore k f s).mem = s.mem := rfl
@[simp] theorem setCore_time (k : Nat) (f : CoreSt → CoreSt) (s : State) : (setCore k f s).time = s.time := rfl
@[simp] theorem setCore_press (k : Nat) (f : CoreSt → CoreSt) (s : State) : (setCore k f s).press = s.press := rfl
@[simp] theorem setCore_meter (k : Nat) (f : CoreSt → CoreSt) (s : State) : (setCore k f s).meter = s.meter := rfl
@[simp] theorem setCore_heat (k : Nat) (f : CoreSt → CoreSt) (s : State) : (setCore k f s).heat = s.heat := rfl
@[simp] theorem setCore_budget (k : Nat) (f : CoreSt → CoreSt) (s : State) : (setCore k f s).budget = s.budget := rfl
@[simp] theorem setCore_assure (k : Nat) (f : CoreSt → CoreSt) (s : State) : (setCore k f s).assure = s.assure := rfl
@[simp] theorem setCore_ports (k : Nat) (f : CoreSt → CoreSt) (s : State) : (setCore k f s).ports = s.ports := rfl
@[simp] theorem setCore_torus (k : Nat) (f : CoreSt → CoreSt) (s : State) : (setCore k f s).torus = s.torus := rfl
@[simp] theorem setCore_su (k : Nat) (f : CoreSt → CoreSt) (s : State) : (setCore k f s).su = s.su := rfl
@[simp] theorem setCore_mbx (k : Nat) (f : CoreSt → CoreSt) (s : State) : (setCore k f s).mbx = s.mbx := rfl
@[simp] theorem setCore_mctpOut (k : Nat) (f : CoreSt → CoreSt) (s : State) : (setCore k f s).mctpOut = s.mctpOut := rfl
@[simp] theorem setCore_longs (k : Nat) (f : CoreSt → CoreSt) (s : State) : (setCore k f s).longs = s.longs := rfl

/-! setDiode -/

@[simp] theorem setDiode_pending (d : Nat) (f : Sens → Sens) (s : State) : (setDiode d f s).pending = s.pending := rfl
@[simp] theorem setDiode_fresh (d : Nat) (f : Sens → Sens) (s : State) : (setDiode d f s).fresh = s.fresh := rfl
@[simp] theorem setDiode_regs (d : Nat) (f : Sens → Sens) (s : State) : (setDiode d f s).regs = s.regs := rfl
@[simp] theorem setDiode_chip (d : Nat) (f : Sens → Sens) (s : State) : (setDiode d f s).chip = s.chip := rfl
@[simp] theorem setDiode_aon (d : Nat) (f : Sens → Sens) (s : State) : (setDiode d f s).aon = s.aon := rfl
@[simp] theorem setDiode_sec (d : Nat) (f : Sens → Sens) (s : State) : (setDiode d f s).sec = s.sec := rfl
@[simp] theorem setDiode_rcd (d : Nat) (f : Sens → Sens) (s : State) : (setDiode d f s).rcd = s.rcd := rfl
@[simp] theorem setDiode_cfg (d : Nat) (f : Sens → Sens) (s : State) : (setDiode d f s).cfg = s.cfg := rfl
@[simp] theorem setDiode_flash (d : Nat) (f : Sens → Sens) (s : State) : (setDiode d f s).flash = s.flash := rfl
@[simp] theorem setDiode_st (d : Nat) (f : Sens → Sens) (s : State) : (setDiode d f s).st = s.st := rfl
@[simp] theorem setDiode_tw (d : Nat) (f : Sens → Sens) (s : State) : (setDiode d f s).tw = s.tw := rfl
@[simp] theorem setDiode_mem (d : Nat) (f : Sens → Sens) (s : State) : (setDiode d f s).mem = s.mem := rfl
@[simp] theorem setDiode_time (d : Nat) (f : Sens → Sens) (s : State) : (setDiode d f s).time = s.time := rfl
@[simp] theorem setDiode_press (d : Nat) (f : Sens → Sens) (s : State) : (setDiode d f s).press = s.press := rfl
@[simp] theorem setDiode_meter (d : Nat) (f : Sens → Sens) (s : State) : (setDiode d f s).meter = s.meter := rfl
@[simp] theorem setDiode_budget (d : Nat) (f : Sens → Sens) (s : State) : (setDiode d f s).budget = s.budget := rfl
@[simp] theorem setDiode_assure (d : Nat) (f : Sens → Sens) (s : State) : (setDiode d f s).assure = s.assure := rfl
@[simp] theorem setDiode_ports (d : Nat) (f : Sens → Sens) (s : State) : (setDiode d f s).ports = s.ports := rfl
@[simp] theorem setDiode_torus (d : Nat) (f : Sens → Sens) (s : State) : (setDiode d f s).torus = s.torus := rfl
@[simp] theorem setDiode_su (d : Nat) (f : Sens → Sens) (s : State) : (setDiode d f s).su = s.su := rfl
@[simp] theorem setDiode_mbx (d : Nat) (f : Sens → Sens) (s : State) : (setDiode d f s).mbx = s.mbx := rfl
@[simp] theorem setDiode_mctpOut (d : Nat) (f : Sens → Sens) (s : State) : (setDiode d f s).mctpOut = s.mctpOut := rfl
@[simp] theorem setDiode_longs (d : Nat) (f : Sens → Sens) (s : State) : (setDiode d f s).longs = s.longs := rfl

/-! setTherm -/

@[simp] theorem setTherm_pending (t : Nat) (f : Sens → Sens) (s : State) : (setTherm t f s).pending = s.pending := rfl
@[simp] theorem setTherm_fresh (t : Nat) (f : Sens → Sens) (s : State) : (setTherm t f s).fresh = s.fresh := rfl
@[simp] theorem setTherm_regs (t : Nat) (f : Sens → Sens) (s : State) : (setTherm t f s).regs = s.regs := rfl
@[simp] theorem setTherm_chip (t : Nat) (f : Sens → Sens) (s : State) : (setTherm t f s).chip = s.chip := rfl
@[simp] theorem setTherm_aon (t : Nat) (f : Sens → Sens) (s : State) : (setTherm t f s).aon = s.aon := rfl
@[simp] theorem setTherm_sec (t : Nat) (f : Sens → Sens) (s : State) : (setTherm t f s).sec = s.sec := rfl
@[simp] theorem setTherm_rcd (t : Nat) (f : Sens → Sens) (s : State) : (setTherm t f s).rcd = s.rcd := rfl
@[simp] theorem setTherm_cfg (t : Nat) (f : Sens → Sens) (s : State) : (setTherm t f s).cfg = s.cfg := rfl
@[simp] theorem setTherm_flash (t : Nat) (f : Sens → Sens) (s : State) : (setTherm t f s).flash = s.flash := rfl
@[simp] theorem setTherm_st (t : Nat) (f : Sens → Sens) (s : State) : (setTherm t f s).st = s.st := rfl
@[simp] theorem setTherm_tw (t : Nat) (f : Sens → Sens) (s : State) : (setTherm t f s).tw = s.tw := rfl
@[simp] theorem setTherm_mem (t : Nat) (f : Sens → Sens) (s : State) : (setTherm t f s).mem = s.mem := rfl
@[simp] theorem setTherm_time (t : Nat) (f : Sens → Sens) (s : State) : (setTherm t f s).time = s.time := rfl
@[simp] theorem setTherm_press (t : Nat) (f : Sens → Sens) (s : State) : (setTherm t f s).press = s.press := rfl
@[simp] theorem setTherm_meter (t : Nat) (f : Sens → Sens) (s : State) : (setTherm t f s).meter = s.meter := rfl
@[simp] theorem setTherm_budget (t : Nat) (f : Sens → Sens) (s : State) : (setTherm t f s).budget = s.budget := rfl
@[simp] theorem setTherm_assure (t : Nat) (f : Sens → Sens) (s : State) : (setTherm t f s).assure = s.assure := rfl
@[simp] theorem setTherm_ports (t : Nat) (f : Sens → Sens) (s : State) : (setTherm t f s).ports = s.ports := rfl
@[simp] theorem setTherm_torus (t : Nat) (f : Sens → Sens) (s : State) : (setTherm t f s).torus = s.torus := rfl
@[simp] theorem setTherm_su (t : Nat) (f : Sens → Sens) (s : State) : (setTherm t f s).su = s.su := rfl
@[simp] theorem setTherm_mbx (t : Nat) (f : Sens → Sens) (s : State) : (setTherm t f s).mbx = s.mbx := rfl
@[simp] theorem setTherm_mctpOut (t : Nat) (f : Sens → Sens) (s : State) : (setTherm t f s).mctpOut = s.mctpOut := rfl
@[simp] theorem setTherm_longs (t : Nat) (f : Sens → Sens) (s : State) : (setTherm t f s).longs = s.longs := rfl

/-! setRo -/

@[simp] theorem setRo_pending (n : Nat) (f : Ro → Ro) (s : State) : (setRo n f s).pending = s.pending := rfl
@[simp] theorem setRo_fresh (n : Nat) (f : Ro → Ro) (s : State) : (setRo n f s).fresh = s.fresh := rfl
@[simp] theorem setRo_regs (n : Nat) (f : Ro → Ro) (s : State) : (setRo n f s).regs = s.regs := rfl
@[simp] theorem setRo_chip (n : Nat) (f : Ro → Ro) (s : State) : (setRo n f s).chip = s.chip := rfl
@[simp] theorem setRo_aon (n : Nat) (f : Ro → Ro) (s : State) : (setRo n f s).aon = s.aon := rfl
@[simp] theorem setRo_sec (n : Nat) (f : Ro → Ro) (s : State) : (setRo n f s).sec = s.sec := rfl
@[simp] theorem setRo_rcd (n : Nat) (f : Ro → Ro) (s : State) : (setRo n f s).rcd = s.rcd := rfl
@[simp] theorem setRo_cfg (n : Nat) (f : Ro → Ro) (s : State) : (setRo n f s).cfg = s.cfg := rfl
@[simp] theorem setRo_flash (n : Nat) (f : Ro → Ro) (s : State) : (setRo n f s).flash = s.flash := rfl
@[simp] theorem setRo_st (n : Nat) (f : Ro → Ro) (s : State) : (setRo n f s).st = s.st := rfl
@[simp] theorem setRo_tw (n : Nat) (f : Ro → Ro) (s : State) : (setRo n f s).tw = s.tw := rfl
@[simp] theorem setRo_mem (n : Nat) (f : Ro → Ro) (s : State) : (setRo n f s).mem = s.mem := rfl
@[simp] theorem setRo_time (n : Nat) (f : Ro → Ro) (s : State) : (setRo n f s).time = s.time := rfl
@[simp] theorem setRo_press (n : Nat) (f : Ro → Ro) (s : State) : (setRo n f s).press = s.press := rfl
@[simp] theorem setRo_meter (n : Nat) (f : Ro → Ro) (s : State) : (setRo n f s).meter = s.meter := rfl
@[simp] theorem setRo_budget (n : Nat) (f : Ro → Ro) (s : State) : (setRo n f s).budget = s.budget := rfl
@[simp] theorem setRo_assure (n : Nat) (f : Ro → Ro) (s : State) : (setRo n f s).assure = s.assure := rfl
@[simp] theorem setRo_ports (n : Nat) (f : Ro → Ro) (s : State) : (setRo n f s).ports = s.ports := rfl
@[simp] theorem setRo_torus (n : Nat) (f : Ro → Ro) (s : State) : (setRo n f s).torus = s.torus := rfl
@[simp] theorem setRo_su (n : Nat) (f : Ro → Ro) (s : State) : (setRo n f s).su = s.su := rfl
@[simp] theorem setRo_mbx (n : Nat) (f : Ro → Ro) (s : State) : (setRo n f s).mbx = s.mbx := rfl
@[simp] theorem setRo_mctpOut (n : Nat) (f : Ro → Ro) (s : State) : (setRo n f s).mctpOut = s.mctpOut := rfl
@[simp] theorem setRo_longs (n : Nat) (f : Ro → Ro) (s : State) : (setRo n f s).longs = s.longs := rfl

/-! mapOpens -/

@[simp] theorem mapOpens_pending (f : OpenReq → OpenReq) (s : State) : (mapOpens f s).pending = s.pending := rfl
@[simp] theorem mapOpens_fresh (f : OpenReq → OpenReq) (s : State) : (mapOpens f s).fresh = s.fresh := rfl
@[simp] theorem mapOpens_regs (f : OpenReq → OpenReq) (s : State) : (mapOpens f s).regs = s.regs := rfl
@[simp] theorem mapOpens_chip (f : OpenReq → OpenReq) (s : State) : (mapOpens f s).chip = s.chip := rfl
@[simp] theorem mapOpens_aon (f : OpenReq → OpenReq) (s : State) : (mapOpens f s).aon = s.aon := rfl
@[simp] theorem mapOpens_sec (f : OpenReq → OpenReq) (s : State) : (mapOpens f s).sec = s.sec := rfl
@[simp] theorem mapOpens_rcd (f : OpenReq → OpenReq) (s : State) : (mapOpens f s).rcd = s.rcd := rfl
@[simp] theorem mapOpens_cfg (f : OpenReq → OpenReq) (s : State) : (mapOpens f s).cfg = s.cfg := rfl
@[simp] theorem mapOpens_flash (f : OpenReq → OpenReq) (s : State) : (mapOpens f s).flash = s.flash := rfl
@[simp] theorem mapOpens_st (f : OpenReq → OpenReq) (s : State) : (mapOpens f s).st = s.st := rfl
@[simp] theorem mapOpens_tw (f : OpenReq → OpenReq) (s : State) : (mapOpens f s).tw = s.tw := rfl
@[simp] theorem mapOpens_mem (f : OpenReq → OpenReq) (s : State) : (mapOpens f s).mem = s.mem := rfl
@[simp] theorem mapOpens_time (f : OpenReq → OpenReq) (s : State) : (mapOpens f s).time = s.time := rfl
@[simp] theorem mapOpens_press (f : OpenReq → OpenReq) (s : State) : (mapOpens f s).press = s.press := rfl
@[simp] theorem mapOpens_heat (f : OpenReq → OpenReq) (s : State) : (mapOpens f s).heat = s.heat := rfl
@[simp] theorem mapOpens_budget (f : OpenReq → OpenReq) (s : State) : (mapOpens f s).budget = s.budget := rfl
@[simp] theorem mapOpens_assure (f : OpenReq → OpenReq) (s : State) : (mapOpens f s).assure = s.assure := rfl
@[simp] theorem mapOpens_ports (f : OpenReq → OpenReq) (s : State) : (mapOpens f s).ports = s.ports := rfl
@[simp] theorem mapOpens_torus (f : OpenReq → OpenReq) (s : State) : (mapOpens f s).torus = s.torus := rfl
@[simp] theorem mapOpens_su (f : OpenReq → OpenReq) (s : State) : (mapOpens f s).su = s.su := rfl
@[simp] theorem mapOpens_mbx (f : OpenReq → OpenReq) (s : State) : (mapOpens f s).mbx = s.mbx := rfl
@[simp] theorem mapOpens_mctpOut (f : OpenReq → OpenReq) (s : State) : (mapOpens f s).mctpOut = s.mctpOut := rfl
@[simp] theorem mapOpens_longs (f : OpenReq → OpenReq) (s : State) : (mapOpens f s).longs = s.longs := rfl

/-! dramPut -/

@[simp] theorem dramPut_pending (a : Nat) (bs : Bytes) (s : State) : (dramPut a bs s).pending = s.pending := rfl
@[simp] theorem dramPut_fresh (a : Nat) (bs : Bytes) (s : State) : (dramPut a bs s).fresh = s.fresh := rfl
@[simp] theorem dramPut_regs (a : Nat) (bs : Bytes) (s : State) : (dramPut a bs s).regs = s.regs := rfl
@[simp] theorem dramPut_chip (a : Nat) (bs : Bytes) (s : State) : (dramPut a bs s).chip = s.chip := rfl
@[simp] theorem dramPut_aon (a : Nat) (bs : Bytes) (s : State) : (dramPut a bs s).aon = s.aon := rfl
@[simp] theorem dramPut_sec (a : Nat) (bs : Bytes) (s : State) : (dramPut a bs s).sec = s.sec := rfl
@[simp] theorem dramPut_rcd (a : Nat) (bs : Bytes) (s : State) : (dramPut a bs s).rcd = s.rcd := rfl
@[simp] theorem dramPut_cfg (a : Nat) (bs : Bytes) (s : State) : (dramPut a bs s).cfg = s.cfg := rfl
@[simp] theorem dramPut_flash (a : Nat) (bs : Bytes) (s : State) : (dramPut a bs s).flash = s.flash := rfl
@[simp] theorem dramPut_st (a : Nat) (bs : Bytes) (s : State) : (dramPut a bs s).st = s.st := rfl
@[simp] theorem dramPut_tw (a : Nat) (bs : Bytes) (s : State) : (dramPut a bs s).tw = s.tw := rfl
@[simp] theorem dramPut_time (a : Nat) (bs : Bytes) (s : State) : (dramPut a bs s).time = s.time := rfl
@[simp] theorem dramPut_press (a : Nat) (bs : Bytes) (s : State) : (dramPut a bs s).press = s.press := rfl
@[simp] theorem dramPut_meter (a : Nat) (bs : Bytes) (s : State) : (dramPut a bs s).meter = s.meter := rfl
@[simp] theorem dramPut_heat (a : Nat) (bs : Bytes) (s : State) : (dramPut a bs s).heat = s.heat := rfl
@[simp] theorem dramPut_budget (a : Nat) (bs : Bytes) (s : State) : (dramPut a bs s).budget = s.budget := rfl
@[simp] theorem dramPut_assure (a : Nat) (bs : Bytes) (s : State) : (dramPut a bs s).assure = s.assure := rfl
@[simp] theorem dramPut_ports (a : Nat) (bs : Bytes) (s : State) : (dramPut a bs s).ports = s.ports := rfl
@[simp] theorem dramPut_torus (a : Nat) (bs : Bytes) (s : State) : (dramPut a bs s).torus = s.torus := rfl
@[simp] theorem dramPut_su (a : Nat) (bs : Bytes) (s : State) : (dramPut a bs s).su = s.su := rfl
@[simp] theorem dramPut_mbx (a : Nat) (bs : Bytes) (s : State) : (dramPut a bs s).mbx = s.mbx := rfl
@[simp] theorem dramPut_mctpOut (a : Nat) (bs : Bytes) (s : State) : (dramPut a bs s).mctpOut = s.mctpOut := rfl
@[simp] theorem dramPut_longs (a : Nat) (bs : Bytes) (s : State) : (dramPut a bs s).longs = s.longs := rfl

/-! sendFrame -/

@[simp] theorem sendFrame_pending (g : Frame) (s : State) : (sendFrame g s).pending = s.pending := rfl
@[simp] theorem sendFrame_fresh (g : Frame) (s : State) : (sendFrame g s).fresh = s.fresh := rfl
@[simp] theorem sendFrame_regs (g : Frame) (s : State) : (sendFrame g s).regs = s.regs := rfl
@[simp] theorem sendFrame_chip (g : Frame) (s : State) : (sendFrame g s).chip = s.chip := rfl
@[simp] theorem sendFrame_aon (g : Frame) (s : State) : (sendFrame g s).aon = s.aon := rfl
@[simp] theorem sendFrame_sec (g : Frame) (s : State) : (sendFrame g s).sec = s.sec := rfl
@[simp] theorem sendFrame_rcd (g : Frame) (s : State) : (sendFrame g s).rcd = s.rcd := rfl
@[simp] theorem sendFrame_cfg (g : Frame) (s : State) : (sendFrame g s).cfg = s.cfg := rfl
@[simp] theorem sendFrame_flash (g : Frame) (s : State) : (sendFrame g s).flash = s.flash := rfl
@[simp] theorem sendFrame_st (g : Frame) (s : State) : (sendFrame g s).st = s.st := rfl
@[simp] theorem sendFrame_tw (g : Frame) (s : State) : (sendFrame g s).tw = s.tw := rfl
@[simp] theorem sendFrame_mem (g : Frame) (s : State) : (sendFrame g s).mem = s.mem := rfl
@[simp] theorem sendFrame_time (g : Frame) (s : State) : (sendFrame g s).time = s.time := rfl
@[simp] theorem sendFrame_press (g : Frame) (s : State) : (sendFrame g s).press = s.press := rfl
@[simp] theorem sendFrame_meter (g : Frame) (s : State) : (sendFrame g s).meter = s.meter := rfl
@[simp] theorem sendFrame_heat (g : Frame) (s : State) : (sendFrame g s).heat = s.heat := rfl
@[simp] theorem sendFrame_budget (g : Frame) (s : State) : (sendFrame g s).budget = s.budget := rfl
@[simp] theorem sendFrame_assure (g : Frame) (s : State) : (sendFrame g s).assure = s.assure := rfl
@[simp] theorem sendFrame_ports (g : Frame) (s : State) : (sendFrame g s).ports = s.ports := rfl
@[simp] theorem sendFrame_torus (g : Frame) (s : State) : (sendFrame g s).torus = s.torus := rfl
@[simp] theorem sendFrame_mbx (g : Frame) (s : State) : (sendFrame g s).mbx = s.mbx := rfl
@[simp] theorem sendFrame_mctpOut (g : Frame) (s : State) : (sendFrame g s).mctpOut = s.mctpOut := rfl
@[simp] theorem sendFrame_longs (g : Frame) (s : State) : (sendFrame g s).longs = s.longs := rfl

/-! What an update leaves in its own part -/

theorem SMap.get_find {α : Type} (d : α) (m : SMap α) (k : Nat) : SMap.get d m k = (SMap.find m k).getD d := by
  induction m with
  | nil => rfl
  | cons e t ih =>
    unfold SMap.get SMap.find
    split
    · rfl
    · exact ih

/-- A register word after a write. -/
theorem rd_wr (off o : Nat) (v : W32) (s : State) : rd (wr off v s) o = if o = off then v else rd s o := by
  have h (t : State) (x : Nat) : rd t x = SMap.get (regReset x) t.regs x := by
    rw [SMap.get_find]
    unfold rd
    cases SMap.find t.regs x <;> rfl
  rw [h, h]
  unfold wr
  dsimp only
  split
  · rename_i e
    rw [SMap.get_erase]
    split
    · rename_i g
      rw [g, e]
    · rfl
  · rw [SMap.get_insert]

@[simp] theorem rd_wr_same (off : Nat) (v : W32) (s : State) : rd (wr off v s) off = v := by rw [rd_wr, if_pos rfl]

theorem rd_wr_other {off o : Nat} (h : o ≠ off) (v : W32) (s : State) : rd (wr off v s) o = rd s o := by rw [rd_wr, if_neg h]

@[simp] theorem mbox_setMb (n m : Nat) (f : Mailbox → Mailbox) (s : State) :
    mbox (setMb n f s) m = if m = n then f (mbox s n) else mbox s m := by
  simp [mbox, setMb, SMap.upd]

@[simp] theorem rail_setRail (r x : Nat) (f : Rail → Rail) (s : State) :
    rail (setRail r f s) x = if x = r then f (rail s r) else rail s x := by
  simp [rail, setRail, SMap.upd]

@[simp] theorem strand_setStrand (n m : Nat) (f : Strand → Strand) (s : State) :
    strand (setStrand n f s) m = if m = n then f (strand s n) else strand s m := by
  simp [strand, setStrand, SMap.upd]

@[simp] theorem port_setPort (k j : Nat) (f : Port → Port) (s : State) :
    port (setPort k f s) j = if j = k then f (port s k) else port s j := by
  simp [port, setPort, SMap.upd]

@[simp] theorem cluster_setCl (c d : Nat) (f : Cluster → Cluster) (s : State) :
    cluster (setCl c f s) d = if d = c then f (cluster s c) else cluster s d := by
  simp [cluster, setCl, SMap.upd]

@[simp] theorem iron_setIron (i j : Nat) (f : Iron → Iron) (s : State) :
    iron (setIron i f s) j = if j = i then f (iron s i) else iron s j := by
  simp [iron, setIron, SMap.upd]

@[simp] theorem accB_setAcc (a b : Nat) (f : AccB → AccB) (s : State) :
    accB (setAcc a f s) b = if b = a then f (accB s a) else accB s b := by
  simp [accB, setAcc, SMap.upd]

@[simp] theorem leakLoop_setLoop (l m : Nat) (f : LeakLoop → LeakLoop) (s : State) :
    leakLoop (setLoop l f s) m = if m = l then f (leakLoop s l) else leakLoop s m := by
  simp [leakLoop, setLoop, SMap.upd]

@[simp] theorem coreSt_setCore (k j : Nat) (f : CoreSt → CoreSt) (s : State) :
    coreSt (setCore k f s) j = if j = k then f (coreSt s k) else coreSt s j := by
  simp [coreSt, setCore, SMap.upd]

@[simp] theorem ro_setRo (n m : Nat) (f : Ro → Ro) (s : State) :
    ro (setRo n f s) m = if m = n then f (ro s n) else ro s m := by
  simp [ro, setRo, SMap.upd]

/-! Counters -/

theorem rdN_bumpBy (off n : Nat) (s : State) : rdN (bumpBy off n s) off = min (rdN s off + n) 0xFFFFFFFF := by
  unfold rdN bumpBy
  rw [rd_wr_same, BitVec.toNat_ofNat]
  exact Nat.mod_eq_of_lt (Nat.lt_of_le_of_lt (Nat.min_le_right _ _) (by decide))

end Sys2Proof.Machine
end

