-- ==== Sys2Proof/Laws/Still.lean ====
section
/-! SUPPORT. What the settling of a command's effect leaves alone, function by function. -/

set_option linter.unusedTactic false
set_option linter.unreachableTactic false

namespace Sys2Proof.Machine

/-- What no settling touches. -/
structure Still where
  flash : SMap Bytes
  cfg : Cfg
  time : TrayTime
  heat : Heat
  sec : Sec
  budget : Budget

def still (s : State) : Still := ⟨s.flash, s.cfg, s.time.kept, s.heat, s.sec.kept, s.budget⟩

@[simp] theorem still_mk (pending fresh regs chip aon sec rcd cfg flash st tw mem time press meter heat budget assure ports torus su
    mbx mctpOut longs) :
    still (State.mk pending fresh regs chip aon sec rcd cfg flash st tw mem time press meter heat budget assure ports torus su
    mbx mctpOut longs) = ⟨flash, cfg, time.kept, heat, sec.kept, budget⟩ := rfl

@[simp] theorem still_fold (s : State) : (Still.mk s.flash s.cfg s.time.kept s.heat s.sec.kept s.budget) =
    still s := rfl

@[simp] theorem still_ite {c : Prop} [Decidable c] (a b : State) : still (if c then a else b) = if c then still a else still b := by
  split <;> rfl

@[simp] theorem still_foldl {α : Type} (f : State → α → State) (h : ∀ s x, still (f s x) = still s) (xs : List α) (s : State) :
    still (xs.foldl f s) = still s := by
  induction xs generalizing s with
  | nil => rfl
  | cons x t ih => rw [List.foldl_cons, ih, h]

/-! Ops.lean -/

@[simp] theorem wr_stays (off : Nat) (v : W32) (s : State) :
    still (wr off v s) = still s := by
  simp [wr]

@[simp] theorem setBits_stays (off : Nat) (m : Nat) (s : State) :
    still (setBits off m s) = still s := by
  simp [setBits]

@[simp] theorem clrBits_stays (off : Nat) (m : Nat) (s : State) :
    still (clrBits off m s) = still s := by
  simp [clrBits]

@[simp] theorem wrFld_stays (off hi lo v : Nat) (s : State) :
    still (wrFld off hi lo v s) = still s := by
  simp [wrFld]

@[simp] theorem bumpBy_stays (off n : Nat) (s : State) :
    still (bumpBy off n s) = still s := by
  simp [bumpBy]

@[simp] theorem bump_stays (off : Nat) (s : State) :
    still (bump off s) = still s := by
  simp [bump]

@[simp] theorem dropRegs_stays (p : Nat → Bool) (s : State) :
    still (dropRegs p s) = still s := by
  simp [dropRegs]

@[simp] theorem applyReg_stays (e : RegEntry) (s : State) :
    still (applyReg e s) = still s := by
  simp [applyReg]

@[simp] theorem loadRegs_stays (p : Nat → Bool) (s : State) :
    still (loadRegs p s) = still s := by
  simp [loadRegs]

@[simp] theorem enqueueEvent_stays (e : Ev) (s : State) :
    still (enqueueEvent e s) = still s := by
  simp [enqueueEvent]

@[simp] theorem raiseEvent_stays (e : Ev) (s : State) :
    still (raiseEvent e s) = still s := by
  simp [raiseEvent]

@[simp] theorem raise_stays (cls code inst : Nat) (data : Bytes) (s : State) :
    still (raise cls code inst data s) = still s := by
  simp [raise]

@[simp] theorem sendFrame_stays (f : Frame) (s : State) :
    still (sendFrame f s) = still s := by
  simp [sendFrame]

@[simp] theorem emitNotice_stays (kind : Nat) (n : Notice) (s : State) :
    still (emitNotice kind n s) = still s := by
  simp [emitNotice]

@[simp] theorem notice_stays (kind arg status value : Nat) (s : State) :
    still (notice kind arg status value s) = still s := by
  simp [notice]

@[simp] theorem setPort_stays (k : Nat) (f : Port → Port) (s : State) :
    still (setPort k f s) = still s := by
  simp [setPort]

@[simp] theorem sendFlits_stays (k : Nat) (fs : List Flit) (s : State) :
    still (sendFlits k fs s) = still s := by
  simp [sendFlits]

@[simp] theorem sendCtrl_stays (k kind : Nat) (payload : Bytes) (s : State) :
    still (sendCtrl k kind payload s) = still s := by
  simp [sendCtrl]

@[simp] theorem passAcc_stays (a : Nat) (rsp : Bool) (m : Msg) (s : State) :
    still (passAcc a rsp m s) = still s := by
  simp [passAcc]

@[simp] theorem sendAcc_stays (a : Nat) (rsp : Bool) (m : Msg) (s : State) :
    still (sendAcc a rsp m s) = still s := by
  simp [sendAcc]

/-! TwOps.lean -/

@[simp] theorem twGo_stays (n st : Nat) (s : State) :
    still (twGo n st s) = still s := by
  simp [twGo]

@[simp] theorem setTw_stays (n : Nat) (f : TwPort → TwPort) (s : State) :
    still (setTw n f s) = still s := by
  simp [setTw]

@[simp] theorem twServe_stays (n : Nat) (s : State) :
    still (twServe n s) = still s := by
  unfold twServe
  repeat' (first | (simp_all; done) | split | (refine (still_foldl _ ?_ _ _).trans ?_) | intro _ _ | dsimp only | simp only [still_mk, still_fold] | simp)

@[simp] theorem twEngine_stays (n : Nat) (r : TwReq) (s : State) :
    still (twEngine n r s) = still s := by
  simp [twEngine]

@[simp] theorem twCoreEnd_stays (n result count : Nat) (s : State) :
    still (twCoreEnd n result count s) = still s := by
  simp [twCoreEnd]

/-! Route.lean -/

theorem sendNode_stays {rsp : Bool} {m : Msg} {s : State} (t0 : State) (h0 : sendNode rsp m s = some t0) :
    still t0 = still s := by
  unfold sendNode at h0
  repeat' (first | (simp at h0; done) | split at h0 | (cases h0) | dsimp only at h0 | (simp_all; done) | split | (refine (still_foldl _ ?_ _ _).trans ?_) | intro _ _ | dsimp only | simp only [still_mk, still_fold] | simp)

@[simp] theorem sendNodeOrCount_stays (rsp : Bool) (m : Msg) (s : State) :
    still (sendNodeOrCount rsp m s) = still s := by
  unfold sendNodeOrCount
  repeat' (first | (simp_all; done) | (have hh := sendNode_stays _ (by assumption); simp_all; done) | split | (refine (still_foldl _ ?_ _ _).trans ?_) | intro _ _ | dsimp only | simp only [still_mk, still_fold] | simp)

/-! Mailbox.lean -/

@[simp] theorem setMb_stays (n : Nat) (f : Mailbox → Mailbox) (s : State) :
    still (setMb n f s) = still s := by
  simp [setMb]

@[simp] theorem mbIdle_stays (n : Nat) (s : State) : still (mbIdle n s) = still s := by
  unfold mbIdle
  dsimp only
  split
  · rw [setMb_stays]
    rfl
  · rw [setMb_stays]

@[simp] theorem writeReply_stays (n : Nat) (bytes : Bytes) (s : State) :
    still (writeReply n bytes s) = still s := by
  simp [writeReply]

@[simp] theorem reply_stays (n st : Nat) (payload : Bytes) (s : State) :
    still (reply n st payload s) = still s := by
  simp [reply]

@[simp] theorem endLong_stays (l : Long) (st : Nat) (payload : Bytes) (s : State) :
    still (endLong l st payload s) = still s := by
  simp [endLong]

@[simp] theorem finishLongs_stays (p : LongKind → Bool) (st : Nat) (payload : Bytes) (s : State) :
    still (finishLongs p st payload s) = still s := by
  simp [finishLongs]

@[simp] theorem finishLong_stays (k : LongKind) (st : Nat) (payload : Bytes) (s : State) :
    still (finishLong k st payload s) = still s := by
  simp [finishLong]

/-! PortOps.lean -/

@[simp] theorem captureErr_stays (bit a : Nat) (s : State) :
    still (captureErr bit a s) = still s := by
  simp [captureErr]

@[simp] theorem absentError_stays (a : Nat) (s : State) :
    still (absentError a s) = still s := by
  simp [absentError]

@[simp] theorem absentWrite_stays (m a : Nat) (s : State) :
    still (absentWrite m a s) = still s := by
  simp [absentWrite]

@[simp] theorem hostErr_stays (tag status : Nat) (s : State) :
    still (hostErr tag status s) = still s := by
  simp [hostErr]

@[simp] theorem respond_stays (k : Nat) (m : Msg) (s : State) :
    still (respond k m s) = still s := by
  simp [respond]

@[simp] theorem answerErr_stays (o : Owner) (status : Nat) (s : State) :
    still (answerErr o status s) = still s := by
  unfold answerErr
  repeat' (first | (simp_all; done) | split | (refine (still_foldl _ ?_ _ _).trans ?_) | intro _ _ | dsimp only | simp only [still_mk, still_fold] | simp)

@[simp] theorem remoteAbsent_stays (r : Remote) (status : Nat) (s : State) :
    still (remoteAbsent r status s) = still s := by
  simp [remoteAbsent]

@[simp] theorem issueNow_stays (q : Remote) (s : State) :
    still (issueNow q s) = still s := by
  unfold issueNow
  repeat' (first | (simp_all; done) | (have hh := sendNode_stays _ (by assumption); simp_all; done) | split | (refine (still_foldl _ ?_ _ _).trans ?_) | intro _ _ | dsimp only | simp only [still_mk, still_fold] | simp)

@[simp] theorem issueRemote_stays (port : Nat) (write : Bool) (dst win addr len : Nat) (data : Bytes) (o : Owner) (s : State) :
    still (issueRemote port write dst win addr len data o s) = still s := by
  simp [issueRemote]

@[simp] theorem flood_stays (k l : Nat) (s : State) :
    still (flood k l s) = still s := by
  simp [flood]

@[simp] theorem setLink_stays (l : Nat) (e : LinkEntry) (s : State) :
    still (setLink l e s) = still s := by
  simp [setLink]

@[simp] theorem ownLink_stays (k : Nat) (up : Bool) (s : State) :
    still (ownLink k up s) = still s := by
  simp [ownLink]

@[simp] theorem unreachable_stays (dst tag : Nat) (s : State) :
    still (unreachable dst tag s) = still s := by
  simp [unreachable]

@[simp] theorem fwdFails_stays (tag : Nat) (s : State) :
    still (fwdFails tag s) = still s := by
  unfold fwdFails
  repeat' (first | (simp_all; done) | split | (refine (still_foldl _ ?_ _ _).trans ?_) | intro _ _ | dsimp only | simp only [still_mk, still_fold] | simp)

@[simp] theorem ownFails_stays (cls tag : Nat) (s : State) :
    still (ownFails cls tag s) = still s := by
  simp [ownFails]

@[simp] theorem loseMessage_stays (k : Nat) (f : Flit) (s : State) :
    still (loseMessage k f s) = still s := by
  unfold loseMessage
  repeat' (first | (simp_all; done) | split | (refine (still_foldl _ ?_ _ _).trans ?_) | intro _ _ | dsimp only | simp only [still_mk, still_fold] | simp)

@[simp] theorem loseRemotes_stays (k : Nat) (s : State) :
    still (loseRemotes k s) = still s := by
  simp [loseRemotes]

@[simp] theorem lanesLost_stays (k : Nat) (s : State) :
    still (lanesLost k s) = still s := by
  simp [lanesLost]

@[simp] theorem halfReceived_stays (k : Nat) (p : Port) (s : State) :
    still (halfReceived k p s) = still s := by
  simp [halfReceived]

@[simp] theorem portLose_stays (k : Nat) (s : State) :
    still (portLose k s) = still s := by
  simp [portLose]

@[simp] theorem seamFails_stays (k : Nat) (s : State) :
    still (seamFails k s) = still s := by
  simp [seamFails]

@[simp] theorem portGo_stays (k : Nat) (st : PortSt) (s : State) :
    still (portGo k st s) = still s := by
  simp [portGo]

@[simp] theorem portStart_stays (k : Nat) (s : State) :
    still (portStart k s) = still s := by
  simp [portStart]

@[simp] theorem portPowerUp_stays (k : Nat) (s : State) :
    still (portPowerUp k s) = still s := by
  simp [portPowerUp]

@[simp] theorem portPowerDown_stays (k : Nat) (s : State) :
    still (portPowerDown k s) = still s := by
  simp [portPowerDown]

/-! Time.lean -/

@[simp] theorem beginHoldover_stays (s : State) : still (beginHoldover s) = still s := by
  unfold beginHoldover
  split <;> rfl

@[simp] theorem settleTime_stays (s : State) :
    still (settleTime s) = still s := by
  simp [settleTime]

/-! SuOps.lean -/

@[simp] theorem hostReqAbsent_stays (r : HostReq) (s : State) :
    still (hostReqAbsent r s) = still s := by
  unfold hostReqAbsent
  repeat' (first | (simp_all; done) | split | (refine (still_foldl _ ?_ _ _).trans ?_) | intro _ _ | dsimp only | simp only [still_mk, still_fold] | simp)

@[simp] theorem sendRequest_stays (q : HostReq) (s : State) :
    still (sendRequest q s) = still s := by
  simp [sendRequest]

@[simp] theorem hostRequest_stays (op addr len : Nat) (data : Bytes) (o : Owner) (s : State) :
    still (hostRequest op addr len data o s) = still s := by
  simp [hostRequest]

@[simp] theorem setLine_stays (l : Nat) (v : Option Line) (s : State) :
    still (setLine l v s) = still s := by
  simp [setLine]

@[simp] theorem dropLine_stays (l : Nat) (s : State) :
    still (dropLine l s) = still s := by
  simp [dropLine]

@[simp] theorem hlcPending_stays (l : Nat) (s : State) :
    still (hlcPending l s) = still s := by
  unfold hlcPending
  repeat' (first | (simp_all; done) | split | (refine (still_foldl _ ?_ _ _).trans ?_) | intro _ _ | dsimp only | simp only [still_mk, still_fold] | simp)

@[simp] theorem hlcTouch_stays (l : Nat) (s : State) :
    still (hlcTouch l s) = still s := by
  unfold hlcTouch
  repeat' (first | (simp_all; done) | split | (refine (still_foldl _ ?_ _ _).trans ?_) | intro _ _ | dsimp only | simp only [still_mk, still_fold] | simp)

@[simp] theorem readLines_stays (l n k : Nat) (o : Nat → Owner) (s : State) :
    still (readLines l n k o s) = still s := by
  induction k generalizing l n o s <;> unfold readLines <;> (repeat' (first | (simp_all; done) | split | (refine (still_foldl _ ?_ _ _).trans ?_) | intro _ _ | dsimp only | simp only [still_mk, still_fold] | simp))

theorem hostRead_stays {off len : Nat} {o : Nat → Owner} {s : State} (t0 : State) (y0 : Option Bytes) (h0 : hostRead off len o s = (t0, y0)) :
    still t0 = still s := by
  unfold hostRead at h0
  repeat' (first | (simp at h0; done) | split at h0 | (cases h0) | dsimp only at h0 | (simp_all; done) | split | (refine (still_foldl _ ?_ _ _).trans ?_) | intro _ _ | dsimp only | simp only [still_mk, still_fold] | simp)

@[simp] theorem hostRead_stays_fst (off len : Nat) (o : Nat → Owner) (s : State) :
    still (hostRead off len o s).1 = still s := hostRead_stays _ _ rfl

@[simp] theorem setHlcActive_stays (v : Bool) (s : State) :
    still (setHlcActive v s) = still s := by
  simp [setHlcActive]

@[simp] theorem suGo_stays (st : PortSt) (s : State) :
    still (suGo st s) = still s := by
  simp [suGo]

@[simp] theorem suStart_stays (s : State) :
    still (suStart s) = still s := by
  simp [suStart]

@[simp] theorem suPowerUp_stays (s : State) :
    still (suPowerUp s) = still s := by
  simp [suPowerUp]

/-! Access.lean -/

@[simp] theorem violate_stays (m a n : Nat) (write : Bool) (s : State) : still (violate m a n write s) = still s := by
  have hs (t : State) (x : BitVec 37) : still { t with sec.pinned := x } = still t := rfl
  unfold violate
  dsimp only
  have hb (b : State) (c : Bool) : still (if c = true then b else setBits R.FW_ERR 1 (wr R.FW_VIOL_ADDR_HI (BitVec.ofNat 32 (a / 2 ^ 32 % 65536))
      (wr R.FW_VIOL_ADDR_LO (BitVec.ofNat 32 a) (wr R.FW_VIOL_INFO
        (BitVec.ofNat 32 ((if write then 2 ^ 31 else 0) + n % 8192 * 65536 + m)) b)))) = still b := by
    cases c <;> simp
  split
  · simp
  · split
    · rw [hb]; simp
    · rw [raise_stays, hs, hb]; simp

@[simp] theorem dramPut_stays (a : Nat) (bs : Bytes) (s : State) :
    still (dramPut a bs s) = still s := by
  simp [dramPut]

@[simp] theorem setStack_stays (q : Nat) (f : Stack → Stack) (s : State) :
    still (setStack q f s) = still s := by
  simp [setStack]

@[simp] theorem countLane_stays (q j : Nat) (s : State) :
    still (countLane q j s) = still s := by
  simp [countLane]

@[simp] theorem wordCorrected_stays (a : Nat) (w : Bytes) (bytes : List Nat) (s : State) :
    still (wordCorrected a w bytes s) = still s := by
  simp [wordCorrected]

@[simp] theorem wordLost_stays (a reader : Nat) (w : Bytes) (s0 : State) :
    still (wordLost a reader w s0) = still s0 := by
  simp [wordLost]

theorem readWord_stays {a reader : Nat} {e1 e2 : Bytes} {s : State} (t0 : State) (y0 : Bool) (h0 : readWord a reader e1 e2 s = (t0, y0)) :
    still t0 = still s := by
  unfold readWord at h0
  repeat' (first | (simp at h0; done) | split at h0 | (cases h0) | dsimp only at h0 | (simp_all; done) | split | (refine (still_foldl _ ?_ _ _).trans ?_) | intro _ _ | dsimp only | simp only [still_mk, still_fold] | simp)

@[simp] theorem readWord_stays_fst (a reader : Nat) (e1 e2 : Bytes) (s : State) :
    still (readWord a reader e1 e2 s).1 = still s := readWord_stays _ _ rfl

theorem badWords_keeps_still (w : State × List Nat → Nat → State × List Nat) (s : State)
    (h : ∀ x i, still (w x i).1 = still x.1) (l : List Nat) (x : State × List Nat) (hx : still x.1 = still s) :
    still (l.foldl w x).1 = still s := by
  induction l generalizing x with
  | nil => exact hx
  | cons i t ih => exact ih _ ((h x i).trans hx)
@[simp] theorem dramLoad_stays_fst (reader a n : Nat) (s : State) : still (dramLoad reader a n s).1 = still s := by
  unfold dramLoad
  exact badWords_keeps_still _ _ (fun x w => readWord_stays_fst w reader [] [] x.1) _ _ rfl
theorem dramLoad_stays {reader a n : Nat} {s : State} (t0 : State) (y0 : List Nat) (h0 : dramLoad reader a n s = (t0, y0)) :
    still t0 = still s := by
  rw [← dramLoad_stays_fst reader a n s, h0]

/-! PressOps.lean -/

@[simp] theorem setCl_stays (c : Nat) (f : Cluster → Cluster) (s : State) :
    still (setCl c f s) = still s := by
  simp [setCl]

@[simp] theorem setIron_stays (g : Nat) (f : Iron → Iron) (s : State) :
    still (setIron g f s) = still s := by
  simp [setIron]

@[simp] theorem setIrons_stays (c : Nat) (f : Iron → Iron) (s : State) :
    still (setIrons c f s) = still s := by
  simp [setIrons]

@[simp] theorem setPlan_stays (id : Nat) (f : Plan → Plan) (s : State) :
    still (setPlan id f s) = still s := by
  simp [setPlan]

@[simp] theorem extWrite_stays (c a : Nat) (bs : Bytes) (s : State) :
    still (extWrite c a bs s) = still s := by
  simp [extWrite]

@[simp] theorem extDrop_stays (c : Nat) (s : State) :
    still (extDrop c s) = still s := by
  simp [extDrop]

@[simp] theorem localAbsent_stays (c m a n : Nat) (write : Bool) (bs : Bytes) (s : State) :
    still (localAbsent c m a n write bs s) = still s := by
  simp [localAbsent]

@[simp] theorem pressReadPiece_stays (c m a n : Nat) (s : State) :
    still (pressReadPiece c m a n s) = still s := by
  unfold pressReadPiece
  repeat' (first | (simp_all; done) | (have hh := hostRead_stays _ _ (by assumption); simp_all; done) | (have hh := dramLoad_stays _ _ (by assumption); simp_all; done) | split | (refine (still_foldl _ ?_ _ _).trans ?_) | intro _ _ | dsimp only | simp only [still_mk, still_fold] | simp)

@[simp] theorem pumpReads_stays (rs : List IronRead) (s : State) :
    still (pumpReads rs s) = still s := by
  induction rs generalizing s <;> unfold pumpReads <;> (repeat' (first | (simp_all; done) | split | (refine (still_foldl _ ?_ _ _).trans ?_) | intro _ _ | dsimp only | simp only [still_mk, still_fold] | simp))

@[simp] theorem disown_stays (c : Nat) (s : State) :
    still (disown c s) = still s := by
  simp [disown]

@[simp] theorem releaseCluster_stays (c : Nat) (s : State) :
    still (releaseCluster c s) = still s := by
  simp [releaseCluster]

@[simp] theorem unloadPlan_stays (id : Nat) (s : State) :
    still (unloadPlan id s) = still s := by
  unfold unloadPlan
  repeat' (first | (simp_all; done) | split | (refine (still_foldl _ ?_ _ _).trans ?_) | intro _ _ | dsimp only | simp only [still_mk, still_fold] | simp)

@[simp] theorem endPlan_stays (id : Nat) (st : PlanSt) (reason : Nat) (s : State) :
    still (endPlan id st reason s) = still s := by
  simp [endPlan]

@[simp] theorem requeuePlan_stays (id : Nat) (s : State) :
    still (requeuePlan id s) = still s := by
  simp [requeuePlan]

@[simp] theorem clusterPower_stays (c : Nat) (on : Bool) (s : State) :
    still (clusterPower c on s) = still s := by
  simp [clusterPower]

@[simp] theorem pressLost_stays (s : State) :
    still (pressLost s) = still s := by
  simp [pressLost]

@[simp] theorem stallNow_stays (s : State) :
    still (stallNow s) = still s := by
  simp [stallNow]

/-! PlanExec.lean -/

@[simp] theorem drainLanes_stays (s : State) :
    still (drainLanes s) = still s := by
  simp [drainLanes]

/-! MemOps.lean -/

@[simp] theorem memPowerUp_stays (s : State) :
    still (memPowerUp s) = still s := by
  simp [memPowerUp]

@[simp] theorem memPowerDown_stays (s : State) :
    still (memPowerDown s) = still s := by
  simp [memPowerDown]

/-! Rails.lean -/

@[simp] theorem setTray_stays (t : Tray) (s : State) :
    still (setTray t s) = still s := by
  simp [setTray]

@[simp] theorem setRail_stays (r : Nat) (f : Rail → Rail) (s : State) :
    still (setRail r f s) = still s := by
  simp [setRail]

@[simp] theorem setStrand_stays (n : Nat) (f : Strand → Strand) (s : State) :
    still (setStrand n f s) = still s := by
  simp [setStrand]

@[simp] theorem startStrand_stays (n entry : Nat) (s : State) :
    still (startStrand n entry s) = still s := by
  simp [startStrand]

@[simp] theorem stitchDone_stays (n : Nat) (s : State) :
    still (stitchDone n s) = still s := by
  simp [stitchDone]

@[simp] theorem driveRail_stays (r : Nat) (on : Bool) (s : State) :
    still (driveRail r on s) = still s := by
  simp [driveRail]

@[simp] theorem disableRail_stays (r : Nat) (s : State) :
    still (disableRail r s) = still s := by
  simp [disableRail]

@[simp] theorem fxFirstFailure_stays (torn : Bool) (f : FailRec) (s : State) :
    still (fxFirstFailure torn f s) = still s := by
  simp [fxFirstFailure]

@[simp] theorem freeLatch_stays (s : State) :
    still (freeLatch s) = still s := by
  unfold freeLatch
  repeat' (first | (simp_all; done) | split | (refine (still_foldl _ ?_ _ _).trans ?_) | intro _ _ | dsimp only | simp only [still_mk, still_fold] | simp)

@[simp] theorem logFailure_stays (r cause : Nat) (a : FailAt) (s0 : State) :
    still (logFailure r cause a s0) = still s0 := by
  simp [logFailure]

@[simp] theorem markFailed_stays (r cause : Nat) (a : FailAt) (s : State) :
    still (markFailed r cause a s) = still s := by
  simp [markFailed]

@[simp] theorem beginIsolation_stays (f cause : Nat) (s : State) :
    still (beginIsolation f cause s) = still s := by
  simp [beginIsolation]

@[simp] theorem failRail_stays (r cause : Nat) (a : FailAt) (s : State) :
    still (failRail r cause a s) = still s := by
  simp [failRail]

@[simp] theorem stopStrands_stays (s : State) :
    still (stopStrands s) = still s := by
  simp [stopStrands]

@[simp] theorem cutShort_stays (s : State) :
    still (cutShort s) = still s := by
  simp [cutShort]

@[simp] theorem startReverse_stays (s : State) :
    still (startReverse s) = still s := by
  simp [startReverse]

@[simp] theorem onOrderEnds_stays (s : State) :
    still (onOrderEnds s) = still s := by
  simp [onOrderEnds]

@[simp] theorem beginDown_stays (s : State) :
    still (beginDown s) = still s := by
  simp [beginDown]

@[simp] theorem offRequest_stays (fromRail : Bool) (s : State) :
    still (offRequest fromRail s) = still s := by
  unfold offRequest
  repeat' (first | (simp_all; done) | split | (refine (still_foldl _ ?_ _ _).trans ?_) | intro _ _ | dsimp only | simp only [still_mk, still_fold] | simp)

@[simp] theorem clearMarks_stays (p : Nat → Bool) (s : State) :
    still (clearMarks p s) = still s := by
  simp [clearMarks]

@[simp] theorem setDown_stays (d d' : DownJob) (s : State) :
    still (setDown d d' s) = still s := by
  simp [setDown]

@[simp] theorem dropDown_stays (d : DownJob) (s : State) :
    still (dropDown d s) = still s := by
  simp [dropDown]

@[simp] theorem endIsolation_stays (f : Nat) (gone : List Nat) (s : State) :
    still (endIsolation f gone s) = still s := by
  simp [endIsolation]

@[simp] theorem endDown_stays (d : DownJob) (s : State) :
    still (endDown d s) = still s := by
  unfold endDown
  repeat' (first | (simp_all; done) | split | (refine (still_foldl _ ?_ _ _).trans ?_) | intro _ _ | dsimp only | simp only [still_mk, still_fold] | simp)

theorem moveDown_stays {d : DownJob} {s : State} (t0 : State) (h0 : moveDown d s = some t0) :
    still t0 = still s := by
  unfold moveDown at h0
  repeat' (first | (simp at h0; done) | split at h0 | (cases h0) | dsimp only at h0 | (simp_all; done) | split | (refine (still_foldl _ ?_ _ _).trans ?_) | intro _ _ | dsimp only | simp only [still_mk, still_fold] | simp)

theorem moveIso_stays {s : State} (t0 : State) (h0 : moveIso s = some t0) :
    still t0 = still s := by
  unfold moveIso at h0
  repeat' (first | (simp at h0; done) | split at h0 | (cases h0) | dsimp only at h0 | (simp_all; done) | split | (refine (still_foldl _ ?_ _ _).trans ?_) | intro _ _ | dsimp only | simp only [still_mk, still_fold] | simp)

theorem firstMove_stays {ds : List DownJob} {s : State} (t0 : State) (h0 : firstMove ds s = some t0) :
    still t0 = still s := by
  induction ds with
  | nil => simp [firstMove] at h0
  | cons d t ih =>
    unfold firstMove at h0
    split at h0
    · cases h0
      exact moveDown_stays _ (by assumption)
    · exact ih h0

@[simp] theorem runDowns_stays (fuel : Nat) (s : State) :
    still (runDowns fuel s) = still s := by
  induction fuel generalizing s <;> unfold runDowns <;> (repeat' (first | (simp_all; done) | (have hh := moveIso_stays _ (by assumption); simp_all; done) | (have hh := firstMove_stays _ (by assumption); simp_all; done) | split | (refine (still_foldl _ ?_ _ _).trans ?_) | intro _ _ | dsimp only | simp only [still_mk, still_fold] | simp))

@[simp] theorem parentMark_stays (n : Nat) (s : State) :
    still (parentMark n s) = still s := by
  unfold parentMark
  repeat' (first | (simp_all; done) | split | (refine (still_foldl _ ?_ _ _).trans ?_) | intro _ _ | dsimp only | simp only [still_mk, still_fold] | simp)

@[simp] theorem wakeStrands_stays (s : State) :
    still (wakeStrands s) = still s := by
  simp [wakeStrands]

@[simp] theorem wakeSlots_stays (s : State) :
    still (wakeSlots s) = still s := by
  unfold wakeSlots
  repeat' (first | (simp_all; done) | split | (refine (still_foldl _ ?_ _ _).trans ?_) | intro _ _ | dsimp only | simp only [still_mk, still_fold] | simp)

@[simp] theorem settleRails_stays (s : State) :
    still (settleRails s) = still s := by
  simp [settleRails]

@[simp] theorem marginAck_stays (r : Nat) (s : State) :
    still (marginAck r s) = still s := by
  simp [marginAck]

@[simp] theorem railIsDown_stays (r : Nat) (s : State) :
    still (railIsDown r s) = still s := by
  simp [railIsDown]

@[simp] theorem failQueued_stays (n : Nat) (s : State) :
    still (failQueued n s) = still s := by
  unfold failQueued
  repeat' (first | (simp_all; done) | split | (refine (still_foldl _ ?_ _ _).trans ?_) | intro _ _ | dsimp only | simp only [still_mk, still_fold] | simp)

/-! OrderOps.lean -/

@[simp] theorem executing_stays (n : Nat) (s : State) :
    still (executing n s) = still s := by
  simp [executing]

/-! MeterOps.lean -/

@[simp] theorem closeBatch_stays (byTime : Bool) (s : State) :
    still (closeBatch byTime s) = still s := by
  simp [closeBatch]

@[simp] theorem openBatch_stays (s : State) :
    still (openBatch s) = still s := by
  simp [openBatch]

@[simp] theorem storeTicket_stays (o : OpenReq) (why : CloseWhy) (s : State) :
    still (storeTicket o why s) = still s := by
  simp [storeTicket]

@[simp] theorem closeReq_stays (id : Nat) (why : CloseWhy) (s : State) :
    still (closeReq id why s) = still s := by
  unfold closeReq
  repeat' (first | (simp_all; done) | split | (refine (still_foldl _ ?_ _ _).trans ?_) | intro _ _ | dsimp only | simp only [still_mk, still_fold] | simp)

@[simp] theorem mapOpens_stays (f : OpenReq → OpenReq) (s : State) :
    still (mapOpens f s) = still s := by
  simp [mapOpens]

@[simp] theorem shutAll_stays (s : State) :
    still (shutAll s) = still s := by
  simp [shutAll]

@[simp] theorem shutAcc_stays (a : Nat) (s : State) :
    still (shutAcc a s) = still s := by
  simp [shutAcc]

@[simp] theorem settleMeter_stays (s : State) :
    still (settleMeter s) = still s := by
  simp [settleMeter]

/-! Trips.lean -/

@[simp] theorem coreIslandsOff_stays (s : State) :
    still (coreIslandsOff s) = still s := by
  simp [coreIslandsOff]

/-! AssureOps.lean -/

@[simp] theorem setCap_stays (order : Nat) (f : Capsule → Capsule) (s : State) :
    still (setCap order f s) = still s := by
  simp [setCap]

@[simp] theorem dropPlan_stays (id : Nat) (s : State) :
    still (dropPlan id s) = still s := by
  simp [dropPlan]

@[simp] theorem setJob_stays (j : Nat) (f : Job → Job) (s : State) :
    still (setJob j f s) = still s := by
  simp [setJob]

@[simp] theorem advanceJob_stays (j : Nat) (s : State) :
    still (advanceJob j s) = still s := by
  simp [advanceJob]

@[simp] theorem onVerdict_stays (j a step : Nat) (o : StepEnd) (s : State) :
    still (onVerdict j a step o s) = still s := by
  unfold onVerdict
  repeat' (first | (simp_all; done) | split | (refine (still_foldl _ ?_ _ _).trans ?_) | intro _ _ | dsimp only | simp only [still_mk, still_fold] | simp)

@[simp] theorem logVerdict_stays (acc v : Nat) (rec : Nat → Bytes) (s : State) :
    still (logVerdict acc v rec s) = still s := by
  simp [logVerdict]

@[simp] theorem sendVerdict_stays (c : Capsule) (v : Nat) (s : State) :
    still (sendVerdict c v s) = still s := by
  unfold sendVerdict
  repeat' (first | (simp_all; done) | split | (refine (still_foldl _ ?_ _ _).trans ?_) | intro _ _ | dsimp only | simp only [still_mk, still_fold] | simp)

@[simp] theorem countVerdict_stays (v : Nat) (s : State) :
    still (countVerdict v s) = still s := by
  simp [countVerdict]

@[simp] theorem dropReplay_stays (c : Capsule) (s : State) :
    still (dropReplay c s) = still s := by
  unfold dropReplay
  repeat' (first | (simp_all; done) | split | (refine (still_foldl _ ?_ _ _).trans ?_) | intro _ _ | dsimp only | simp only [still_mk, still_fold] | simp)

@[simp] theorem finishCap_stays (c : Capsule) (v : Nat) (between : State → State) (s : State) (h_between : ∀ x0, still (between x0) = still x0) :
    still (finishCap c v between s) = still s := by
  unfold finishCap
  repeat' (first | (simp_all [h_between]; done) | split | (refine (still_foldl _ ?_ _ _).trans ?_) | intro _ _ | dsimp only | simp only [still_mk, still_fold] | simp)

@[simp] theorem withdraw_stays (p : Capsule → Bool) (s : State) :
    still (withdraw p s) = still s := by
  simp [withdraw]

/-! AssureRun.lean -/

@[simp] theorem toQueued_stays (c : Capsule) (s : State) :
    still (toQueued c s) = still s := by
  simp [toQueued]

@[simp] theorem refuseCap_stays (event : Bool) (c : Capsule) (s : State) :
    still (refuseCap event c s) = still s := by
  simp [refuseCap]

@[simp] theorem delegateNext_stays (c : Capsule) (s : State) :
    still (delegateNext c s) = still s := by
  unfold delegateNext
  repeat' (first | (simp_all; done) | split | (refine (still_foldl _ ?_ _ _).trans ?_) | intro _ _ | dsimp only | simp only [still_mk, still_fold] | simp)

@[simp] theorem askNext_stays (c : Capsule) (s : State) :
    still (askNext c s) = still s := by
  unfold askNext
  repeat' (first | (simp_all; done) | split | (refine (still_foldl _ ?_ _ _).trans ?_) | intro _ _ | dsimp only | simp only [still_mk, still_fold] | simp)

@[simp] theorem passPeer_stays (c : Capsule) (s : State) :
    still (passPeer c s) = still s := by
  simp [passPeer]

@[simp] theorem requestLost_stays (tag : Nat) (s : State) :
    still (requestLost tag s) = still s := by
  unfold requestLost
  repeat' (first | (simp_all; done) | split | (refine (still_foldl _ ?_ _ _).trans ?_) | intro _ _ | dsimp only | simp only [still_mk, still_fold] | simp)

@[simp] theorem followPlan_stays (s : State) (c : Capsule) :
    still (followPlan s c) = still s := by
  unfold followPlan
  repeat' (first | (simp_all; done) | split | (refine (still_foldl _ ?_ _ _).trans ?_) | intro _ _ | dsimp only | simp only [still_mk, still_fold] | simp)

@[simp] theorem followPeer_stays (s : State) (c : Capsule) :
    still (followPeer s c) = still s := by
  unfold followPeer
  repeat' (first | (simp_all; done) | split | (refine (still_foldl _ ?_ _ _).trans ?_) | intro _ _ | dsimp only | simp only [still_mk, still_fold] | simp)

@[simp] theorem loseImages_stays (s : State) :
    still (loseImages s) = still s := by
  simp [loseImages]

@[simp] theorem settleCaps_stays (s : State) :
    still (settleCaps s) = still s := by
  simp [settleCaps]

@[simp] theorem settleAssure_stays (s : State) :
    still (settleAssure s) = still s := by
  simp [settleAssure]

/-! Settle.lean -/

@[simp] theorem settleTray_stays (s : State) :
    still (settleTray s) = still s := by
  simp [settleTray]

@[simp] theorem settleAcc_stays (a : Nat) (s : State) :
    still (settleAcc a s) = still s := by
  simp [settleAcc]

@[simp] theorem settleLinks_stays (s : State) :
    still (settleLinks s) = still s := by
  simp [settleLinks]

@[simp] theorem settleCore_stays (s : State) :
    still (settleCore s) = still s := by
  simp [settleCore]

@[simp] theorem settleIslands_stays (s : State) :
    still (settleIslands s) = still s := by
  simp [settleIslands]

@[simp] theorem settleHlc_stays (s : State) :
    still (settleHlc s) = still s := by
  simp [settleHlc]

@[simp] theorem startAcc_stays (a : Nat) (s : State) :
    still (startAcc a s) = still s := by
  simp [startAcc]

@[simp] theorem settleAccStart_stays (s : State) :
    still (settleAccStart s) = still s := by
  simp [settleAccStart]

@[simp] theorem settleAccPower_stays (s : State) :
    still (settleAccPower s) = still s := by
  unfold settleAccPower
  repeat' (first | (simp_all; done) | split | (refine (still_foldl _ ?_ _ _).trans ?_) | intro _ _ | dsimp only | simp only [still_mk, still_fold] | simp)

@[simp] theorem settleStuck_stays (s : State) :
    still (settleStuck s) = still s := by
  simp [settleStuck]

@[simp] theorem settlePress_stays (s : State) :
    still (settlePress s) = still s := by
  simp [settlePress]

end Sys2Proof.Machine
end

