-- ==== Sys2Proof/WellFormed.lean ====
section
/-! DEFINITION. Well-formed commands: each operand lies within the field, or has the length, that the rules give it. What a
command finds of the machine is no part of it.
Log entries coded here: 6 (DESIGN CHOICE). -/

namespace Sys2Proof

/-- The operands of a command fit their fields. -/
def Instr.wellFormed (i : Instr) : Bool :=
  match i with
  | .sysrstNLow _ _ board => board.all (fun e => decide (e.1 < 104))
  | .sysrstNRelease selfTest _ => selfTest < 5
  | .secFirmwareRunning => true
  | .bootComplete => true
  | .vaonLeavesWindow => true
  | .vstbyLow => true
  | .vstbyRestored => true
  | .pfailNFall => true
  | .refclkLost => true
  | .refclkReturned => true
  | .xtalStopped => true
  | .xtalReturned => true
  | .optimeTick => true
  | .rackPermitLow => true
  | .rackPermitHigh => true
  | .rackOffNLow => true
  | .rackOffNHigh => true
  | .rackThrottleNLow => true
  | .rackThrottleNHigh => true
  | .sequencingUpStart => true
  | .sequencingUpEnd => true
  | .reverseSequenceEnd => true
  | .aonTripSequenceEnd => true
  | .tripRestart => true
  | .islandDrained _ => true
  | .gradientCheck => true
  | .registerWrite _ addr _ => addr % 4 == 0 && addr < 2 ^ 48
  | .suspend _ => true
  | .resume _ => true
  | .selftest _ => true
  | .abort _ => true
  | .clFreqWrite _ _ => true
  | .bridgeCtrlWrite _ _ => true
  | .planLoad _ => true
  | .scratchSpaceFreed _ => true
  | .phaseComplete ended => ended.corrected.all (fun e => decide (e.1 < 192) && decide (e.2 < 2 ^ 32))
  | .checkFailure _ _ _ _ => true
  | .quickTestComplete _ _ => true
  | .selftestComplete _ badIrons _ _ => badIrons < 2 ^ 24
  | .restartTimeout _ => true
  | .sourcePoisonReload _ _ _ => true
  | .stall1s _ => true
  | .absentRetry _ _ => true
  | .sramScrub _ _ corrected _ => corrected < 2 ^ 32
  | .hashEngineGrant => true
  | .clusterPowerUp _ => true
  | .clusterPowerDown _ => true
  | .stepOpen _ payload => payload.length ≤ 4096
  | .capsule _ payload => payload.length ≤ 4096
  | .capsuleFetchComplete src capsule' => src < 2056 && capsule' < 2 ^ 64
  | .replayComplete src capsule' => src < 2056 && capsule' < 2 ^ 64
  | .peerPlanCopyComplete src capsule' => src < 2056 && capsule' < 2 ^ 64
  | .thirdReq node payload => node < 2048 && payload.length ≤ 4096
  | .thirdExecutionComplete node req => node < 2048 && req < 2 ^ 64
  | .thirdResult node payload => node < 2048 && payload.length ≤ 4096
  | .peerRetry src capsule' => src < 2056 && capsule' < 2 ^ 64
  | .verdictDelivered src capsule' => src < 2056 && capsule' < 2 ^ 64
  | .darnCaptureComplete src capsule' => src < 2056 && capsule' < 2 ^ 64
  | .darnOffer _ payload => payload.length ≤ 4096
  | .darnFetchComplete darn => darn < 2 ^ 128
  | .darnPreparationComplete darn => darn < 2 ^ 128
  | .darnWant _ payload => payload.length ≤ 4096
  | .screenResult _ payload => payload.length ≤ 4096
  | .delegateCapsule node payload => node < 2048 && payload.length ≤ 4096
  | .delegateVerdict node payload => node < 2048 && payload.length ≤ 4096
  | .dramRead addr _ err1 err2 => addr < 2 ^ 48 && err1.length ≤ 64 && err2.length ≤ 64
  | .dramWrite addr store err' => addr < 2 ^ 48 && store.bytes.length ≤ 4096 && err'.length ≤ store.bytes.length + 64
  | .patrolScrubRead _ err1 err2 => err1.length ≤ 64 && err2.length ≤ 64
  | .scrubNow => true
  | .scrubPassComplete _ => true
  | .dramTempRead _ _ => true
  | .refreshBandLower _ => true
  | .tcModeWrite _ => true
  | .memTrainingComplete _ _ => true
  | .memZeroFillComplete _ => true
  | .portEnable _ => true
  | .portRetrainRequest _ => true
  | .lanesTrained _ inverted => inverted < 2 ^ 16
  | .flitAligned _ => true
  | .linkId _ payload => payload.length ≤ 4096
  | .linkMap _ payload => payload.length ≤ 4096
  | .keyCert _ payload => payload.length ≤ 4096
  | .trainingTimeout _ => true
  | .downRetry _ => true
  | .identRecheck _ => true
  | .portFailure _ _ => true
  | .retrainComplete _ _ => true
  | .flitReceived _ bytes => bytes.length ≤ 8192
  | .nak _ seq => seq < 4096
  | .ctrlSlotDue _ => true
  | .trayStatusSend => true
  | .accStatus _ payload => payload.length ≤ 4096
  | .messageInject header payload => header.length == 32 && payload.length ≤ 4096
  | .flitForward _ header payload => header.length == 32 && payload.length ≤ 4096
  | .linkNotice _ payload => payload.length ≤ 4096
  | .linkUpDeclare _ => true
  | .timeExchange _ => true
  | .timeFlit _ payload arrival => payload.length ≤ 4096 && arrival < 2 ^ 64
  | .loopReq _ payload => payload.length ≤ 4096
  | .windowDecl _ payload => payload.length ≤ 4096
  | .rdReq _ header payload => header.length == 32 && payload.length ≤ 4096
  | .rdData _ header payload => header.length == 32 && payload.length ≤ 4096
  | .wrReq _ header payload => header.length == 32 && payload.length ≤ 4096
  | .wrAck _ header payload => header.length == 32 && payload.length ≤ 4096
  | .err _ header payload => header.length == 32 && payload.length ≤ 4096
  | .fwd _ header payload => header.length == 32 && payload.length ≤ 4096
  | .order _ header payload => header.length == 32 && payload.length ≤ 4096
  | .orderReply _ header payload => header.length == 32 && payload.length ≤ 4096
  | .routeCtrlWrite _ => true
  | .frameReceived bytes => bytes.length ≤ 8192
  | .hRd header payload => header.length == 32 && payload.length ≤ 4096
  | .hWr header payload => header.length == 32 && payload.length ≤ 4096
  | .hWb header payload => header.length == 32 && payload.length ≤ 4096
  | .snpInv header payload => header.length == 32 && payload.length ≤ 4096
  | .grant header payload => header.length == 32 && payload.length ≤ 4096
  | .data header payload => header.length == 32 && payload.length ≤ 4096
  | .ack header payload => header.length == 32 && payload.length ≤ 4096
  | .hostReset => true
  | .suortaLinkDown => true
  | .timeFrame header payload => header.length == 32 && payload.length ≤ 4096
  | .fwdFrame header payload => header.length == 32 && payload.length ≤ 4096
  | .submit _ => true
  | .release _ => true
  | .mailboxAbort _ => true
  | .orderTakeTimeout _ => true
  | .mctpOrder _ tagged message => tagged < 2 ^ 16 && message.length ≤ 65536
  | .setEndpointId _ tagged message => tagged < 2 ^ 16 && message.length ≤ 65536
  | .getEndpointId _ tagged message => tagged < 2 ^ 16 && message.length ≤ 65536
  | .getEndpointUuid _ tagged message => tagged < 2 ^ 16 && message.length ≤ 65536
  | .getMctpVersionSupport _ tagged message => tagged < 2 ^ 16 && message.length ≤ 65536
  | .getMessageTypeSupport _ tagged message => tagged < 2 ^ 16 && message.length ≤ 65536
  | .getVendorDefinedMessageSupport _ tagged message => tagged < 2 ^ 16 && message.length ≤ 65536
  | .hello _ => true
  | .ping _ => true
  | .trayQuery _ => true
  | .regRead _ => true
  | .regWrite _ => true
  | .identitySet _ => true
  | .peerWinSet _ => true
  | .hlcCtrl _ => true
  | .hcrSet _ => true
  | .trayOn _ => true
  | .trayOff _ => true
  | .accPower _ => true
  | .railQuery _ => true
  | .stitchLoad _ image => image.length ≤ 33554432
  | .slotLoad _ image => image.length ≤ 33554432
  | .faillogRead _ => true
  | .margin _ _ => true
  | .meterRead _ => true
  | .ticketFetch _ => true
  | .batchQuery _ => true
  | .calibrate _ => true
  | .timeSet _ => true
  | .thermalQuery _ => true
  | .coolQuery _ => true
  | .coolOverride _ => true
  | .leakQuery _ => true
  | .leakReset _ => true
  | .capSet _ => true
  | .capQuery _ => true
  | .workSubmit _ => true
  | .workCancel _ => true
  | .ledgerQuery _ => true
  | .assurePolicy _ => true
  | .replayRegister _ => true
  | .replayRemove _ => true
  | .jobQuery _ => true
  | .jobRollback _ => true
  | .jobClose _ => true
  | .capsuleRelease _ => true
  | .accUntag _ => true
  | .darnQuery _ => true
  | .selfUntag _ => true
  | .planSubmit _ => true
  | .planQuery _ => true
  | .planAbort _ => true
  | .clusterCtrl _ => true
  | .eventRead _ => true
  | .eventClear _ => true
  | .configStage _ image => image.length ≤ 33554432
  | .configActivate _ => true
  | .rollback _ => true
  | .configQuery _ => true
  | .attest _ => true
  | .keyQuery _ => true
  | .fwStage _ image => image.length ≤ 33554432
  | .fwActivate _ => true
  | .coreRestart _ => true
  | .unpin _ => true
  | .starchTighten _ => true
  | .debugUnlock _ => true
  | .getId _ => true
  | .powerOn _ => true
  | .powerOff _ => true
  | .readRails _ => true
  | .loadSlots _ => true
  | .readSlots _ => true
  | .readTemps _ => true
  | .setFan _ => true
  | .readLog _ => true
  | .readEnergy _ => true
  | .stEnd _ => true
  | .stEnable _ => true
  | .stDisable _ => true
  | .stWait _ => true
  | .stWaitpg _ => true
  | .stCheck _ mv da => mv < 2 ^ 16 && da < 2 ^ 16
  | .stJump _ => true
  | .stJumpif _ => true
  | .stSignal _ => true
  | .stAwait _ => true
  | .stLog _ => true
  | .stitchMargin _ _ => true
  | .parentsOn _ => true
  | .enableActionComplete _ => true
  | .pmbusAttemptRetry _ => true
  | .waitElapsed _ => true
  | .powerGood _ => true
  | .waitpgTimeout _ mv da tUs => mv < 2 ^ 16 && da < 2 ^ 16 && tUs < 2 ^ 32
  | .railBelowOff _ => true
  | .offGapElapsed _ => true
  | .fallTimeout _ mv da tUs => mv < 2 ^ 16 && da < 2 ^ 16 && tUs < 2 ^ 32
  | .railFailureDetected _ _ mv da tUs => mv < 2 ^ 16 && da < 2 ^ 16 && tUs < 2 ^ 32
  | .statusWordPoll _ _ _ tUs => tUs < 2 ^ 32
  | .strandLoopLimit _ => true
  | .pfailFallCheck mv tUs => mv.length == 256 && tUs < 2 ^ 32
  | .slotEnableTime _ => true
  | .slotDisableTime _ => true
  | .firstFailureWritten _ => true
  | .stGroupBlockWrite _ => true
  | .meterSample volts amps => volts.length == 256 && amps.length == 256
  | .calSweepStart => true
  | .channelCalComplete _ _ _ dac => dac < 2 ^ 16
  | .calSweepEnd => true
  | .timeStepApply => true
  | .attribInterval _ payload => payload.length ≤ 4096
  | .intervalAttribution => true
  | .ticketIdleClose request => request < 2 ^ 64
  | .ticketMaxClose request => request < 2 ^ 64
  | .batchTimeClose => true
  | .batchSigned => true
  | .budgetPeriod => true
  | .heldGrantRepeat => true
  | .demand _ payload => payload.length ≤ 4096
  | .guardCompare _ meanW => meanW < 2 ^ 16
  | .guardLevelUpdate _ => true
  | .accThrCauseClear _ _ => true
  | .ledgerPeriod => true
  | .traySummary => true
  | .ringSensorConversion counts temps => counts.length == 96 && temps.length == 96
  | .remoteDiodeConversion _ _ => true
  | .diodeSafetyClear _ => true
  | .thermistorConversion _ ohms => ohms < 2 ^ 32
  | .inputFaultClear _ _ => true
  | .trimUpdate => true
  | .thermalLimitStep => true
  | .coolingOutputUpdate => true
  | .kick _ => true
  | .wdgRelease => true
  | .coolingWatchdogFire => true
  | .fanPumpFailure _ rpm => rpm < 2 ^ 16
  | .flowLow _ rate => rate < 2 ^ 16
  | .coolingFailureRecovery _ _ speed => speed < 2 ^ 16
  | .tachReport rpm rates => rpm.length == 40 && rates.length == 16
  | .qcapReport => true
  | .overrideExpiry _ => true
  | .leakMeasurement _ ins cont => ins < 2 ^ 32 && cont < 2 ^ 32
  | .relaxedResponseEnd _ => true
  | .go _ _ => true
  | .twTransactionEnd _ _ data' => data'.length ≤ 255
  | .busIdleDetect _ => true
  | .sclLowTimeout _ => true
  | .stuckSdaDetect _ => true
  | .resetLineRelease _ _ _ => true
  | .stuckRetry _ _ _ => true
  | .targetStandbyEntry _ => true
  | .targetWake _ => true
  | .targetProtocolError _ _ => true
  | .targetWriteReceived _ data' => data'.length ≤ 255
  | .twStestGo _ _ => true
  | .coreWatchdogExpiry _ => true
  | .coreKick _ => true
  | .coreFatalException _ _ => true
  | .coreRestartComplete _ => true
  | .probationPass _ => true
  | .deferredActivationStart => true
  | .configActivationApply => true
  | .rollbackApply => true
  | .firewallViolation _ addr length _ => addr < 2 ^ 48 && length ≤ 4096
  | .vcoreBackstop mv => mv < 2 ^ 16
  | .vcoreCapRelease => true
  | .eventRaised cls code inst data' => cls < 16 && code < 2 ^ 16 && inst < 2 ^ 16 && data'.length ≤ 4096
  | .recordCommit => true
  | .coalescerFlush _ => true
  | .pfailNRise => true
  | .vaonRestored selfTest _ => selfTest < 5
  | .portDisable _ => true
  | .twCtrlWrite _ _ => true
  | .scrubPeriodWrite _ => true
  | .slotPgTimeout _ mv da tUs => mv < 2 ^ 16 && da < 2 ^ 16 && tUs < 2 ^ 32
  | .configStageComplete => true
  | .fwStageComplete => true
  | .targetReadReceived _ count => count ≤ 255
  | .busStartSeen _ => true
  | .busStopSeen _ => true

end Sys2Proof
end

