-- ==== Sys2Proof/Tests/Slice0.lean ====
section
/-! SUPPORT. Tests of the model: what the spec's own examples and tables give, ill-formed commands refused, and for each
statement a state and operands that meet its hypotheses. -/

set_option Elab.async false
set_option linter.unusedTactic false

namespace Sys2Proof.Machine

/-- A tray in STANDBY with every core running. -/
def running : State :=
  { State.reset with chip := { sysrstLow := false, tray := .standby, boot := .complete }, aon.coreDown := 0 }

/-- The same with what SEQUENCING-UP waits for: an on order held, RACK_PERMIT, verified managers, a program, HSW_EN. -/
def toUp : State :=
  { running with
    chip := { running.chip with onHeld := true, permit := true }
    aon.cores := [(1, { image := [0] }), (2, { image := [0] })]
    st := { image := [0], hswEn := true } }

/-- A tray whose reverse sequence has nothing left to disable. -/
def goingDown : State :=
  { running with chip := { running.chip with tray := .sequencingDown }, st := { phase := 3, downs := [{ why := .reverse, rails := [] }] } }

/-- A trip whose zones have been cool for 10 s. -/
def cooled : State :=
  { running with
    chip := { running.chip with tray := .tripped, tripForce := true, tripKind := 1 }
    aon := { running.aon with optime := 20000 }
    heat := { coolSince := some 10000 } }

/-- A program image: 64 header bytes (`mode` at byte 5, one stitch), 256 descriptors of which only rail 7 differs from zero,
one stitch of operation `op` on rail 7, then the slot table. -/
def prog (mode : Nat) (rail7 : Bytes) (op : Nat) (slots : Bytes) : Bytes :=
  (zeros 5 ++ [BitVec.ofNat 8 mode, 1, 0] ++ zeros 280 ++ fix 32 rail7) ++
    (zeros 7936 ++ (zeros 6 ++ [7, BitVec.ofNat 8 (16 * op)] ++ slots))

/-- Rail 7: present, enabled by PMBus over port 2, no parents. -/
def viaPmbus : Bytes := [1, 0, 1, 2, 0x40, 0xFF, 0, 0] ++ leBytes 2 1000 ++ [10, 10] ++ zeros 10 ++ [1, 0, 0xFF, 0xFF, 0xFF, 0xFF]

/-- Strand 0 about to execute a stitch of an operation on rail 7. -/
def at0 (op : Nat) : State :=
  { running with st := { image := prog 0 viaPmbus op [], phase := 2, strands := [(0, { run := 1 })] } }

theorem stitch_prog (m : Nat) (r : Bytes) (op : Nat) (sl : Bytes) : stitchAt (prog m r op sl) 0 =
    leAt (zeros 6 ++ [7, BitVec.ofNat 8 (16 * op)] ++ sl) 0 8 := by
  have h1 : nStitch (prog m r op sl) = 1 := rfl
  have h2 (n : Nat) (a b : Bytes) (h : a.length = n) : leAt (a ++ b) n 8 = leAt b 0 8 := by
    subst h
    simp [leAt, slice]
  unfold stitchAt
  rw [h1, if_pos (by decide)]
  unfold prog
  rw [← List.append_assoc]
  refine h2 _ _ _ ?_
  simp only [zeros, fix, List.length_append, List.length_replicate, List.length_take, List.length_cons, List.length_nil]
  omega

/-- The strand of `at0` executes its stitch. -/
theorem at0_runs (op : Nat) (ho : op < 16) : strandAt 0 op (at0 op) = true := by
  have h : stOp (stitchAt (prog 0 viaPmbus op []) 0) = op := by
    rw [stitch_prog]
    revert op
    decide
  simp [strandAt, at0, strand, SMap.get, h]

/-- The same with rail 7 in a state. -/
def withRail (x : RailSt) (s : State) : State := setRail 7 (fun r => { r with st := x }) s

/-- Strand 3 waits for the parents of rail 7. -/
def waiting : State :=
  { running with st := { image := prog 0 viaPmbus 0 [], strands := [(3, { run := 2, wait := .parents 7 })] } }

/-- Rail 7's enable is under way. -/
def acting : State :=
  { running with st := { image := prog 0 viaPmbus 0 [], rails := [(7, { st := .rising, act := .enabling, tries := 1 })] } }

/-- Rail 7 rises and is polled. -/
def polled : State :=
  { running with st := { image := prog 0 ([1, 0, 1, 2, 0x40, 0xFF, 2, 2] ++ zeros 14 ++ [1]) 0 [], rails := [(7, { st := .rising })] } }

/-- MODE 1, rail 7 in the slot table and due. -/
def slotted : State :=
  { running with st := { image := prog 1 viaPmbus 0 (zeros 3 ++ [1] ++ zeros 12 ++ [7, 1, 0, 0, 0, 0, 0, 0]), phase := 2, slotUp := [7] } }

/-- Two-wire port 2 in a state, as controller and target with PEC, standby after 1 ms, island PMC powered. -/
def twAt (st : Nat) : State :=
  twGo 2 st (wr (R.TW_TMO 2) 0x00010000 (wr (R.TW_TGT 2) 0x80000000 (wr (R.TW_CTRL 2) 0x43
    { running with chip := { running.chip with islands := 7 } })))

/-- The same with a core's transaction in progress. -/
def twBusy (st : Nat) : State := setTw 2 (fun p => { p with cur := some { what := .core, addr := 0x40, w := [1] } }) (twAt st)

/-- Cluster 0 in a state. -/
def clAt (x : ClSt) : State := { running with press := { clusters := [(0, { st := x })] } }

/-- A plan image (R116 to R123): one RANDOM stage that delivers four INT32 elements to a scratch tensor. -/
def planBody (crc : Bytes) : Bytes :=
  leBytes 4 0x4E4C5054 ++ [1, 3, 1, 1, 0xFF, 0, 1, 0, 1, 0, 0, 0, 1, 0, 0, 0, 240, 0, 0, 0, 64, 0, 0, 0, 96, 0, 0, 0, 96, 0, 0, 0,
    208, 0, 0, 0, 240, 0, 0, 0, 0, 0, 0, 0] ++ zeros 8 ++ crc ++ zeros 4 ++
  [8, 0, 0xFF, 0xFF, 0, 0, 0, 0, 32, 0, 0, 0] ++ List.replicate 8 0xFF ++ [0, 0x80] ++ List.replicate 6 0xFF ++ zeros 4 ++
  [8, 1, 0, 0] ++ zeros 20 ++ [4] ++ zeros 31 ++ [4] ++ zeros 55 ++ zeros 24 ++ [0, 8] ++ zeros 6
def planImage : Bytes := planBody (leBytes 4 (crc32c (planBody (zeros 4))).toNat)

/-- A host's plan at tray DRAM address 4,096. -/
def hostPlan (img : Bytes) (st : PlanSt) : Plan :=
  { id := 1, owner := .host 2 7, cls := 2, since := 0, addr := 4096, len := 240, image := img, st := st }

/-- Cluster 0 has been handed the plan. -/
def withPlan : State :=
  { running with
    press := { clusters := [(0, { st := .loading, plan := some 1 })], plans := [hostPlan [] .loading] }
    mem := { data := writeMap [] 4096 planImage } }

/-- The plan runs in cluster 0. -/
def planRuns : State :=
  { running with press := { clusters := [(0, { st := .running, plan := some 1 })], plans := [hostPlan planImage .running] } }

/-- SEQUENCING-UP with cluster 0 off and a verified image for its control core. -/
def toRaise : State :=
  { running with chip := { running.chip with tray := .sequencingUp }, aon := { coreDown := 0, cores := [(3, { image := [0] })] } }


/-- A HOLD or AUDIT capsule payload with one input of nothing: CMP_MODE DIGEST in byte 2. -/
def hold (cmp : Nat) : Bytes := [1, 0, BitVec.ofNat 8 cmp, 1] ++ zeros 380

/-- A capsule of accelerator 0 in a state. -/
def capsule0 (x : CapSt) : Capsule := { src := .acc 0, id := 0, body := hold 2, st := x, order := 1 }

/-- Accelerator a's port is UP and its windows are declared; assurance is enabled. -/
def onAcc (a : Nat) : State :=
  setPort a (fun p => { p with st := .up, windows := some [] }) (wr R.AS_CTRL 0x1F running)

/-- An ended plan that delivered 64 zero bytes. -/
def endedReplay : Plan :=
  { id := 7, owner := .replay 0 0, cls := 0, since := 0, addr := 0, len := 0, st := .done
    reports := [(0, [⟨⟨10, false, [64]⟩, List.replicate 64 0, []⟩])] }

/-- The capsule stands in the table, and plans 7 and 8 have ended, 8 with another digest, 9 with source POISON. -/
def withCap (x : CapSt) (f : Capsule → Capsule) : State :=
  let t := onAcc 0
  { t with
    assure := { t.assure with caps := [f (capsule0 x)] }
    press := { t.press with plans := [endedReplay, { endedReplay with id := 8, reports := [] },
      { endedReplay with id := 9, st := .fault, reason := 2 }] } }

/-- Darns on their way: 3 fetched, 4 prepared with a matching digest, 6 with another one, and a capture whose plan has ended; with
`held` darn 3 stands in the library and is being screened on accelerator 0. -/
def withDarns (held : Bool) : State :=
  let t := setPort 8 (fun p => { p with st := .up }) (wr R.MEM_STATE 3 (wr R.LIB_AREA 0x10000 (onAcc 0)))
  { t with
    sec := { t.sec with state := 2, keyCache := [(5, zeros 136)] }
    assure := { t.assure with
      darns := if held then [{ id := 3, origin := 5, prepared := true, slot := 0 }] else []
      filled := if held then [0] else []
      screening := if held then [(0, some 3)] else []
      fetches := [{ id := 3, node := 5, origin := 5, len := 320, addr := 0, slot := 1 },
        { id := 4, node := 5, origin := 5, len := 320, addr := 0, slot := 2, planId := some 7 },
        { id := 6, node := 5, origin := 5, len := 320, addr := 0, slot := 3, planId := some 8, firstOn := some 1 }]
      captures := [⟨.acc 0, 0, 7, 4, [], [], 0, [], 0, 1⟩] }
    press := { t.press with plans := [endedReplay, { endedReplay with id := 8, reports := [] }] } }

/-- DARN_OFFER of a darn. -/
def anOffer (n : Nat) : Bytes := leBytes 16 n ++ leBytes 2 5 ++ leBytes 4 320 ++ zeros 8

/-- Tray memory is READY and its island answers. -/
def trayReady : State :=
  let t := wr R.MEM_STATE 3 running
  { t with chip := { t.chip with islands := 1#26 <<< 11 } }

/-- Three stacks are trained; the fourth has failed twice. -/
def training : State :=
  wr R.MEM_STATE 1 { running with mem := { stks := [(0, { trained := true }), (1, { trained := true }), (2, { trained := true }),
    (3, { tries := 2 })] } }

/-- Every port island has its supply, and port k (12 the Suorta link) is in a state. -/
def portIn (k : Nat) (x : PortSt) : State :=
  let t := { running with chip := { running.chip with islands := 0x1FFF000 } }
  if k = 12 then { t with su := { t.su with st := x } } else setPort k (fun p => { p with st := x }) t

/-- A DATA flit with SEQ 0 and its check bytes: eight words of the tray code. -/
def aFlit : Bytes := tcEncode (1 :: zeros 31) ++ (List.replicate 7 (tcEncode (zeros 32))).flatten

/-- Node 0 of a torus of 4 by 4, every seam UP since 5 ms and every link of the first row UP. -/
def inTorus : State :=
  let t := wr R.ROUTE_CTRL 1 (wr R.NODE_ID 0x80000000 (wr R.TORUS_DIM 0x80000303 running))
  let u := [8, 9, 10, 11].foldl (fun a k => setPort k (fun p => { p with st := .up, upSince := some 5 }) a) t
  { u with torus.links := [(0, ⟨true, 1⟩), (64, ⟨true, 1⟩), (128, ⟨true, 1⟩), (192, ⟨true, 1⟩)] }

/-- A frame of the REQ channel with SEQ 0, no data, and its CRC. -/
def aFrame : Bytes := zeros 28 ++ leBytes 4 (crc32c (zeros 28)).toNat

/-- The Suorta link is UP and tray memory is READY. -/
def withWindow : State :=
  wr R.MEM_STATE 3 (portIn 12 .up)

/-- Two-wire port 30 is a powered target with endpoint ID 9. -/
def racked : State := twGo 30 1 (wr R.MCTP_EID 9 { running with chip := { running.chip with islands := 7 } })

/-- A version 3 order of the part itself stands SUBMITTED in MBX11. -/
def order (op : Nat) (p : Bytes) (s : State) : State :=
  setMb 11 (fun m => { m with
    st := .submitted
    source := 2
    req := leBytes 2 0xC1A5 ++ [3, 2] ++ leBytes 2 op ++ zeros 2 ++ leBytes 4 9 ++ leBytes 4 p.length ++ zeros 2 ++ leBytes 2 2
      ++ zeros 12 ++ p }) s

/-- A TAL2 command stands SUBMITTED in MBX11. -/
def order2 (cmd : Nat) (p : Bytes) (s : State) : State :=
  setMb 11 (fun m => { m with
    st := .submitted
    source := 2
    major := 2
    minor := 4
    req := leBytes 2 0xC1A5 ++ [2, 4] ++ leBytes 1 cmd ++ zeros 1 ++ leBytes 2 9 ++ leBytes 2 p.length ++ zeros 6 ++ p }) s

/-- Every order of the catalogue but the hardware's HELLO, PING and TRAY_QUERY with a payload of its length; those too. -/
def ordersAt : List (Nat × Bytes) :=
  (rowsChip ++ rowsPower ++ rowsSched ++ rowsSecure).map (fun r => (r.op, zeros r.len))

/-- The Suorta link is UP and the host window is 1 GiB. -/
def withHostWindow : State := wr R.HWIN_SIZE 1 (portIn 12 .up)

/-- A slot table with rail 7 and its CRC. -/
def aSlotTable : Bytes :=
  let t : Bytes := [0x4C, 0x53, 2, 1] ++ zeros 12 ++ [7, 1] ++ zeros 6
  t.take 12 ++ leBytes 4 (crc32c t).toNat ++ t.drop 16

/-- Tray time is VALID at 50 µs and island PMC is powered, an hour after the start. -/
def metered (m : Meter) : State :=
  { running with
    chip := { running.chip with islands := 7 }
    aon := { running.aon with optime := 3600000 }
    time := { fifths := 250000, valid := true }
    meter := m }
set_option maxRecDepth 100000 in
/-- States and operands that meet the hypotheses of `StartAndSupplyEventsComplete`, clause by clause. -/
theorem met_start_and_supply_events_complete :
  (pulseTaken 10000 false ∧ xspiReleased running = false) ∧ (pulseTaken 2001 true ∧ xspiReleased State.reset) ∧
  (State.reset.chip.sysrstLow ∧ State.reset.chip.vaonOk) ∧
  (aonRuns { running with chip.boot := .rom } ∧ ({ running with chip.boot := .rom } : State).chip.boot = .rom) ∧
  bootMayEnd { running with chip.boot := .firmware, chip.tray := .off } ∧ running.chip.vaonOk ∧
  (({ running with chip.vaonOk := false } : State).chip.vaonOk = false ∧ running.chip.sysrstLow = false) ∧
  (aonRuns running ∧ running.chip.vstbyBad = false) ∧ running.chip.pfailPin = false ∧
  running.chip.onBackupClock = false ∧ running.chip.onRc = false := by
  repeat' apply And.intro
  all_goals first | exact at0_runs _ (by decide) | decide +kernel

set_option maxRecDepth 100000 in
/-- States and operands that meet the hypotheses of `RackLinesAndTransitionsComplete`, clause by clause. -/
theorem met_rack_lines_and_transitions_complete :
  (aonRuns { running with chip.rackThrottle := true } ∧ ({ running with chip.rackThrottle := true } : State).chip.rackThrottle) ∧
  running.chip.rackThrottle = false ∧ upMayStart toUp ∧
  upMayEnd { running with chip.tray := .sequencingUp, st.phase := 2 } ∧
  (reverseMayEnd goingDown ∧ goingDown.chip.tray = .sequencingDown ∧ goingDown.chip.offFromRail = false) ∧
  (reverseMayEnd { goingDown with chip.tray := .tripped } ∧ ({ goingDown with chip.tray := .tripped } : State).chip.tray = .tripped) ∧
  aonMayEnd { running with st.phase := 4 } ∧
  (coolEnough cooled ∧ cooled.chip.tray = .tripped ∧ cooled.st.phase ≠ 4) ∧
  ({ running with chip.draining := 1#26 <<< 25 } : State).chip.draining.getLsbD 25 ∧
  (({ running with chip.draining := 1#26 <<< 4, press.clusters := [(1, { st := .idle })] } : State).chip.draining.getLsbD 4 ∧
    (cluster { running with press.clusters := [(1, { st := .idle })] } 1).st ≠ .off) ∧
  ({ running with chip.draining := 1#26 <<< 11 } : State).chip.draining.getLsbD 11 ∧ coreUp 1 running := by
  repeat' apply And.intro
  all_goals first | exact at0_runs _ (by decide) | decide +kernel

set_option maxRecDepth 100000 in
/-- States and operands that meet the hypotheses of `PressCommandsComplete`, clause by clause. -/
theorem met_press_commands_complete :
  (cluster (clAt .idle) 0).st ≠ .off ∧
  ((cluster (clAt .suspended) 0).st = .suspended ∧ rdBit (wr (R.SELFTEST_RESULT 0) 0xC0000000 (clAt .suspended)) (R.SELFTEST_RESULT 0) 30) ∧
  (cluster (clAt .selftest) 0).st = .selftest ∧ (cluster withPlan 0).plan = some 1 ∧
  islandAnswers (clusterIsland 0) { running with chip := { running.chip with islands := 8 } } ∧
  ((loadingPlan withPlan 0).map (fun p => p.id) = some 1 ∧ imageReady withPlan (hostPlan [] .loading) ∧
    planBytes withPlan (hostPlan [] .loading) 240 = planImage ∧ (planOf withPlan 1).isSome ∧
    planStatus withPlan (hostPlan [] .loading).isSelf planImage = St.DONE ∧
    (allocScratch planImage (scratchLevels withPlan planImage 0 ((placePlan planImage).getD [])) (scratchUsed withPlan)).isOk) ∧
  (loadingPlan { withPlan with mem := {} } 0).isSome ∧
  planStatus { withPlan with mem := {} } false (planBytes { withPlan with mem := {} } (hostPlan [] .loading) 240) ≠ St.DONE ∧
  (loadingPlan (setPlan 1 (fun p => { p with spaceWaits := true, image := planImage }) withPlan) 0).isSome ∧
  ((runningPlan planRuns 0).isSome ∧ pressBusy planRuns 0 = false ∧ (runPhase 1 planRuns).failed = false ∧
    storesHurt (hostPlan planImage .running) (runPhase 1 planRuns).st = false ∧ pressBusy (runPhase 1 planRuns).st 0 = false) ∧
  (runningPlan (setPlan 1 (fun p => { p with stored := true }) planRuns) 0).any (fun p => p.stored) ∧
  (let t := setCl 0 (fun k => { k with failed := some 5, restartable := true }) planRuns
   (cluster t 0).plan = some 1 ∧ (cluster t 0).failed.isSome ∧ coreUp 3 t ∧ (cluster t 0).restartable ∧ (cluster t 0).rerun = false) ∧
  bitAt (selftestWord 0 false false) 30 ∧ coreUp 3 { clAt .idle with aon.coreDown := 8 } = false ∧
  (cluster planRuns 0).st = .running ∧
  (stallCause { planRuns with aon.coreDown := 8 } 0 ≠ 0 ∧ (cluster planRuns 0).stallTold = false) ∧
  (iron (clAt .idle) 0).st = .idle ∧
  ((cluster toRaise 0).st = .off ∧ toRaise.chip.tray = .sequencingUp ∧ ((clusterPower 0 true toRaise).aon.coreHeld.getLsbD 3 ||
    isPinned (clusterPower 0 true toRaise) 3 || (((clusterPower 0 true toRaise).aon.cores.get {} 3).image).isEmpty) = false) ∧
  ((cluster { clAt .idle with chip := goingDown.chip } 0).st ≠ .off ∧ goingDown.chip.tray = .sequencingDown) := by
  repeat' apply And.intro
  all_goals first | exact at0_runs _ (by decide) | decide +kernel

set_option maxRecDepth 100000 in
/-- States and operands that meet the hypotheses of `CapsuleCommandsComplete`, clause by clause. -/
theorem met_capsule_commands_complete :
  ((port (onAcc 0) 0).st = .up ∧ coreUp 2 (onAcc 0)) ∧
  (port (takeInbox 0 1 3 (hold 2) (onAcc 0)) 0).windows.isNone = false ∧
  capsuleStatus (onAcc 0) 0 { src := .acc 0, id := 0, body := hold 2 } = 0 ∧
  capsuleStatus (onAcc 0) 0 { src := .acc 0, id := 0, body := hold 9 } ≠ 0 ∧
  ((capIn (withCap .fetching (fun c => c)) 0 0 .fetching).isSome ∧ fetchOver (withCap .fetching (fun c => c)) (capsule0 .fetching)) ∧
  (capIn (withCap .fetching (fun c => { c with delegated := true })) 0 0 .fetching).any (fun c => c.delegated) ∧
  ((capIn (withCap .replaying (fun c => { c with planId := some 7 })) 0 0 .replaying).isSome ∧
    (endedPlan (withCap .replaying (fun c => { c with planId := some 7 })) (some 7)).isSome ∧ (capsule0 .replaying).cmp = 2) ∧
  (endedPlan (withCap .replaying (fun c => c)) (some 8)).isSome ∧
  ((capIn (withCap .peerWait (fun c => c)) 0 0 .peerWait).isSome ∧ (capsule0 .peerWait).peerPlan = none ∧
    peerCopiesReady (withCap .peerWait (fun c => c)) (capsule0 .peerWait))
   ∧
  (let t := withCap .peerWait (fun c => { c with req := some (0, 5), pressDigest := zeros 64 })
   (takeSeams 1 0x11 5 (zeros 80) t).assure.caps = t.assure.caps ∧
   t.assure.caps.any (fun c => (c.st == .peerWait && c.req == some (leAt (zeros 80) 0 8, 5)) &&
     (peerAgrees t c (slice (zeros 80) 16 64)).1 && !(peerAgrees t c (slice (zeros 80) 16 64)).2)) ∧
  (let t := withCap .peerWait (fun c => { c with req := some (0, 5), accDigest := zeros 64 })
   t.assure.caps.any (fun c => (c.st == .peerWait && c.req == some (leAt (zeros 80) 0 8, 5)) &&
     !(peerAgrees t c (slice (zeros 80) 16 64)).1 && (peerAgrees t c (slice (zeros 80) 16 64)).2)) ∧
  (let t := withCap .replaying (fun c => { c with delegated := true })
   capIn t 0 0 .peerWait = none ∧ (capIn t 0 0 .replaying).any (fun c => c.st == .replaying && c.delegated && c.sentTo == none)) ∧
  (withCap .done (fun c => c)).assure.caps.any (fun c => c.src == srcOf 0 && c.id == 0 && c.st == .done) ∧
  (let t := takeSeams 1 0x14 5 (hold 2) (onAcc 0)
   peerWork (onAcc 0) < 256 ∧ rdBit t R.AS_CTRL 4 ∧ t.assure.selfTag = false) ∧
  (let t := onAcc 0
   (takeSeams 1 0x10 5 (zeros 112) { t with assure.selfTag := true }).assure.selfTag) ∧
  (withCap .replaying (fun c => { c with sentTo := some 5 })).assure.caps.any (fun c => c.st == .replaying && c.sentTo == some 5
    && c.id == leAt (zeros 552) 0 8 && c.job == leAt (zeros 552) 16 8 && c.step == leAt (zeros 552) 24 8) ∧
  (endedPlan (withCap .done (fun c => c)) (some 8)).any (fun p => reportInput p (nStages p.image - 1) 0 == none) := by
  repeat' apply And.intro
  all_goals first | exact at0_runs _ (by decide) | decide +kernel

set_option maxRecDepth 100000 in
/-- States and operands that meet the hypotheses of `DarnCommandsComplete`, clause by clause. -/
theorem met_darn_commands_complete :
  ((withDarns false).assure.captures.any (fun k => k.src == srcOf 0 && k.id == 0) ∧
    (endedPlan (withDarns false) (some 7)).any (fun p => p.st == .done) ∧ secOperational (withDarns false)) ∧
  ((port (withDarns false) 8).st = .up ∧ coreUp 2 (withDarns false) ∧ memReady (withDarns false) ∧
    (originKeys (withDarns false) 5).isEmpty = false ∧
    offerIgnored (withDarns false) (leAt (anOffer 9) 0 16) (leAt (anOffer 9) 18 4) = false) ∧
  offerIgnored (withDarns false) (leAt (zeros 30) 0 16) (leAt (zeros 30) 18 4) ∧
  ((withDarns false).assure.fetches.any (fun w => w.id == 3 && w.planId == none &&
    rangeReady (withDarns false) (nodeAddr w.node w.addr) w.len && (darnOf (withDarns false) w.id).isNone)) ∧
  ((withDarns true).assure.fetches.any (fun w => w.id == 3 && w.planId == none && (darnOf (withDarns true) w.id).isSome)) ∧
  ((withDarns false).assure.fetches.any (fun w => w.id == 4 && w.firstOn == none && (endedPlan (withDarns false) w.planId).any (fun p =>
    p.st == .done && reportBytes p (nStages p.image - 1) == darnExpect (fetchedDarn (withDarns false) w)))) ∧
  ((withDarns false).assure.fetches.any (fun w => w.id == 6 && w.firstOn == some 1 && (endedPlan (withDarns false) w.planId).any (fun p =>
    p.st == .done && reportBytes p (nStages p.image - 1) != darnExpect (fetchedDarn (withDarns false) w)))) ∧
  ((darnOf (takeInbox 8 1 0x13 (leBytes 16 3) (withDarns true)) 3).any (fun d =>
    darnHeld (takeInbox 8 1 0x13 (leBytes 16 3) (withDarns true)) d && !d.quarantined) ∧
    rdBit (takeInbox 8 1 0x13 (leBytes 16 3) (withDarns true)) R.AS_CTRL 3) ∧
  ((port (withDarns true) 0).st = .up ∧
    (takeInbox 0 1 7 (leBytes 16 3 ++ zeros 64) (withDarns true)).assure.screening.get none 0 = some 3 ∧
    slice (leBytes 16 3 ++ zeros 64) 16 64 = dramRead (withDarns true) (slotAddr (withDarns true) 0 + 144) 64) ∧
  slice (leBytes 16 3 ++ [1] ++ zeros 63) 16 64 ≠ dramRead (withDarns true) (slotAddr (withDarns true) 0 + 144) 64 := by
  repeat' apply And.intro
  all_goals first | exact at0_runs _ (by decide) | decide +kernel

set_option maxRecDepth 100000 in
/-- States and operands that meet the hypotheses of `MemoryCommandsComplete`, clause by clause. -/
theorem met_memory_commands_complete :
  (0 + 1 ≤ dramSize ∧ dramOpen trayReady ∧ inHcr trayReady 0 1 = false ∧ tcDecode (modeC2 trayReady) (xorBytes (tcEncode (dramRead trayReady 0 32)) (zeros 36)) = .clean) ∧
  (tcDecode (modeC2 trayReady) (xorBytes (tcEncode (dramRead trayReady 0 32)) (1 :: zeros 35)) = .corrected (zeros 36) [0]) ∧
  (tcDecode (modeC2 trayReady) (xorBytes (tcEncode (dramRead trayReady 0 32)) ([1, 1] ++ zeros 34)) = .uncorrectable) ∧
  (64 + (zeros 32).length ≤ dramSize ∧ 64 % 32 = 0 ∧ inHcr trayReady 64 32 = false) ∧
  (let t := wr R.SU_HCR 0x10000 trayReady
   dramOpen t ∧ inHcr t 0 1) ∧ dramOpen State.reset = false ∧ dramSize < dramSize + 1 ∧
  (33 % 32 + ([7] : Bytes).length < 32 ∧ (readWord (33 / 32 * 32) 6 (zeros 36) (zeros 36) trayReady).2 = false) ∧
  (readWord (33 / 32 * 32) 6 ([1, 1] ++ zeros 34) ([1, 1] ++ zeros 34) trayReady).2 = true ∧
  (stack (setStack 1 (fun k => { k with immediate := some 5 }) trayReady) 1).immediate = some 5 ∧
  ((stack trayReady 1).immediate = none ∧ rdFld trayReady R.SCRUB_CTRL 7 0 ≠ 0) ∧
  (islandAnswers 11 trayReady ∧ passRuns trayReady = false) ∧
  (fld 0 7 0 = 0 ∧ bitAt 0 31 = false) ∧ (fld 24 7 0 ≠ 0 ∧ bitAt 24 31 = false) ∧
  passRuns (setStack 1 (fun k => { k with immediate := none }) (setStack 1 (fun k => { k with immediate := some 5 }) trayReady)) = false ∧
  ((stack (setStack 1 (fun k => { k with band := 4, below := 100 }) trayReady) 1).band ≠ 0) ∧
  (memStateOf training = 1 ∧ (stack training 3).trained = false ∧
    (∀ r < 4, (stack (setStack 3 (fun k => { k with tries := k.tries + 1, trained := true }) training) r).trained) ∧
    3 ≤ (stack (setStack 3 (fun k => { k with tries := k.tries + 1, trained := false }) training) 3).tries) ∧
  (let s := wr R.MEM_STATE 0x72 training
   memStateOf s = 2 ∧ rdFld (setBits R.MEM_STATE (2 ^ 7) s) R.MEM_STATE 7 4 = 15 ∧ (setBits R.MEM_STATE (2 ^ 7) s).mem.nowWaits = false) := by
  (repeat' apply And.intro) <;> decide +kernel

set_option maxRecDepth 100000 in
/-- States and operands that meet the hypotheses of `LinkTrainingCommandsComplete`, clause by clause. -/
theorem met_link_training_commands_complete :
  ((setBits (ctrlReg 0) 1 (portIn 0 .off)).chip.draining.getLsbD (portIsland 0) = false ∧
    linkPowered 0 (setBits (ctrlReg 0) 1 (portIn 0 .off)) ∧ linkSt 0 (setBits (ctrlReg 0) 1 (portIn 0 .off)) = .off) ∧
  (let s := { portIn 0 .off with chip := { running.chip with draining := 0x1000 } }
   (setBits (ctrlReg 0) 1 s).chip.draining.getLsbD (portIsland 0)) ∧
  ((0 : Fin 13).val ≠ 12 ∧ (port (portIn 0 .up) 0).st = .up) ∧ (portIn 12 .up).su.st = .up ∧
  (port (portIn 0 .training) 0).st = .training ∧
  (linkMode 0 (setPort 0 (fun p => { p with mode := 1 }) (portIn 0 .locked)) = 1 ∧
    linkSt 0 (setPort 0 (fun p => { p with mode := 1 }) (portIn 0 .locked)) = .locked) ∧
  (linkMode 0 (portIn 0 .locked) ≠ 1 ∧ linkSt 0 (portIn 0 .locked) = .locked) ∧
  (linkMode 8 (portIn 8 .locked) ≠ 1 ∧ linkSt 8 (portIn 8 .locked) = .locked) ∧ (portIn 12 .training).su.st = .training ∧
  (portIn 12 .retrain).su.st = .retrain ∧ (port (portIn 0 .up) 0).farLoop = false ∧
  (linkMode 12 (portIn 12 .locked) ≠ 1 ∧ (portIn 12 .locked).su.st = .locked) ∧
  ((port (portIn 0 .ident) 0).st = .ident ∧ linkMode 0 (portIn 0 .ident) = 0 ∧ leAt ([1, 0, 0, 0, 1] : Bytes) 0 1 = 1 ∧
    leAt ([1, 0, 0, 0, 1] : Bytes) 4 1 = 1) ∧
  identMatches 0 [2] (portIn 0 .ident) = false ∧
  (port (portIn 8 .ident) (8 + (0 : Fin 4))).st = .ident ∧ (port (portIn 8 .up) (8 + (0 : Fin 4))).st = .up ∧
  (rdBit (setBits (R.PORT_ERR 8) 8 (setPort 8 (fun p => { p with identOk := true }) (portIn 8 .ident))) (R.PORT_ERR 8) 3 ∧
    (port (setBits (R.PORT_ERR 8) 8 (setPort 8 (fun p => { p with identOk := true }) (portIn 8 .ident))) 8).identOk) ∧
  linkSt 12 (portIn 12 .training) = .training ∧ (linkSt 0 (portIn 0 .down) = .down ∧ linkPowered 0 (portIn 0 .down)) ∧
  linkSt 3 (portIn 3 .up) = .up ∧ linkSt 3 (portIn 3 .retrain) = .retrain ∧
  (port { takeCtrl 8 0x08 [1] (portIn 8 .ident) with
    sec.certPart := SMap.set [] (takeCtrl 8 0x08 [1] (portIn 8 .ident)).sec.certPart 0 [] } 8).st = .ident := by
  repeat' apply And.intro
  all_goals first | exact at0_runs _ (by decide) | decide +kernel

set_option maxRecDepth 100000 in
/-- States and operands that meet the hypotheses of `FlitAndMessageCommandsComplete`, clause by clause. -/
theorem met_flit_and_message_commands_complete :
  ((flitWords ([1, 1] ++ zeros 286)).any (fun w => tcDecode false w == .uncorrectable) ∧ rdBit (portIn 0 .up) R.TC_MODE 0 = false ∧
    (flitWords ([1, 1] ++ zeros 286)).all (fun w => match tcDecode false w with | .corrected _ _ => false | _ => true)) ∧
  ((flitWords aFlit).all (fun w => tcDecode false w == .clean) ∧
    (parseFlit ((fix 36 (slice aFlit 0 36)).take 32) (((flitWords aFlit).drop 1).flatMap (fun w => w.take 32))).ftype ≠ 0 ∧
    leAt ((fix 36 (slice aFlit 0 36)).take 32) 2 2 % 4096 = (port (portIn 0 .up) 0).rxSeq) ∧
  leAt ((fix 36 (slice aFlit 0 36)).take 32) 2 2 % 4096 ≠ (port (setPort 0 (fun p => { p with rxSeq := 5 }) (portIn 0 .up)) 0).rxSeq ∧
  ((replayFrom 3 4 [({ seq := 3, replays := 0, item := {} } : Sent Flit)]).all (fun x => x.replays < 8) ∧
    (replayFrom 3 4 [({ seq := 3, replays := 7, item := {} } : Sent Flit)]).any (fun x => 8 ≤ x.replays)) ∧
  ((sendNode false (msgOf (zeros 8 ++ [6, 1, 3, 0, 32, 0] ++ zeros 18) []) inTorus).isSome ∧
    isRsp (msgOf (zeros 8 ++ [6, 1, 3, 0, 32, 0] ++ zeros 18) []).cls (msgOf (zeros 8 ++ [6, 1, 3, 0, 32, 0] ++ zeros 18) []).typ = false) ∧
  (sendNode false (msgOf (zeros 8 ++ [6, 1] ++ zeros 22) []) running = none ∧ running.torus.remotes = []) ∧
  (port (portIn 0 .up) 0).farLoop = false ∧ (port (setPort 0 (fun p => { p with farLoop := true }) (portIn 0 .test)) 0).farLoop ∧
  (let f := parseFlit (zeros 8 ++ [6, 1, 3, 0, 32, 0] ++ zeros 18) []
   let t := setPort 9 (fun q => { q with transit := q.transit.erase f }) inTorus
   (port inTorus 9).st = .up ∧ f.dst ≠ nodeId inTorus ∧ f.loc = false ∧ rdBit t R.ROUTE_CTRL 0 ∧ f.hops < 126 ∧
   turnedSeam t { f with via := some 9 } = none ∧ seamGoes t (onwardSeam t 9 { f with via := some 9 })) ∧
  (ownsLink 0 ∧ (port { inTorus with aon.optime := 200 } 8).upSince = some 5 ∧ rdBit inTorus R.ROUTE_CTRL 0) ∧
  (ownStamp { stampSent := 100 } 110 120 130 = 100 ∧ (port inTorus 8).stampRx = 0) ∧ (bitAt 0 0 = false ∧ bitAt 1 0) ∧
  (let s := { portIn 0 .up with torus.remotes := [⟨0, 7, false, 0, 0, 0, 4, .plain, []⟩, ⟨0, 8, true, 0, 0, 0, 4, .plain, []⟩] }
   (remoteOf s 0 7 false).isSome ∧ (remoteOf s 0 8 true).isSome) ∧
  msgHeld 0 {} (portIn 0 .up) = false ∧ (deliverFwd { endpoint := 1, loc := true } (portIn 0 .up)).isSome ∧
  (mbox (takeMsg 8 {} (portIn 8 .up)) 14).st = .idle ∧
  (mbox (takeMsg 8 {} (setMb 14 (fun x => { x with st := .submitted }) (portIn 8 .up))) 14).st ≠ .idle := by
  repeat' apply And.intro
  all_goals first | exact at0_runs _ (by decide) | decide +kernel

set_option maxRecDepth 100000 in
/-- States and operands that meet the hypotheses of `HostLinkCommandsComplete`, clause by clause. -/
theorem met_host_link_commands_complete :
  ((portIn 12 .up).su.st = .up ∧ (crc32c ((fix 32 []).take 28 ++ ([] : Bytes).drop 32)).toNat ≠ leAt (fix 32 []) 28 4) ∧
  ((crc32c ((fix 32 aFrame).take 28 ++ aFrame.drop 32)).toNat = leAt (fix 32 aFrame) 28 4 ∧
    leAt (fix 32 aFrame) 2 2 % 4096 = (suPump (suLinkFields (fix 32 aFrame) (portIn 12 .up).su)).rxSeq) ∧
  (leAt (zeros 20 ++ [1] ++ zeros 11) 20 1).testBit 0 ∧
  (frameOf (zeros 32) []).len = 0 ∧
  (let f := frameOf (zeros 10 ++ [64] ++ zeros 21) (zeros 64)
   1 ≤ f.len ∧ f.len ≤ 4096 ∧ f.data.length = 64 ∧ f.poison = 0 ∧ fwAdmits (hostTag f withWindow) 35 f.addr f.len false ∧
   fwAdmits (hostTag f withWindow) 35 f.addr f.data.length true ∧ pinnedOut (hostTag f withWindow) 35 (f.addr - regBase) = false) ∧
  (frameOf (zeros 20 ++ [1] ++ zeros 11) (zeros 64)).poison ≠ 0 ∧
  (let s := { withWindow with su.reqs := [⟨0, Op.CLAIM_S, 0, 64, [], .plain⟩] }
   (requestOf s isClaim 0).isSome ∧ dramOpen s) ∧
  (let s := { withWindow with su.reqs := [⟨0, Op.RD_NC, 0, 64, [], .plain⟩] }
   (requestOf s (fun op => op == Op.RD_S || op == Op.RD_NC) 0).isSome) ∧
  (let s := { withWindow with su.reqs := [⟨0, Op.WR_NC, 0, 64, [], .plain⟩] }
   (requestOf s (fun op => op == Op.WR_NC || op == Op.DROP) 0).isSome) ∧
  ((frameOf ([5] ++ zeros 31) []).ch = 5 ∧ (leAt (zeros 32) 20 1).testBit 0 = false) ∧
  ((fwdMsg (frameOf (zeros 24 ++ [32] ++ zeros 7) []) inTorus).dst ≠ nodeId inTorus ∧
    (sendNode false (fwdMsg (frameOf (zeros 24 ++ [32] ++ zeros 7) []) inTorus) inTorus).isSome) ∧
  ((fwdMsg (frameOf (zeros 32) []) (portIn 12 .up)).dst = nodeId (portIn 12 .up) ∧
    (deliverFwd (fwdMsg (frameOf (zeros 32) []) (portIn 12 .up)) (portIn 12 .up)).isSome) := by
  repeat' apply And.intro
  all_goals first | exact at0_runs _ (by decide) | decide +kernel

set_option maxRecDepth 100000 in
/-- States and operands that meet the hypotheses of `MailboxAndMctpCommandsComplete`, clause by clause. -/
theorem met_mailbox_and_mctp_commands_complete :
  (aonRuns running ∧ mbReached 3 ∧ (mbox running 3).st = .idle) ∧
  (mbox (setMb 3 (fun m => { m with st := .replied }) running) 3).st = .replied ∧
  (let s := setMb 3 (fun m => { m with st := .submitted, req := zeros 4 ++ [1, 7] ++ zeros 26 }) running
   (mbox s 3).st = .submitted ∧ servingCore 3 (mbox s 3).req = some 3) ∧
  (mctpRuns 0 racked ∧ mctpEid 0 racked ≠ 0 ∧ (mbox racked 12).st = .idle) ∧
  (mbox (setMb 12 (fun m => { m with st := .executing }) racked) 12).st ≠ .idle ∧
  (leAt ([0, 0x81, 1, 0, 9] : Bytes) 3 1 % 4 < 2 ∧ leAt ([0, 0x81, 1, 0, 9] : Bytes) 4 1 ≠ 0 ∧ leAt ([0, 0x81, 1, 0, 9] : Bytes) 4 1 ≠ 255) := by
  repeat' apply And.intro
  all_goals first | exact at0_runs _ (by decide) | decide +kernel

set_option maxRecDepth 100000 in
/-- States and operands that meet the hypotheses of `ChipAndPowerOrdersComplete`, clause by clause. -/
theorem met_chip_and_power_orders_complete :
  ordersAt.all (fun o => taken (order o.1 o.2 running) 11 o.1) ∧
  [1, 2, 3, 4, 5, 6, 7, 8, 9, 10].all (fun c => takenV2 (order2 c (zeros (tal2Len c)) running) 11 c) ∧
  helloVersion 11 3 2 3 = some (3, 2) ∧
  (let t := begun 11 (order 0x0104 (leBytes 8 (regBase + R.MEM_STATE) ++ leBytes 4 1) trayReady)
   wordsAdmitted t (orderMaster t 11) (regBase + R.MEM_STATE) (min 1 1024) false ∧ (regBase + R.MEM_STATE) % 4 = 0 ∧
   (List.range 1).all (fun i => isRegWord t (wordAddr (regBase + R.MEM_STATE) i)) ∧
   (List.range 1).all (fun i => regAnswers t (wordAddr (regBase + R.MEM_STATE) i - regBase))) ∧
  (let t := begun 11 (order 0x0105 (leBytes 8 (regBase + R.TC_MODE) ++ leBytes 4 1 ++ leBytes 4 1) trayReady)
   fwAdmits t (orderMaster t 11) (regBase + R.TC_MODE) 4 true ∧ isRegWord t (regBase + R.TC_MODE) ∧ regAnswers t R.TC_MODE) ∧
  (begun 11 (order 0x0106 (zeros 8) running)).sec.lock.getLsbD 0 = false ∧
  (let t := begun 11 (order 0x0109 (zeros 4) (portIn 12 .up))
   islandOn 24 t ∧ memReady t = false) ∧
  (let t := begun 11 (order 0x0201 [] { running with chip := { running.chip with permit := true, tray := .ready } })
   onDenied t 11 = false ∧ orderSource t 11 = 2 ∧ t.sec.debugUnlocked = false ∧ t.chip.tray = .ready ∧ trayRuns t ∧
   (acceptLong .trayOff 11 t).chip.tray = .ready ∧ groupBlocked t 3 = false ∧ (strand t 3).run = 0) ∧
  onDenied (begun 11 (order 0x0201 [] running)) 11 ∧
  (cfgPend (begun 11 (order 0x0201 [] running)) = false ∧ running.chip.tray = .standby) ∧
  slotMode { slotted with chip := { slotted.chip with tray := .ready } } ∧
  railsAsked (leBytes 2 5 ++ leBytes 2 3) 64 = some [5, 6, 7] ∧ railsAsked (leBytes 2 5 ++ leBytes 2 3) 256 = some [5, 6, 7] ∧
  (let s := withHostWindow
   inHostWindow s hostBase 24 ∧ (fetchImage hostBase 24 (zeros 24) s).2.isSome ∧ (fetchImage hostBase 24 (zeros 24) s).1.chip.tray = .standby ∧
   fetchImage hostBase 24 [] { s with su.st := .off } = ({ s with su.st := .off }, none)) ∧
  (slotMode slotted ∧ slotTableOk slotted.st.image aSlotTable) ∧
  (let s := withRail .on { running with st := { image := prog 0 viaPmbus 0 [] } }
   (rail s 7).st = .on ∧ railHasPmbus s.st.image 7 ∧ aboveStarch s 7 (clampStep (railMarginLim s.st.image 7) (signed16 5)) = false) := by
  (repeat' apply And.intro) <;> decide +kernel

set_option maxRecDepth 100000 in
/-- States and operands that meet the hypotheses of `MeterCoolingAndBudgetOrdersComplete`, clause by clause. -/
theorem met_meter_cooling_and_budget_orders_complete :
  ordersAt.all (fun o => taken (order o.1 o.2 running) 11 o.1) ∧
  [7, 8, 10].all (fun c => takenV2 (order2 c (zeros (tal2Len c)) running) 11 c) ∧
  (let t := begun 11 (order 0x0302 (leBytes 8 hostBase ++ leBytes 4 1) withHostWindow)
   inHostWindow t hostBase ((deliverable (freeDelivered t) 1).flatMap batchBytes).length ∧ suOpen t) ∧
  standbyUp { running with st := { image := [0], stbyMark := 1, journal := [7] } } ∧
  seamMode (begun 11 (order 0x0305 (zeros 8) running)) = false ∧
  (requiredDuty (begun 11 (order 0x0403 [3, 90, 0, 0, 0, 0, 0, 0] running)) 3 ≤ 90 ∧
    valveClosed (begun 11 (order 0x0403 [3, 90, 0, 0, 0, 0, 0, 0] running)) 3 = false) ∧
  (leakLoop (begun 11 (order 0x0405 [3] running)) 3).raised = none ∧
  (let t := begun 11 (order 0x0405 [3] (setLoop 3 (fun x => { x with raised := some 1 }) running))
   (leakLoop t 3).raised = some 1 ∧ (leakLoop t 3).cls = .dry) ∧
  (let t := begun 11 (order 0x0504 (leBytes 8 7) { running with budget.items := [⟨7, 1, 0, 0, 0, 0⟩] })
   (t.budget.items.find? (fun w => w.id == leAt (leBytes 8 7) 0 8)).isSome) := by
  (repeat' apply And.intro) <;> decide +kernel

set_option maxRecDepth 100000 in
/-- States and operands that meet the hypotheses of `AssuranceAndPlanOrdersComplete`, clause by clause. -/
theorem met_assurance_and_plan_orders_complete :
  (let e := zeros 72 ++ leBytes 4 64 ++ [1, 1] ++ zeros 50
   taken (order 0x0602 e running) 11 0x0602 ∧ entryBreak (begun 11 (order 0x0602 e running)) (fix 128 e) = none) ∧
  (let t := begun 11 (order 0x0603 (zeros 64) { running with assure.registry := [zeros 128] })
   (entryOf t (fix 64 (zeros 64))).isNone = false) ∧
  (let t := begun 11 (order 0x0605 (leBytes 8 7 ++ leBytes 8 3) { running with assure.jobs := [{ id := 7, lcs := some 5 }] })
   jobOf t 7 = some { id := 7, lcs := some 5 } ∧ exceedsLcs (stepField 3) (some 5) = false ∧ openOf t 7 = []) ∧
  (capOf (begun 11 (order 0x0607 ([0, 1] ++ zeros 14) (withCap .hostWait (fun c => c)))) (.acc 0) 0).any (fun c => c.st == .hostWait) ∧
  (imageLenOk 240 ∧ imageAddrOk (begun 11 (order 0x0701 (leBytes 8 4096 ++ leBytes 4 240 ++ zeros 4) running)) 4096 240 ∧
    hostPlans running < 256) ∧
  ((planSeen (begun 11 (order 0x0702 (leBytes 8 1) planRuns)) 11 1).any (fun q => !q.ended)) ∧
  ((cluster (begun 11 (order 0x0704 [0, 0] (clAt .idle))) 0).st = .idle ∧
    (cluster (begun 11 (order 0x0704 [0, 1] (clAt .selftest))) 0).st = .selftest) ∧
  [0x0601, 0x0604, 0x0606, 0x0608, 0x0609, 0x060A].all (fun o => taken (order o (zeros ((orderRow o).elim 0 (fun r => r.len))) running) 11 o) := by
  (repeat' apply And.intro) <;> decide +kernel

set_option maxRecDepth 100000 in
/-- States and operands that meet the hypotheses of `EventFirmwareAndSecurityOrdersComplete`, clause by clause. -/
theorem met_event_firmware_and_security_orders_complete :
  [0x0801, 0x0802, 0x0804, 0x0806, 0x0901, 0x0904, 0x0905, 0x0908].all (fun o =>
    taken (order o (zeros ((orderRow o).elim 0 (fun r => r.len))) running) 11 o) ∧
  (let t := begun 11 (order 0x0803 (leBytes 8 4096 ++ leBytes 4 64) trayReady)
   fwAdmits t (orderMaster t 11) 4096 64 false ∧ placeOf t 4096 64 = .dram 4096 ∧ (fetchImage 4096 64 [] t).2.isSome ∧
   cfgBusy t = false ∧ t.cfg.probation = false) ∧
  (let t := begun 11 (order 0x0804 (leBytes 4 0) { running with cfg.state0 := 1 })
   stagedSlot t 0 = some 0 ∧ t.chip.tray = .standby ∧ emergLatches t = 0) ∧
  (emergLatches (begun 11 (order 0x0804 (leBytes 4 0) { running with cfg.state0 := 1, chip.tripForce := true })) ≠ 0) ∧
  (previousSlot (begun 11 (order 0x0805 [] { running with cfg.state0 := 2, cfg.state1 := 3 }))).isSome ∧
  secOperational (begun 11 (order 0x0901 (zeros 32) { running with sec.state := 2 })) ∧
  (let t := begun 11 (order 0x0903 (zeros 4 ++ leBytes 8 4096 ++ leBytes 4 64) trayReady)
   fwAdmits t (orderMaster t 11) 4096 64 false ∧ (fetchImage 4096 64 [] t).2.any (fun img =>
     !(maskCores 0).any (fun k => coreClass k != leAt img 5 1) && !slotRuns (fetchImage 4096 64 [] t).1 (leAt img 5 1) 0)) ∧
  slotVerifies (begun 11 (order 0x0904 (zeros 3) running)) 0 0 ∧
  isPinned (begun 11 (order 0x0906 (leBytes 2 20) { running with sec.pinned := 1#37 <<< 20 })) 20 ∧
  starchRange 800 1500 100 := by
  (repeat' apply And.intro) <;> decide +kernel

set_option maxRecDepth 100000 in
/-- States and operands that meet the hypotheses of `StitchesComplete`, clause by clause. -/
theorem met_stitches_complete :
  (strandAt 0 0x0 (at0 0x0) ∧ ({ (strand (at0 0x0) 0) with standby := true } : Strand).standby = true) ∧
  (strandAt 0 0x0 (at0 0x0) ∧ (strand (at0 0x0) 0).standby = false ∧ slotMode (at0 0x0) = false) ∧
  (strandAt 0 0x1 (at0 0x1) ∧ enableFinds (countStitch 0 (at0 0x1)) (stRail (curStitch 0 (at0 0x1))) = .issue) ∧
  (strandAt 0 0x1 (withRail .falling (at0 0x1)) ∧ enableFinds (countStitch 0 (withRail .falling (at0 0x1))) 7 = .waits) ∧
  (strandAt 0 0x1 (withRail .on (at0 0x1)) ∧ enableFinds (countStitch 0 (withRail .on (at0 0x1))) 7 = .complete) ∧
  strandAt 0 0x2 (at0 0x2) ∧ strandAt 0 0x3 (at0 0x3) ∧ strandAt 0 0x4 (at0 0x4) ∧
  (strandAt 0 0x5 (withRail .on (at0 0x5)) ∧ railBlocked (countStitch 0 (withRail .on (at0 0x5))) 7 = false ∧
    (rail (withRail .on (at0 0x5)) (stRail (curStitch 0 (withRail .on (at0 0x5))))).st = .on) ∧
  (strandAt 0 0x5 (at0 0x5) ∧ (rail (at0 0x5) (stRail (curStitch 0 (at0 0x5)))).st ≠ .on) ∧
  strandAt 0 0x6 (at0 0x6) ∧ (strandAt 0 0x7 (at0 0x7) ∧ jumpCond 0 (curStitch 0 (at0 0x7)) (at0 0x7) = false) ∧
  (strandAt 0 0x7 (setStrand 0 (fun t => { t with c := true }) (at0 0x7)) ∧
    jumpCond 0 (curStitch 0 (at0 0x7)) (setStrand 0 (fun t => { t with c := true }) (at0 0x7))) ∧
  strandAt 0 0x8 (at0 0x8) ∧ strandAt 0 0x9 (at0 0x9) ∧ strandAt 0 0xA (at0 0xA) ∧
  (strandAt 0 0xB (withRail .on (at0 0xB)) ∧ (rail (withRail .on (at0 0xB)) (stRail (curStitch 0 (withRail .on (at0 0xB))))).st = .on) ∧
  (strandAt 0 0xB (at0 0xB) ∧ (rail (at0 0xB) (stRail (curStitch 0 (at0 0xB)))).st ≠ .on) := by
  repeat' apply And.intro
  all_goals first | exact at0_runs _ (by decide) | decide +kernel

set_option maxRecDepth 100000 in
/-- States and operands that meet the hypotheses of `RailEventsComplete`, clause by clause. -/
theorem met_rail_events_complete :
  (enableFinds waiting 7 = .issue ∧
    (List.range 16).find? (fun n => (strand waiting n).run = 2 && (strand waiting n).wait == .parents 7) = some 3) ∧
  (rail acting 7).act ≠ .none ∧
  (railEnKind acting.st.image 7 = 1 ∧ (rail acting 7).tries < 3 ∧ twState (railEnIndex acting.st.image 7) acting ≠ 5) ∧
  3 ≤ (rail (setRail 7 (fun x => { x with tries := 3 }) acting) 7).tries ∧
  ((rail running 7).act = .none ∧
    (marginRefused (setTw (railPmPort running.st.image 7) (fun p => { p with again := [{ what := .margin 7, addr := 0, w := [] }] }) running) 7).isSome) ∧
  (rail (withRail .rising running) 7).st = .rising ∧
  (rail (withRail .falling running) 7).st = .falling ∧
  (stillHigh (withRail .falling running) 7 ∧ (rail (withRail .falling running) 7).cause ≠ Cause.NO_FALL ∧
    railOffMv (withRail .falling running).st.image 7 ≤ 100 ∧ (withRail .falling running).st.pfailMode = false) ∧
  (railPresent (withRail .on acting).st.image 7 ∧ failureHolds (withRail .on acting) 7 (0 : Fin 4) 100 0) ∧
  (railPresent (withRail .on acting).st.image 7 ∧ (rail (withRail .on acting) 7).st = .on) ∧
  (railPgKind polled.st.image 7 = 2 ∧ (rail polled 7).act ≠ .enabling ∧ (rail polled 7).st = .rising ∧ (rail polled 7).misses < 9
    ∧ (rail polled 7).pg = false ∧ railDeb polled.st.image 7 ≤ (rail polled 7).votes + 1 ∧ bitAt (0 : W32) 11 = false) ∧
  ((strand (stitchWait 3 .time running) 3).run = 2 ∧ (strand (stitchWait 3 .time running) 3).wait = .time) ∧
  ((strand (stitchWait 3 (.powerGood 7) (withRail .rising running)) 3).wait = .powerGood 7 ∧
    (rail (stitchWait 3 (.powerGood 7) (withRail .rising running)) 7).st = .rising) ∧
  ((strand (setStrand 3 (fun t => { t with run := 1, exec := 65536 }) running) 3).run ≠ 0 ∧
    65536 ≤ (strand (setStrand 3 (fun t => { t with run := 1, exec := 65536 }) running) 3).exec) ∧
  (({ goingDown with st.pfailMode := true } : State).st.pfailMode ∧ disablesOver { goingDown with st.pfailMode := true }) ∧
  (slotted.st.slotUp.contains 7 ∧ strandsGo slotted ∧ enableFinds { slotted with st.slotUp := slotted.st.slotUp.erase 7 } 7 = .issue) ∧
  (slotMode slotted ∧ (slotRails slotted.st.image).contains 7 ∧ (rail (withRail .rising slotted) 7).st = .rising) ∧
  ({ running with st.latch := some ⟨1, 0, 0, 0, 0, 7, 1, 1, 0, 0, 0⟩ } : State).st.latch = some ⟨1, 0, 0, 0, 0, 7, 1, 1, 0, 0, 0⟩ := by
  repeat' apply And.intro
  all_goals first | exact at0_runs _ (by decide) | decide +kernel

set_option maxRecDepth 100000 in
/-- States and operands that meet the hypotheses of `MeteringCommandsComplete`, clause by clause. -/
theorem met_metering_commands_complete :
  islandOn 1 { running with chip := { running.chip with islands := 7 } } ∧
  (taiNow (metered {}) % 10000 < 1000) ∧
  (let s := metered {}
   let t := takeInbox 0 3 1 (leBytes 8 100000 ++ zeros 8) s
   islandOn 1 s ∧ taiNow t < leAt (leBytes 8 100000 ++ zeros 8) 0 8 + 10000 + attribLag t ∧ intervalOk t (leBytes 8 100000 ++ zeros 8)) ∧
  (let t := takeInbox 0 3 1 (zeros 16) { metered {} with time.fifths := 40000000000000 }
   leAt (zeros 16) 0 8 + 10000 + attribLag t ≤ taiNow t) ∧
  (let t := takeInbox 0 3 1 (leBytes 8 100000 ++ zeros 9) (metered {})
   taiNow t < leAt (leBytes 8 100000 ++ zeros 9) 0 8 + 10000 + attribLag t ∧ intervalOk t (leBytes 8 100000 ++ zeros 9) = false) ∧
  (let t := { metered {} with time.fifths := 40000000000000 }
   0 + 10000 + attribLag t ≤ taiNow t) ∧
  (let o : OpenReq := { id := 5, start := 0 }
   let s := metered { opens := [o] }
   s.meter.opens.find? (fun o => o.id == 5) = some o ∧ o.seenAt + max 1 (rdFld s R.TK_LIMITS 15 0) ≤ now s) ∧
  (let o : OpenReq := { id := 5, start := 0 }
   let s := { metered { opens := [o] } with time.fifths := 40000000000000 }
   o.reopens = false ∧ o.start + 1000000000 * max 1 (rdFld s R.TK_LIMITS 31 16) ≤ taiNow s) ∧
  (let b : Batch := { idx := 0, firstSeq := 0 }
   b.closed = false ∧ b.openAt + max 1 (min 1000 (rdFld (metered { batches := [b] }) R.TK_CFG 15 0)) ≤ now (metered { batches := [b] })) ∧
  (let b : Batch := { idx := 0, firstSeq := 0, closed := true }
   let s := { metered { batches := [b] } with sec.state := 2 }
   s.meter.batches.find? (fun b => b.closed && b.record.isEmpty) = some b ∧ coreUp 0 s ∧ secOperational s) ∧
  ({ running with meter.sweep := some { todo := [3] } } : State).meter.sweep.isSome ∧
  (standbyUp { running with st := { image := [0], stbyMark := 1, journal := [0], phase := 0 } }) ∧
  (({ todo := [3] } : Sweep).todo.contains (3 : Fin 512).val ∧
    (metered { sweep := some { todo := [3] } }).meter.calNamed.contains (3 : Fin 512).val = false) ∧
  (metered { sweep := some ⟨[], false⟩ }).meter.sweep = some ⟨[], false⟩ ∧
  (metered { sweep := some ⟨[], true⟩ }).meter.sweep = some ⟨[], true⟩ := by
  repeat' apply And.intro
  all_goals first | exact at0_runs _ (by decide) | decide +kernel

set_option maxRecDepth 100000 in
/-- States and operands that meet the hypotheses of `BudgetAndDispatchCommandsComplete`, clause by clause. -/
theorem met_budget_and_dispatch_commands_complete :
  coreUp 1 running ∧ coreUp 1 State.reset = false ∧
  ((accB (wr R.BG_CTRL 0x8000000A running) 0).guard = false ∧ rdBit (wr R.BG_CTRL 0x8000000A running) R.BG_CTRL 31 ∧
    rdN (wr R.BG_CTRL 0x8000000A running) (R.GUARD 0) * (100 + max 1 (min 50 (rdFld (wr R.BG_CTRL 0x8000000A running) R.BG_CTRL 7 0)))
      < 100 * 2000) ∧
  ((accB (setAcc 0 (fun b => { b with guard := true }) running) 0).guard ∧
    0 ≤ rdFld (setAcc 0 (fun b => { b with guard := true }) running) (R.GRANT 0) 31 16) ∧
  (accB (setAcc 0 (fun b => { b with guardNext := [5] }) running) 0).guardNext = [5] ∧
  (accB (setAcc 0 (fun b => { b with guardFell := true }) running) 0).guardFell ∧
  (running.chip.rackThrottle = false ∧ grantDue running 0 = false) ∧
  coreUp 2 running ∧
  rdBit (wr R.BG_SUMMARY 0x80000001 running) R.BG_SUMMARY 31 := by
  repeat' apply And.intro
  all_goals first | exact at0_runs _ (by decide) | decide +kernel

set_option maxRecDepth 100000 in
/-- States and operands that meet the hypotheses of `SensorsAndThrottleCommandsComplete`, clause by clause. -/
theorem met_sensors_and_throttle_commands_complete :
  aonRuns running ∧
  (let t := wr (R.RD_CFG 0) 0x80500000 running
   rdBit t (R.RD_CFG 0) 31 ∧ (t.heat.diodes.get {} 0).fault = false) ∧
  (∀ d ∈ diodesOf running 0, diodeRead running d ≤ 10 * ((rdFld running (R.RD_CFG d) 23 16 : Int) - 5)) ∧
  (let t := wr (R.TH_CFG 0) 0x80640F6E running
   rdBit t (R.TH_CFG 0) 31 ∧ (t.heat.therms.get {} 0).fault = false) := by
  repeat' apply And.intro
  all_goals first | exact at0_runs _ (by decide) | decide +kernel

set_option maxRecDepth 100000 in
/-- States and operands that meet the hypotheses of `CoolingAndLeakCommandsComplete`, clause by clause. -/
theorem met_cooling_and_leak_commands_complete :
  aonRuns running ∧ (bitAt 0x80000000 31 ∧ bitAt 0x80000000 30 = false) ∧
  (let t := { running with heat := { lastKick := some 0, cfgLoaded := true } }
   t.heat.lastKick = some 0 ∧ now t ≤ 0 + max 10 (min 100 (rdFld t R.WDG_CTRL 7 0))) ∧
  (let t := { running with aon := { running.aon with optime := 1000 }, heat := { cfgLoaded := true } }
   t.heat.cfgLoaded ∧ t.heat.wdgFired = false ∧
     max t.heat.cfgAt (t.heat.lastKick.getD 0) + max 10 (min 100 (rdFld t R.WDG_CTRL 7 0)) ≤ now t) ∧
  (let t := wr (R.CH_DUTY 0) 0x6400 (wr (R.CH_CFG 0) 0x0A00 running)
   30 ≤ rdFld t (R.CH_DUTY 0) 15 8 ∧ 0 < 100 * rdFld t (R.CH_CFG 0) 15 8 ∧ rdBit t (R.CH_STAT 0) 1 = false) ∧
  (let s := wr (R.FLOW_CFG 0) 0x800A0000 running
   let a := wrFld (R.FLOW_RATE 0) 15 0 5 s
   rdBit s (R.FLOW_CFG 0) 31 ∧ loopRate a 0 < loopMin a 0 ∧ loopLow s 0 = false) ∧
  100 * rdFld running (R.CH_CFG 0) 15 8 < 50 ∧
  loopMin (wrFld (R.FLOW_RATE 0) 15 0 5 running) 0 ≤ loopRate (wrFld (R.FLOW_RATE 0) 15 0 5 running) 0 ∧
  ((List.replicate 40 0).length = 40 ∧ (List.replicate 16 0).length = 16) ∧ coreUp 1 running ∧
  (rdFld (wr (R.CH_OVR 0) 0x20 running) (R.CH_OVR 0) 31 8 = 0 ∧ rdFld (wr (R.CH_OVR 0) 0x20 running) (R.CH_OVR 0) 7 0 ≠ 0) ∧
  (leakLoop running 0).cls = .dry := by
  repeat' apply And.intro
  all_goals first | exact at0_runs _ (by decide) | decide +kernel

set_option maxRecDepth 100000 in
/-- States and operands that meet the hypotheses of `TwoWirePortEventsComplete`, clause by clause. -/
theorem met_two_wire_port_events_complete :
  (bitAt (0x80010134 : W32) 31 ∧ rdBit (twAt 1) (R.TW_XSTAT 2) 31 = false ∧ twState 2 (twAt 1) ≠ 0 ∧ twState 2 (twAt 1) ≠ 5 ∧
    twController 2 (twAt 1) ∧ portPolls (twAt 1) 2 = false) ∧
  (twController 2 (twAt 5) ∧ 4 < fld (0x80050134 : W32) 15 8 + fld (0x80050134 : W32) 23 16) ∧ twState 2 (twAt 0) = 0 ∧ rdBit (wr (R.TW_XSTAT 2) 0x80000000 (twAt 1)) (R.TW_XSTAT 2) 31 = true ∧
  (twPort (twBusy 2) 2).cur = some { what := .core, addr := 0x40, w := [1] } ∧ twState 2 (twAt 3) = 3 ∧ twState 2 (twAt 4) = 4 ∧
  (twState 2 (twBusy 2) = 2 ∧ (twPort (twBusy 2) 2).cur = some { what := .core, addr := 0x40, w := [1] }) ∧
  (twPort (setTw 2 (fun p => { p with releasing := true }) (twAt 1)) 2).releasing ∧ (twPort (twAt 3) 2).cur = none ∧
  twState 2 (twAt 5) = 5 ∧ (twState 2 (twAt 1) = 1 ∧ twTarget 2 (twAt 1) ∧ rdFld (twAt 1) (R.TW_TMO 2) 31 16 ≠ 0) ∧
  twState 2 (twAt 6) = 6 ∧ rdBit (twAt 1) (R.TW_CTRL 2) 6 ∧
  (fld (1 : W32) 1 0 ≠ 0 ∧ (twPort (twAt 0) 2).releasing = false ∧ islandOn 1 (twAt 0)) ∧ fld (0 : W32) 1 0 = 0 := by
  repeat' apply And.intro
  all_goals first | exact at0_runs _ (by decide) | decide +kernel

set_option maxRecDepth 100000 in
/-- States and operands that meet the hypotheses of `CoreAndFirmwareCommandsComplete`, clause by clause. -/
theorem met_core_and_firmware_commands_complete :
  (let t := { running with aon := { running.aon with optime := 1000 } }
   aonRuns t ∧ coreUp 3 t ∧ (coreSt t 3).kick + max 1 (min 100 (rdFld t R.CORE_WDG 7 0)) ≤ now t) ∧
  (let t := { running with aon := { running.aon with coreDown := 2, cores := [(1, { image := [0] })] },
                           chip := { running.chip with islands := 7 } }
   aonRuns t ∧ mayRestart t 1 ∧ (coreSt t 1).image ≠ []) ∧
  (let t := { running with aon := { running.aon with coreDown := 2 }, chip := { running.chip with islands := 7 } }
   aonRuns t ∧ mayRestart t 1 ∧ (coreSt t 1).image = []) ∧
  (let t := { running with aon := { running.aon with optime := 600000, cores := [(1, { activatedAt := some 0 })] } }
   (coreSt t 1).activatedAt = some 0 ∧ 0 + 600000 ≤ now t ∧ (coreSt t 1).probStops = 0) ∧
  (emergLatches running = 0 ∧ aonRuns running ∧ coreUp 0 running) ∧
  stagingFw [⟨.fwStage 1 0 [7], 0, 0, false⟩] = some (1, 0, [7]) ∧
  fwAdmits running 11 0 64 true = false ∧
  running.aon.vcoreEff + 25 < 1000 := by
  (repeat' apply And.intro) <;> decide +kernel

set_option maxRecDepth 100000 in
/-- States and operands that meet the hypotheses of `RecorderAndConfigurationCommandsComplete`, clause by clause. -/
theorem met_recorder_and_configuration_commands_complete :
  aonRuns running ∧
  (let c : Coal := { cls := 1, code := 1, inst := 0, keep := true, last := 0, flushed := 0, count := 1, seq := 0 }
   let t := { running with aon := { running.aon with optime := 20000 }, rcd := { coal := [c] } }
   t.rcd.coal[0]? = some c ∧ aonRuns t ∧ c.last + 1000 ≤ now t) ∧
  (let c : Coal := { cls := 1, code := 1, inst := 0, keep := true, last := 19500, flushed := 0, count := 1, seq := 0 }
   let t := { running with aon := { running.aon with optime := 20000 }, rcd := { coal := [c] } }
   t.rcd.coal[0]? = some c ∧ now t < c.last + 1000 ∧ c.flushed + 10000 ≤ now t) ∧
  (coreUp 0 running ∧ running.chip.tray = .standby ∧ emergLatches running = 0) ∧
  (let t := { running with cfg := { running.cfg with rollbackDue := true, active := 0, state0 := 2, state1 := 3 } }
   t.cfg.rollbackDue ∧ t.cfg.job = .none ∧ previousSlot (setSlotState 0 4 t) = some 1) := by
  (repeat' apply And.intro) <;> decide +kernel

set_option maxRecDepth 100000 in
/-- States and operands that meet the hypotheses of `RegisterWritesComplete`, clause by clause. -/
theorem met_register_writes_complete :
  (masterRuns running 3 ∧ fwAdmits running 3 (regBase + 0x20) 4 true = false ∧ (regBase + 0x20) % 4 = 0) ∧
  (masterRuns running 0 ∧ fwAdmits running 0 (regBase + 0x0C000000) 4 true ∧ isPinned running 0 = false ∧
    inRegBlock 0x0C000000 = false) ∧
  (fwAdmits running 0 (regBase + R.CL_FREQ 0) 4 true ∧ inRegBlock (R.CL_FREQ 0) ∧ regAnswers running (R.CL_FREQ 0) = false) ∧
  (inRegBlock R.CORE_WDG ∧ regAnswers running R.CORE_WDG ∧ fwAdmits running 0 (regBase + R.CORE_WDG) 4 true ∧
    (regRow R.CORE_WDG).isSome) := by
  (repeat' apply And.intro) <;> decide +kernel

set_option maxRecDepth 100000 in
/-- States and operands that meet the hypotheses of `AStepRunsTheFrontCommand`, clause by clause. -/
theorem met_a_step_runs_the_front_command :
  State.reset.pending = [] := by
  repeat' apply And.intro
  all_goals first | exact at0_runs _ (by decide) | decide +kernel

set_option maxRecDepth 100000 in
/-- States and operands that meet the hypotheses of `ResetStands`, clause by clause. -/
theorem met_reset_stands :
  State.reset.chip.tray = .off := by
  repeat' apply And.intro
  all_goals first | exact at0_runs _ (by decide) | decide +kernel

set_option maxRecDepth 100000 in
/-- States and operands that meet the hypotheses of `LimitsOnlyTighten`, clause by clause. -/
theorem met_limits_only_tighten :
  coldResets .optimeTick = false := by
  repeat' apply And.intro
  all_goals first | exact at0_runs _ (by decide) | decide +kernel

set_option maxRecDepth 100000 in
/-- States and operands that meet the hypotheses of `LimitsHoldThroughEveryStep`, clause by clause. -/
theorem met_limits_hold_through_every_step :
  LimitsHold State.reset ∧ step State.reset = .next State.reset := by
  exact ⟨⟨by decide, by decide, by decide⟩, rfl⟩

set_option maxRecDepth 100000 in
/-- States and operands that meet the hypotheses of `OperatingTimeAndPowerCycles`, clause by clause. -/
theorem met_operating_time_and_power_cycles :
  (∃ t, exec .optimeTick running = .next t) ∧
  (∃ t, exec (.vaonRestored 0 false) { running with chip := { running.chip with vaonOk := false } } = .next t) ∧
  ({ running with chip := { running.chip with vaonOk := false } } : State).chip.vaonOk = false ∧ running.chip.vaonOk = true := by
  exact ⟨⟨_, rfl⟩, ⟨_, rfl⟩, rfl, rfl⟩

set_option maxRecDepth 100000 in
/-- States and operands that meet the hypotheses of `DegradedExactlyWhileACauseIsSet`, clause by clause. -/
theorem met_degraded_exactly_while_a_cause_is_set :
  (∃ t, exec .optimeTick running = .next t) ∧ (setTray .degraded running).chip.tray = .degraded ∧
  degradeCause { running with ports := (List.range 12).map (fun k => (k, ({ st := .up } : Port))),
                              regs := [(R.ROUTE_CTRL, 1)] } = 0 := by
  exact ⟨⟨_, rfl⟩, rfl, by decide +kernel⟩

set_option maxRecDepth 100000 in
/-- States and operands that meet the hypotheses of `SettlingLeavesAlone`, clause by clause. -/
theorem met_settling_leaves_alone :
  settled State.reset = State.reset := by
  repeat' apply And.intro
  all_goals first | exact at0_runs _ (by decide) | decide +kernel

set_option maxRecDepth 100000 in
/-- States and operands that meet the hypotheses of `TrayCodeCorrectsOneSymbol`, clause by clause. -/
theorem met_tray_code_corrects_one_symbol :
  (zeros 32).length = 32 ∧ (1 : Byte) ≠ 0 := by
  repeat' apply And.intro
  all_goals first | exact at0_runs _ (by decide) | decide +kernel

set_option maxRecDepth 100000 in
/-- States and operands that meet the hypotheses of `ExactSumsDoNotDependOnOrder`, clause by clause. -/
theorem met_exact_sums_do_not_depend_on_order :
  (let a : Scaled × Scaled := ⟨⟨.fin false 3 0, some 0⟩, ⟨.fin true 1 0, some 0⟩⟩
   let b : Scaled × Scaled := ⟨⟨.inf true, some 0⟩, ⟨.fin true 1 0, some 0⟩⟩
   [a, b].length ≤ eChunk ∧ (eSum false 6 6 8 [a, b] none).bits = (eSum false 6 6 8 [b, a] none).bits) := by
  repeat' apply And.intro
  all_goals first | exact at0_runs _ (by decide) | decide +kernel

set_option maxRecDepth 100000 in
/-- States and operands that meet the hypotheses of `RoundingIsToNearestEven`, clause by clause. -/
theorem met_rounding_is_to_nearest_even :
  roundUnits 5 0 false 1 = (2, true) ∧ roundUnits 7 0 false 1 = (4, true) := by
  repeat' apply And.intro
  all_goals first | exact at0_runs _ (by decide) | decide +kernel

set_option maxRecDepth 100000 in
/-- States and operands that meet the hypotheses of `ErrorAddressIsTheFirst`, clause by clause. -/
theorem met_error_address_is_the_first :
  (rdBit running R.ERR_STATUS 0 = false ∧ rdBit running R.ERR_STATUS 1 = false) ∧
  rdBit (decodeError 7 running) R.ERR_STATUS 1 := by
  repeat' apply And.intro
  all_goals first | exact at0_runs _ (by decide) | decide +kernel

set_option maxRecDepth 100000 in
/-- States and operands that meet the hypotheses of `TargetClockActsInSteps`, clause by clause. -/
theorem met_target_clock_acts_in_steps :
  islandAnswers (clusterIsland 0) { running with chip := { running.chip with islands := 8 } } ∧ actTarget 1033 = 1025 := by
  repeat' apply And.intro
  all_goals first | exact at0_runs _ (by decide) | decide +kernel

set_option maxRecDepth 100000 in
/-- States and operands that meet the hypotheses of `HighestControlBitActs`, clause by clause. -/
theorem met_highest_control_bit_acts :
  bitAt 0xF 3 ∧ (bitAt 7 3 = false ∧ bitAt 7 2) ∧ (bitAt 3 2 = false ∧ bitAt 3 1) ∧ bitAt 1 0 := by
  repeat' apply And.intro
  all_goals first | exact at0_runs _ (by decide) | decide +kernel

set_option maxRecDepth 100000 in
/-- States and operands that meet the hypotheses of `ZoneTemperatureAndHeadroom`, clause by clause. -/
theorem met_zone_temperature_and_headroom :
  (ro { running with heat := { ro := [(3, { cause := 1 })] } } 3).cause ≠ 0 ∧
  (rdBit (wr (R.RD_CFG 0) 0x80500000 running) (R.RD_CFG 0) 31 ∧ rdFld (wr (R.RD_CFG 0) 0x80500000 running) (R.RD_CFG 0) 27 24 = 0) := by
  repeat' apply And.intro
  all_goals first | exact at0_runs _ (by decide) | decide +kernel

set_option maxRecDepth 100000 in
/-- States and operands that meet the hypotheses of `FallbackCurve`, clause by clause. -/
theorem met_fallback_curve :
  (let s := wr (R.CH_CURVE_HI 0) 0x64503C32 (wr (R.CH_CURVE_LO 0) 0x28281E14 (wr (R.CH_CFG 0) 0x00300000 running))
   let p := curvePoint s 0
   curveSource s 0 = some 0 ∧ (p 0).1 < (p 1).1 ∧ (p 1).1 < (p 2).1 ∧ (p 2).1 < (p 3).1 ∧ 0 < (p 0).1) ∧
  (let s := wr (R.CH_CFG 0) 0x00FF0000 running
   curveSource s 0 = none) ∧
  (let p := curvePoint running 0
   ¬((p 0).1 < (p 1).1 ∧ (p 1).1 < (p 2).1 ∧ (p 2).1 < (p 3).1)) := by
  repeat' apply And.intro
  all_goals first | exact at0_runs _ (by decide) | decide +kernel

set_option maxRecDepth 100000 in
/-- States and operands that meet the hypotheses of `EventQueueHolds`, clause by clause. -/
theorem met_event_queue_holds :
  running.rcd.queue.length < 48 ∧ (48 ≤ (List.replicate 48 (⟨1, 1, 0, true, [], none⟩ : Ev)).length) ∧
  0 < ({ running with rcd.lost := 3 } : State).rcd.lost := by
  repeat' apply And.intro
  all_goals first | exact at0_runs _ (by decide) | decide +kernel

set_option maxRecDepth 100000 in
/-- States and operands that meet the hypotheses of `RecorderStaysWithinItsMemory`, clause by clause. -/
theorem met_recorder_stays_within_its_memory :
  (running.rcd.page < running.rcd.firstPage + 3072 ∧ running.rcd.used ≤ 4096 ∧ running.rcd.keep.length ≤ 4096 ∧
    running.rcd.coal.length ≤ 8) := by
  repeat' apply And.intro
  all_goals first | exact at0_runs _ (by decide) | decide +kernel

set_option maxRecDepth 100000 in
/-- States and operands that meet the hypotheses of `JournalKeepsEachRailOnce`, clause by clause. -/
theorem met_journal_keeps_each_rail_once :
  (strandAt 0 0x0 { at0 0x0 with st := { (at0 0x0).st with strands := [(0, { run := 1, standby := true })] } } ∨ strandAt 0 0x0 (at0 0x0)) ∧
  (acting.st.journal.Nodup ∧ ∀ r ∈ acting.st.journal, r < 256) := by
  repeat' apply And.intro
  all_goals first | exact at0_runs _ (by decide) | decide +kernel

set_option maxRecDepth 100000 in
/-- States and operands that meet the hypotheses of `TrayMemoryReadsBack`, clause by clause. -/
theorem met_tray_memory_reads_back :
  Memory.wf running.mem.data ∧ running.mem.errs = [] := by
  repeat' apply And.intro
  all_goals first | exact at0_runs _ (by decide) | decide +kernel

set_option maxRecDepth 100000 in
/-- States and operands that meet the hypotheses of `GrantsStayWithinTheCap`, clause by clause. -/
theorem met_grants_stay_within_the_cap :
  (0 < (⟨500, 1⟩ : Frac).d ∧ actives toRaise = [8] ∧
    (((actives toRaise).map (minW toRaise)).sum : Int) * 1 ≤ 5000000) := by
  repeat' apply And.intro
  all_goals first | exact at0_runs _ (by decide) | decide +kernel

set_option maxRecDepth 100000 in
/-- States and operands that meet the hypotheses of `EveryAttojouleIsAccounted`, clause by clause. -/
theorem met_every_attojoule_is_accounted :
  ((metered { opens := [{ id := 5, start := 0 }] }).meter.opens.map (fun o => o.id)).Nodup := by
  repeat' apply And.intro
  all_goals first | exact at0_runs _ (by decide) | decide +kernel

set_option maxRecDepth 100000 in
/-- States and operands that meet the hypotheses of `CountersSaturate`, clause by clause. -/
theorem met_counters_saturate :
  rdN (bumpBy R.CNT_LOST 2 (wr R.CNT_LOST 0xFFFFFFFE running)) R.CNT_LOST = 0xFFFFFFFF := by
  repeat' apply And.intro
  all_goals first | exact at0_runs _ (by decide) | decide +kernel

set_option maxRecDepth 100000 in
/-- States and operands that meet the hypotheses of `AnAonTripForgetsTheOnOrder`, clause by clause. -/
theorem met_an_aon_trip_forgets_the_on_order :
  (running.chip.tray ≠ .off ∧ running.st.phase ≠ 4) ∧ running.chip.onHeld = false := by
  repeat' apply And.intro
  all_goals first | exact at0_runs _ (by decide) | decide +kernel

set_option maxRecDepth 100000 in
/-- States and operands that meet the hypotheses of `BatchNumbersNeverRepeat`, clause by clause. -/
theorem met_batch_numbers_never_repeat :
  running.meter.resets + 1 < 2 ^ 24 ∧ running.meter.seq < (running.meter.resets + 1) * 2 ^ 40 := by
  repeat' apply And.intro
  all_goals first | exact at0_runs _ (by decide) | decide +kernel

set_option maxRecDepth 100000 in
/-- States and operands that meet the hypotheses of `FullCoolingWhileATripIsInForce`, clause by clause. -/
theorem met_full_cooling_while_a_trip_is_in_force :
  (isValve 3 && valveClosed cooled 3) = false ∧ cooled.chip.tripForce := by
  repeat' apply And.intro
  all_goals first | exact at0_runs _ (by decide) | decide +kernel

/-- An order over MCTP for a port that runs. -/
theorem met_mctp_order :
    ∃ msg, mctpRuns 0 racked ∧ mctpEid 0 racked ≠ 0 ∧ leAt msg 0 1 = 0x7F ∧ slice msg 1 4 = ianaBytes ∧
      (mbox racked 12).st = .idle := by
  exact ⟨0x7F#8 :: ianaBytes, by decide +kernel, by decide +kernel, rfl, List.take_of_length_le (by simp [ianaBytes]), by decide +kernel⟩

/-! The spec's own examples -/

/-- 02, Worked example: order does not matter. binary16 [4096, 1, −4096, 1] and [1, 0.5, 1, 0.5] give 0x3C00. -/
theorem test_esum_order :
    let p (a b : Nat) : Scaled × Scaled := (⟨decodeElem 6 a, some 0⟩, ⟨decodeElem 6 b, some 0⟩)
    (eSum false 6 6 6 [p 0x6C00 0x3C00, p 0x3C00 0x3800, p 0xEC00 0x3C00, p 0x3C00 0x3800] none).bits = 0x3C00 := by
  decide +kernel

/-- 02, Worked example: block-scaled FP4. Two blocks of 32 E2M1 products give −144. -/
theorem test_esum_blocks :
    let p (a sa b sb : Nat) : Scaled × Scaled :=
      (⟨decodeElem 1 a, some ((sa : Int) - 127)⟩, ⟨decodeElem 1 b, some ((sb : Int) - 127)⟩)
    eSum true 1 1 8 (List.replicate 32 (p 0x7 0x7F 0x1 0x7E) ++ List.replicate 32 (p 0x3 0x81 0xA 0x7F)) none
      = ⟨0xC3100000, 0⟩ := by
  decide +kernel

/-- 02, Worked example: a five-term tree. -/
theorem test_five_term_tree :
    (cTree [⟨0x4B800000, 0⟩, ⟨0x3F800000, 0⟩, ⟨0x3F800000, 0⟩, ⟨0x3F800000, 0⟩, ⟨0x3F800000, 0⟩]).bits = 0x4B800002 := by
  decide +kernel

/-- R39: the canonical NaN of each format that has one. -/
theorem test_canonical_nans : [8, 7, 6, 5, 4, 12].map fmtNan = [0x7FC00000, 0x7FC0, 0x7E00, 0x7E, 0x7F, 0xFF] := by decide

/-- 11, Worked example: the rest of 7,410 W gives each accelerator 813.75 W above its 300 W, and the TAL8 its 1,300 W. -/
theorem test_split_at_the_cap :
    (splitGo 10 ⟨7410, 1⟩ ((List.range 8).map (fun i => (⟨i, ⟨300, 1⟩, ⟨1200, 1⟩, 1, ⟨300, 1⟩, true⟩ : Part))
      ++ [⟨8, ⟨400, 1⟩, ⟨1300, 1⟩, 2, ⟨400, 1⟩, true⟩])).map (fun p => p.got.floor)
      = [1113, 1113, 1113, 1113, 1113, 1113, 1113, 1113, 1300] := by
  decide +kernel

/-- The sample tray's torus with these links UP. -/
def sampleTorus (up : List Nat) : State :=
  wr R.TORUS_DIM 0x0F1F (wr R.NODE_ID 389 { State.reset with torus.links := up.map (fun l => (l, { up := true })) })

/-- 07, Worked example: node 389 to node 974 goes −X over S1, 21 hops, the links from 714 to 1930 along X, then along Y. -/
theorem test_route :
    let s := sampleTorus [10, 74, 138, 202, 266, 330, 394, 458, 522, 586, 650, 714, 1921, 1923, 1925, 1927, 1929, 1930, 1949,
      1951, 1994]
    nodeId s = 389 ∧ (pathXY s 389 974).length = 21 ∧ firstSeam s false 389 974 = 1 ∧ injectOrder s 974 = some false := by
  decide +kernel

/-- The same with link 330 DOWN: the YX path, −Y over S3 first, 21 hops. -/
theorem test_reroute :
    let s := sampleTorus [28, 92, 156, 220, 284, 348, 412, 476, 540, 604, 668, 732, 769, 771, 773, 775, 777, 797, 799, 1948, 2012]
    (pathXY s 389 974).contains 330 ∧ (pathYX s 389 974).length = 21 ∧ firstSeam s true 389 974 = 3 ∧
      injectOrder s 974 = some true := by
  decide +kernel

/-- R3: CRC-32C of the nine ASCII digits is the check value of the cited standard. -/
theorem test_crc32c : crc32c [0x31, 0x32, 0x33, 0x34, 0x35, 0x36, 0x37, 0x38, 0x39] = 0xE3069283#32 := by decide +kernel

/-- 01: CHIP_ID after reset. -/
theorem test_reset_value_of_chip_id : rd State.reset R.CHIP_ID = 0xC1A508B1#32 := by decide

/-! Ill-formed commands -/

/-- Commands whose operands just fit. -/
theorem test_well_formed :
  ([Instr.sysrstNLow 0 false [],
   Instr.sysrstNRelease 0 false,
   Instr.registerWrite 0 0 0,
   Instr.phaseComplete ⟨0, []⟩,
   Instr.selftestComplete 0 0 false false,
   Instr.sramScrub 0 0 0 false,
   Instr.stepOpen 0 [],
   Instr.capsule 0 [],
   Instr.capsuleFetchComplete 0 0,
   Instr.replayComplete 0 0,
   Instr.peerPlanCopyComplete 0 0,
   Instr.thirdReq 0 []] : List Instr).all Instr.wellFormed = true ∧
  ([Instr.thirdExecutionComplete 0 0,
   Instr.thirdResult 0 [],
   Instr.peerRetry 0 0,
   Instr.verdictDelivered 0 0,
   Instr.darnCaptureComplete 0 0,
   Instr.darnOffer 0 [],
   Instr.darnFetchComplete 0,
   Instr.darnPreparationComplete 0,
   Instr.darnWant 0 [],
   Instr.screenResult 0 [],
   Instr.delegateCapsule 0 [],
   Instr.delegateVerdict 0 []] : List Instr).all Instr.wellFormed = true ∧
  ([Instr.dramRead 0 0 [] [],
   Instr.dramWrite 0 ⟨0, []⟩ [],
   Instr.patrolScrubRead 0 [] [],
   Instr.lanesTrained 0 0,
   Instr.linkId 0 [],
   Instr.linkMap 0 [],
   Instr.keyCert 0 [],
   Instr.flitReceived 0 [],
   Instr.nak 0 0,
   Instr.accStatus 0 [],
   Instr.messageInject (List.replicate 32 0) [],
   Instr.flitForward 0 (List.replicate 32 0) []] : List Instr).all Instr.wellFormed = true ∧
  ([Instr.linkNotice 0 [],
   Instr.timeFlit 0 [] 0,
   Instr.loopReq 0 [],
   Instr.windowDecl 0 [],
   Instr.rdReq 0 (List.replicate 32 0) [],
   Instr.rdData 0 (List.replicate 32 0) [],
   Instr.wrReq 0 (List.replicate 32 0) [],
   Instr.wrAck 0 (List.replicate 32 0) [],
   Instr.err 0 (List.replicate 32 0) [],
   Instr.fwd 0 (List.replicate 32 0) [],
   Instr.order 0 (List.replicate 32 0) [],
   Instr.orderReply 0 (List.replicate 32 0) []] : List Instr).all Instr.wellFormed = true ∧
  ([Instr.frameReceived [],
   Instr.hRd (List.replicate 32 0) [],
   Instr.hWr (List.replicate 32 0) [],
   Instr.hWb (List.replicate 32 0) [],
   Instr.snpInv (List.replicate 32 0) [],
   Instr.grant (List.replicate 32 0) [],
   Instr.data (List.replicate 32 0) [],
   Instr.ack (List.replicate 32 0) [],
   Instr.timeFrame (List.replicate 32 0) [],
   Instr.fwdFrame (List.replicate 32 0) [],
   Instr.mctpOrder 0 0 [],
   Instr.setEndpointId 0 0 []] : List Instr).all Instr.wellFormed = true ∧
  ([Instr.getEndpointId 0 0 [],
   Instr.getEndpointUuid 0 0 [],
   Instr.getMctpVersionSupport 0 0 [],
   Instr.getMessageTypeSupport 0 0 [],
   Instr.getVendorDefinedMessageSupport 0 0 [],
   Instr.stitchLoad 0 [],
   Instr.slotLoad 0 [],
   Instr.configStage 0 [],
   Instr.fwStage 0 [],
   Instr.stCheck 0 0 0,
   Instr.waitpgTimeout 0 0 0 0,
   Instr.fallTimeout 0 0 0 0] : List Instr).all Instr.wellFormed = true ∧
  ([Instr.railFailureDetected 0 0 0 0 0,
   Instr.statusWordPoll 0 none false 0,
   Instr.pfailFallCheck (List.replicate 256 0) 0,
   Instr.meterSample (List.replicate 256 0) (List.replicate 256 0),
   Instr.channelCalComplete 0 0 0 0,
   Instr.attribInterval 0 [],
   Instr.ticketIdleClose 0,
   Instr.ticketMaxClose 0,
   Instr.demand 0 [],
   Instr.guardCompare 0 0,
   Instr.ringSensorConversion (List.replicate 96 0) (List.replicate 96 0),
   Instr.thermistorConversion 0 0] : List Instr).all Instr.wellFormed = true ∧
  ([Instr.fanPumpFailure 0 0,
   Instr.flowLow 0 0,
   Instr.coolingFailureRecovery false 0 0,
   Instr.tachReport (List.replicate 40 0) (List.replicate 16 0),
   Instr.leakMeasurement 0 0 0,
   Instr.twTransactionEnd 0 0 [],
   Instr.targetWriteReceived 0 [],
   Instr.firewallViolation 0 0 0 false,
   Instr.vcoreBackstop 0,
   Instr.eventRaised 0 0 0 [],
   Instr.vaonRestored 0 false,
   Instr.slotPgTimeout 0 0 0 0] : List Instr).all Instr.wellFormed = true ∧
  ([Instr.targetReadReceived 0 0] : List Instr).all Instr.wellFormed = true := by decide +kernel

/-- For each check of `Instr.wellFormed`, a command that only that check refuses. -/
theorem test_ill_formed :
  ([Instr.sysrstNLow 0 false [(104, [])],
   Instr.sysrstNRelease (5) false,
   Instr.registerWrite 0 2 0,
   Instr.registerWrite 0 (2 ^ 48) 0,
   Instr.phaseComplete ⟨0, [(192, 0)]⟩,
   Instr.selftestComplete 0 (2 ^ 24) false false,
   Instr.sramScrub 0 0 (2 ^ 32) false,
   Instr.stepOpen 0 (List.replicate 4097 0),
   Instr.capsule 0 (List.replicate 4097 0),
   Instr.capsuleFetchComplete (2056) 0,
   Instr.capsuleFetchComplete 0 (2 ^ 64),
   Instr.replayComplete (2056) 0] : List Instr).all (fun i => !i.wellFormed) = true ∧
  ([Instr.replayComplete 0 (2 ^ 64),
   Instr.peerPlanCopyComplete (2056) 0,
   Instr.peerPlanCopyComplete 0 (2 ^ 64),
   Instr.thirdReq (2048) [],
   Instr.thirdReq 0 (List.replicate 4097 0),
   Instr.thirdExecutionComplete (2048) 0,
   Instr.thirdExecutionComplete 0 (2 ^ 64),
   Instr.thirdResult (2048) [],
   Instr.thirdResult 0 (List.replicate 4097 0),
   Instr.peerRetry (2056) 0,
   Instr.peerRetry 0 (2 ^ 64),
   Instr.verdictDelivered (2056) 0] : List Instr).all (fun i => !i.wellFormed) = true ∧
  ([Instr.verdictDelivered 0 (2 ^ 64),
   Instr.darnCaptureComplete (2056) 0,
   Instr.darnCaptureComplete 0 (2 ^ 64),
   Instr.darnOffer 0 (List.replicate 4097 0),
   Instr.darnFetchComplete (2 ^ 128),
   Instr.darnPreparationComplete (2 ^ 128),
   Instr.darnWant 0 (List.replicate 4097 0),
   Instr.screenResult 0 (List.replicate 4097 0),
   Instr.delegateCapsule (2048) [],
   Instr.delegateCapsule 0 (List.replicate 4097 0),
   Instr.delegateVerdict (2048) [],
   Instr.delegateVerdict 0 (List.replicate 4097 0)] : List Instr).all (fun i => !i.wellFormed) = true ∧
  ([Instr.dramRead (2 ^ 48) 0 [] [],
   Instr.dramRead 0 0 (List.replicate 65 0) [],
   Instr.dramRead 0 0 [] (List.replicate 65 0),
   Instr.dramWrite (2 ^ 48) ⟨0, []⟩ [],
   Instr.dramWrite 0 ⟨0, (List.replicate 4097 0)⟩ [],
   Instr.dramWrite 0 ⟨0, []⟩ (List.replicate 65 0),
   Instr.patrolScrubRead 0 (List.replicate 65 0) [],
   Instr.patrolScrubRead 0 [] (List.replicate 65 0),
   Instr.lanesTrained 0 (2 ^ 16),
   Instr.linkId 0 (List.replicate 4097 0),
   Instr.linkMap 0 (List.replicate 4097 0),
   Instr.keyCert 0 (List.replicate 4097 0)] : List Instr).all (fun i => !i.wellFormed) = true ∧
  ([Instr.flitReceived 0 (List.replicate 8193 0),
   Instr.nak 0 (4096),
   Instr.accStatus 0 (List.replicate 4097 0),
   Instr.messageInject [] [],
   Instr.messageInject (List.replicate 32 0) (List.replicate 4097 0),
   Instr.flitForward 0 [] [],
   Instr.flitForward 0 (List.replicate 32 0) (List.replicate 4097 0),
   Instr.linkNotice 0 (List.replicate 4097 0),
   Instr.timeFlit 0 (List.replicate 4097 0) 0,
   Instr.timeFlit 0 [] (2 ^ 64),
   Instr.loopReq 0 (List.replicate 4097 0),
   Instr.windowDecl 0 (List.replicate 4097 0)] : List Instr).all (fun i => !i.wellFormed) = true ∧
  ([Instr.rdReq 0 [] [],
   Instr.rdReq 0 (List.replicate 32 0) (List.replicate 4097 0),
   Instr.rdData 0 [] [],
   Instr.rdData 0 (List.replicate 32 0) (List.replicate 4097 0),
   Instr.wrReq 0 [] [],
   Instr.wrReq 0 (List.replicate 32 0) (List.replicate 4097 0),
   Instr.wrAck 0 [] [],
   Instr.wrAck 0 (List.replicate 32 0) (List.replicate 4097 0),
   Instr.err 0 [] [],
   Instr.err 0 (List.replicate 32 0) (List.replicate 4097 0),
   Instr.fwd 0 [] [],
   Instr.fwd 0 (List.replicate 32 0) (List.replicate 4097 0)] : List Instr).all (fun i => !i.wellFormed) = true ∧
  ([Instr.order 0 [] [],
   Instr.order 0 (List.replicate 32 0) (List.replicate 4097 0),
   Instr.orderReply 0 [] [],
   Instr.orderReply 0 (List.replicate 32 0) (List.replicate 4097 0),
   Instr.frameReceived (List.replicate 8193 0),
   Instr.hRd [] [],
   Instr.hRd (List.replicate 32 0) (List.replicate 4097 0),
   Instr.hWr [] [],
   Instr.hWr (List.replicate 32 0) (List.replicate 4097 0),
   Instr.hWb [] [],
   Instr.hWb (List.replicate 32 0) (List.replicate 4097 0),
   Instr.snpInv [] []] : List Instr).all (fun i => !i.wellFormed) = true ∧
  ([Instr.snpInv (List.replicate 32 0) (List.replicate 4097 0),
   Instr.grant [] [],
   Instr.grant (List.replicate 32 0) (List.replicate 4097 0),
   Instr.data [] [],
   Instr.data (List.replicate 32 0) (List.replicate 4097 0),
   Instr.ack [] [],
   Instr.ack (List.replicate 32 0) (List.replicate 4097 0),
   Instr.timeFrame [] [],
   Instr.timeFrame (List.replicate 32 0) (List.replicate 4097 0),
   Instr.fwdFrame [] [],
   Instr.fwdFrame (List.replicate 32 0) (List.replicate 4097 0),
   Instr.mctpOrder 0 (2 ^ 16) []] : List Instr).all (fun i => !i.wellFormed) = true ∧
  ([Instr.setEndpointId 0 (2 ^ 16) [],
   Instr.getEndpointId 0 (2 ^ 16) [],
   Instr.getEndpointUuid 0 (2 ^ 16) [],
   Instr.getMctpVersionSupport 0 (2 ^ 16) [],
   Instr.getMessageTypeSupport 0 (2 ^ 16) [],
   Instr.getVendorDefinedMessageSupport 0 (2 ^ 16) [],
   Instr.stCheck 0 (2 ^ 16) 0,
   Instr.stCheck 0 0 (2 ^ 16),
   Instr.waitpgTimeout 0 (2 ^ 16) 0 0,
   Instr.waitpgTimeout 0 0 (2 ^ 16) 0,
   Instr.waitpgTimeout 0 0 0 (2 ^ 32),
   Instr.fallTimeout 0 (2 ^ 16) 0 0] : List Instr).all (fun i => !i.wellFormed) = true ∧
  ([Instr.fallTimeout 0 0 (2 ^ 16) 0,
   Instr.fallTimeout 0 0 0 (2 ^ 32),
   Instr.railFailureDetected 0 0 (2 ^ 16) 0 0,
   Instr.railFailureDetected 0 0 0 (2 ^ 16) 0,
   Instr.railFailureDetected 0 0 0 0 (2 ^ 32),
   Instr.statusWordPoll 0 none false (2 ^ 32),
   Instr.pfailFallCheck [] 0,
   Instr.pfailFallCheck (List.replicate 256 0) (2 ^ 32),
   Instr.meterSample [] (List.replicate 256 0),
   Instr.meterSample (List.replicate 256 0) [],
   Instr.channelCalComplete 0 0 0 (2 ^ 16),
   Instr.attribInterval 0 (List.replicate 4097 0)] : List Instr).all (fun i => !i.wellFormed) = true ∧
  ([Instr.ticketIdleClose (2 ^ 64),
   Instr.ticketMaxClose (2 ^ 64),
   Instr.demand 0 (List.replicate 4097 0),
   Instr.guardCompare 0 (2 ^ 16),
   Instr.ringSensorConversion [] (List.replicate 96 0),
   Instr.ringSensorConversion (List.replicate 96 0) [],
   Instr.thermistorConversion 0 (2 ^ 32),
   Instr.fanPumpFailure 0 (2 ^ 16),
   Instr.flowLow 0 (2 ^ 16),
   Instr.coolingFailureRecovery false 0 (2 ^ 16),
   Instr.tachReport [] (List.replicate 16 0),
   Instr.tachReport (List.replicate 40 0) []] : List Instr).all (fun i => !i.wellFormed) = true ∧
  ([Instr.leakMeasurement 0 (2 ^ 32) 0,
   Instr.leakMeasurement 0 0 (2 ^ 32),
   Instr.twTransactionEnd 0 0 (List.replicate 256 0),
   Instr.targetWriteReceived 0 (List.replicate 256 0),
   Instr.firewallViolation 0 (2 ^ 48) 0 false,
   Instr.firewallViolation 0 0 4097 false,
   Instr.vcoreBackstop (2 ^ 16),
   Instr.eventRaised (16) 0 0 [],
   Instr.eventRaised 0 (2 ^ 16) 0 [],
   Instr.eventRaised 0 0 (2 ^ 16) [],
   Instr.eventRaised 0 0 0 (List.replicate 4097 0),
   Instr.vaonRestored (5) false] : List Instr).all (fun i => !i.wellFormed) = true ∧
  ([Instr.slotPgTimeout 0 (2 ^ 16) 0 0,
   Instr.slotPgTimeout 0 0 (2 ^ 16) 0,
   Instr.slotPgTimeout 0 0 0 (2 ^ 32),
   Instr.targetReadReceived 0 256] : List Instr).all (fun i => !i.wellFormed) = true := by decide +kernel

/-- Images and messages beyond what any store or transport holds. -/
theorem test_ill_formed_large (b : Bytes) (h : 33554432 < b.length) :
    Instr.wellFormed (.mctpOrder 0 0 b) = false ∧
    Instr.wellFormed (.setEndpointId 0 0 b) = false ∧
    Instr.wellFormed (.getEndpointId 0 0 b) = false ∧
    Instr.wellFormed (.getEndpointUuid 0 0 b) = false ∧
    Instr.wellFormed (.getMctpVersionSupport 0 0 b) = false ∧
    Instr.wellFormed (.getMessageTypeSupport 0 0 b) = false ∧
    Instr.wellFormed (.getVendorDefinedMessageSupport 0 0 b) = false ∧
    Instr.wellFormed (.stitchLoad 0 b) = false ∧
    Instr.wellFormed (.slotLoad 0 b) = false ∧
    Instr.wellFormed (.configStage 0 b) = false ∧
    Instr.wellFormed (.fwStage 0 b) = false := by
  repeat' apply And.intro
  all_goals
    simp only [Instr.wellFormed, Bool.and_eq_false_iff, decide_eq_false_iff_not]
    omega

end Sys2Proof.Machine
end

/-! What the command REGISTER_WRITE does, from the firewall to the register (R8, R27 to R31, R452 to R454, R461). -/

section RegisterWrites

namespace Sys2Proof.Machine

/-- The command is its meaning. -/
theorem exec_registerWrite : ∀ (m : Fin 37) (a : Nat) (v : W32) (s : State),
    exec (.registerWrite m a v) s = execRegisterWrite m a v s := by
  intros; rfl

/-! Where an access of register space lands -/

/-- The host window never reaches beyond 2 TiB (R206). -/
theorem hostSize_le (s : State) : hostSize s ≤ 2048 * 2 ^ 30 :=
  Nat.mul_le_mul_right _ (Nat.min_le_right _ _)

/-- An access lies within a range exactly where it neither begins before it nor ends beyond it. -/
theorem within_iff {a n b k : Nat} : within a n b k = true ↔ b ≤ a ∧ a + n ≤ b + k := by
  simp [within]

/-- An access by its offset lies within register space where the space has room for it (R27). -/
theorem within_regBase_add {off n : Nat} (h : off + n ≤ 0x100000000) :
    within (regBase + off) n regBase 0x100000000 = true :=
  within_iff.mpr ⟨by omega, by omega⟩

/-- The regions are disjoint: an access that lies within register space decodes there, to a block or to nothing. -/
theorem placeOf_regBase_add {off n : Nat} (h : off + n ≤ 0x100000000) (s : State) :
    placeOf s (regBase + off) n = if inRegBlock off then .reg off else .none := by
  have hself : ¬ 2 ^ 63 ≤ regBase + off := by unfold regBase; omega
  have hdram : ¬ regBase + off + n ≤ dramSize := by unfold regBase dramSize; omega
  have hhost : ¬ within (regBase + off) n hostBase (hostSize s) := by
    have := hostSize_le s
    rw [within_iff]
    unfold regBase hostBase
    omega
  have hsram : ¬ within (regBase + off) n sramBase sramSize := by
    rw [within_iff]
    unfold regBase sramBase sramSize
    omega
  rw [placeOf, if_neg hself, if_neg hdram, if_neg hhost, if_neg hsram, if_pos (within_regBase_add h),
    Nat.add_sub_cancel_left]

/-- A master that is not pinned is not kept out. -/
theorem pinnedOut_of_not_isPinned {s : State} {m : Nat} (h : isPinned s m = false) (off : Nat) :
    pinnedOut s m off = false := by
  simp [pinnedOut, h]

/-! What a write does, case by case of the map -/

section
variable {s : State} {m off : Nat} {v : W32}

/-- A write that no window admits is refused (R453). -/
theorem fxRegisterWrite_of_not_admitted {a : Nat} (hfw : fwAdmits s m a 4 true = false) :
    fxRegisterWrite m a v s = refuseAccess m a 4 true s := by
  simp [fxRegisterWrite, hfw]

/-- An admitted write of register space by a master that is not pinned goes by the block that decodes it, where one does,
and by whether that block answers. -/
theorem fxRegisterWrite_of_admitted (hoff : off + 4 ≤ 0x100000000) (hfw : fwAdmits s m (regBase + off) 4 true = true)
    (hpin : isPinned s m = false) :
    fxRegisterWrite m (regBase + off) v s =
      if inRegBlock off then
        if regAnswers s off then writeReg m (m != 0) off v s else absentWrite m (regBase + off) s
      else decodeError (regBase + off) s := by
  rw [fxRegisterWrite, hfw, pinnedOut_of_not_isPinned hpin, placeOf_regBase_add hoff]
  cases inRegBlock off <;> rfl

/-- A write into a mailbox's buffers: the request buffer takes the bytes, the reply buffer ignores them (R266, log entry 20). -/
theorem writeReg_of_buffer {bound : Bool} {n o : Nat} {rep : Bool} (hb : mbBuffer off = some (n, rep, o)) :
    writeReg m bound off v s = if rep then s else bufWrite n o (leBytes 4 v.toNat) s := by
  simp only [writeReg, hb]

/-- A write to an offset of a block that names no register does nothing (R30). -/
theorem writeReg_of_unnamed {bound : Bool} (hb : mbBuffer off = none) (hr : regRow off = none) :
    writeReg m bound off v s = s := by
  simp only [writeReg, hb, hr]

/-- A write to a named register acts where the block admits the master and no lock binds it (R8, R461). -/
theorem writeReg_of_named {bound : Bool} {r : RegRow} (hb : mbBuffer off = none) (hr : regRow off = some r) :
    writeReg m bound off v s = if blockWriter m off && !regLocked s r bound off then regEffect m off r v s else s := by
  simp only [writeReg, hb, hr]

/-- The lock binds every master but the security core, and RWL registers alone (R8, R461). -/
theorem regLocked_iff {r : RegRow} :
    regLocked s r (m != 0) off = true ↔ m ≠ 0 ∧ r.acc = .rwl ∧ s.sec.lock.getLsbD (lockBit off) = true := by
  simp [regLocked, and_assoc]

/-- A named register is left alone by a master that its block does not admit, and by one that its lock binds (R461, log
entry 17). -/
theorem writeReg_of_named_eq_ite {r : RegRow} (hb : mbBuffer off = none) (hr : regRow off = some r) :
    writeReg m (m != 0) off v s =
      if blockWriter m off = false ∨ (m ≠ 0 ∧ r.acc = .rwl ∧ s.sec.lock.getLsbD (lockBit off) = true) then s
      else regEffect m off r v s := by
  rw [writeReg_of_named hb hr]
  simp only [← regLocked_iff]
  cases blockWriter m off <;> cases regLocked s r (m != 0) off <;> rfl

end

/-- The command of a master that can make an access, at an aligned word of register space, is that write. -/
theorem exec_registerWrite_of_runs {s : State} {m : Fin 37} {off : Nat} {v : W32} (hm : masterRuns s m = true)
    (halign : off % 4 = 0) (hoff : off + 4 ≤ 0x100000000) :
    exec (.registerWrite m (regBase + off) v) s = .next (settled (fxRegisterWrite m (regBase + off) v s)) := by
  have hal : (regBase + off) % 4 = 0 := by
    unfold regBase
    omega
  rw [exec_registerWrite, execRegisterWrite, hm, within_regBase_add hoff, hal]
  rfl

/-- An aligned offset below 2^32 leaves room for its word. -/
theorem aligned_word_fits {off : Nat} (halign : off % 4 = 0) (hlt : off < 0x100000000) : off + 4 ≤ 0x100000000 := by
  omega

/-- Settles O24: the command is the write of its word, and that write is followed through the firewall, the decoding, the
island's answer, and the register's writers and lock. -/
theorem registerWritesComplete : Obligations.RegisterWritesComplete := by
  unfold Obligations.RegisterWritesComplete
  refine ⟨?refused, ?undecoded, ?absent, ?answered⟩
  case refused =>
    intro m off v s hm halign hlt hfw
    rw [exec_registerWrite_of_runs hm halign (aligned_word_fits halign hlt), fxRegisterWrite_of_not_admitted hfw]
  case undecoded =>
    intro m off v s hm halign hlt hfw hpin hblock
    have hfits := aligned_word_fits halign hlt
    rw [exec_registerWrite_of_runs hm halign hfits, fxRegisterWrite_of_admitted hfits hfw hpin, hblock]
    rfl
  case absent =>
    intro m off v s hm halign hlt hfw hpin hblock hans
    have hfits := aligned_word_fits halign hlt
    rw [exec_registerWrite_of_runs hm halign hfits, fxRegisterWrite_of_admitted hfits hfw hpin, if_pos hblock, hans]
    rfl
  case answered =>
    intro m off v s hm halign hlt hfw hpin hblock hans
    have hfits := aligned_word_fits halign hlt
    rw [exec_registerWrite_of_runs hm halign hfits, fxRegisterWrite_of_admitted hfits hfw hpin, if_pos hblock,
      if_pos hans]
    congr 2
    cases hb : mbBuffer off with
    | some b => exact writeReg_of_buffer hb
    | none =>
      cases hr : regRow off with
      | none => exact writeReg_of_unnamed hb hr
      | some r => exact writeReg_of_named_eq_ite hb hr

end Sys2Proof.Machine

end RegisterWrites

/-! What the degrade causes and the on order are read from, and the operations that leave it alone (R20, R21). -/

section TrayViews

namespace Sys2Proof.Machine

/-- The tray state, the on order, and what the degrade causes are read from, beside the temperatures, leaks and budget
that `still` holds. -/
structure TrayView where
  tray : Tray
  onHeld : Bool
  boot : Boot
  portSt : Nat → PortSt
  clusterSt : Nat → ClSt
  clusterSusp : Nat → Bool
  route : W32
  dies : SMap DieSens
  selfTag : Bool
  rails : SMap Rail

def trayView (s : State) : TrayView :=
  ⟨s.chip.tray, s.chip.onHeld, s.chip.boot, fun k => (SMap.get {} s.ports k).st, fun c => (SMap.get {} s.press.clusters c).st,
   fun c => (SMap.get {} s.press.clusters c).susp, SMap.get (regReset R.ROUTE_CTRL) s.regs R.ROUTE_CTRL, s.mem.dies,
   s.assure.selfTag, s.st.rails⟩

@[simp] theorem trayView_mk (pending fresh regs chip aon sec rcd cfg flash st tw mem time press meter heat budget assure ports torus su
    mbx mctpOut longs) :
    trayView (State.mk pending fresh regs chip aon sec rcd cfg flash st tw mem time press meter heat budget assure ports torus su
      mbx mctpOut longs) =
    ⟨chip.tray, chip.onHeld, chip.boot, fun k => (SMap.get {} ports k).st, fun c => (SMap.get {} press.clusters c).st,
     fun c => (SMap.get {} press.clusters c).susp, SMap.get (regReset R.ROUTE_CTRL) regs R.ROUTE_CTRL, mem.dies,
     assure.selfTag, st.rails⟩ := rfl

@[simp] theorem trayView_fold (s : State) :
    (TrayView.mk s.chip.tray s.chip.onHeld s.chip.boot (fun k => (SMap.get {} s.ports k).st) (fun c => (SMap.get {} s.press.clusters c).st)
      (fun c => (SMap.get {} s.press.clusters c).susp) (SMap.get (regReset R.ROUTE_CTRL) s.regs R.ROUTE_CTRL) s.mem.dies
      s.assure.selfTag s.st.rails) = trayView s := rfl

@[simp] theorem trayView_ite {c : Prop} [Decidable c] (a b : State) :
    trayView (if c then a else b) = if c then trayView a else trayView b := by
  split <;> rfl

theorem trayView_foldl_mem {α : Type} (f : State → α → State) (xs : List α) (h : ∀ s, ∀ x ∈ xs, trayView (f s x) = trayView s)
    (s : State) : trayView (xs.foldl f s) = trayView s := by
  induction xs generalizing s with
  | nil => rfl
  | cons x t ih =>
    rw [List.foldl_cons, ih (fun a y hy => h a y (List.mem_cons_of_mem _ hy)), h s x List.mem_cons_self]

@[simp] theorem trayView_foldl {α : Type} (f : State → α → State) (h : ∀ s x, trayView (f s x) = trayView s) (xs : List α)
    (s : State) : trayView (xs.foldl f s) = trayView s :=
  trayView_foldl_mem f xs (fun a x _ => h a x) s

/-! Register words, events, frames, notices, flits -/

/-- A write of any register but ROUTE_CTRL. -/
theorem wr_trayView {off : Nat} (h : off ≠ R.ROUTE_CTRL) (v : W32) (s : State) : trayView (wr off v s) = trayView s := by
  have hget : SMap.get (regReset R.ROUTE_CTRL) (wr off v s).regs R.ROUTE_CTRL
      = SMap.get (regReset R.ROUTE_CTRL) s.regs R.ROUTE_CTRL := by
    unfold wr
    dsimp only
    split
    · rw [SMap.get_erase, if_neg h.symm]
    · rw [SMap.get_insert, if_neg h.symm]
  unfold trayView
  rw [hget]
  rfl

theorem setBits_trayView {off : Nat} (h : off ≠ R.ROUTE_CTRL) (m : Nat) (s : State) : trayView (setBits off m s) = trayView s :=
  wr_trayView h _ s

theorem bumpBy_trayView {off : Nat} (h : off ≠ R.ROUTE_CTRL) (n : Nat) (s : State) : trayView (bumpBy off n s) = trayView s :=
  wr_trayView h _ s

theorem bump_trayView {off : Nat} (h : off ≠ R.ROUTE_CTRL) (s : State) : trayView (bump off s) = trayView s :=
  bumpBy_trayView h 1 s

@[simp] theorem enqueueEvent_trayView (e : Ev) (s : State) : trayView (enqueueEvent e s) = trayView s := by
  simp [enqueueEvent, bump_trayView]

@[simp] theorem raiseEvent_trayView (e : Ev) (s : State) : trayView (raiseEvent e s) = trayView s := by
  simp [raiseEvent, bump_trayView]

@[simp] theorem raise_trayView (cls code inst : Nat) (data : Bytes) (s : State) :
    trayView (raise cls code inst data s) = trayView s := by
  simp [raise]

@[simp] theorem sendFrame_trayView (f : Frame) (s : State) : trayView (sendFrame f s) = trayView s := rfl

@[simp] theorem emitNotice_trayView (kind : Nat) (n : Notice) (s : State) : trayView (emitNotice kind n s) = trayView s := by
  simp [emitNotice]

@[simp] theorem notice_trayView (kind arg status value : Nat) (s : State) :
    trayView (notice kind arg status value s) = trayView s := by
  simp [notice]

/-- A port on which no state changes. -/
theorem setPort_trayView (k : Nat) {f : Port → Port} (h : ∀ p, (f p).st = p.st) (s : State) :
    trayView (setPort k f s) = trayView s := by
  have hst : (fun j => (SMap.get {} (setPort k f s).ports j).st) = fun j => (SMap.get {} s.ports j).st := by
    funext j
    rw [setPort, SMap.upd, SMap.get_set]
    split
    · next e => rw [h, e]
    · rfl
  unfold trayView
  rw [hst]
  rfl

theorem flitNow_st (p : Port) (f : Flit) : (flitNow p f).st = p.st := by
  unfold flitNow
  dsimp only
  split <;> rfl

theorem portPumpGo_st (n : Nat) (p : Port) : (portPumpGo n p).st = p.st := by
  induction n generalizing p with
  | zero => rfl
  | succ n ih =>
    unfold portPumpGo
    split
    · rw [ih, flitNow_st]
    · rfl

@[simp] theorem sendFlits_trayView (k : Nat) (fs : List Flit) (s : State) : trayView (sendFlits k fs s) = trayView s :=
  setPort_trayView k (fun p => portPumpGo_st _ { p with queue := p.queue ++ fs }) s

@[simp] theorem passAcc_trayView (a : Nat) (rsp : Bool) (m : Msg) (s : State) : trayView (passAcc a rsp m s) = trayView s := by
  simp [passAcc]

@[simp] theorem sendAcc_trayView (a : Nat) (rsp : Bool) (m : Msg) (s : State) : trayView (sendAcc a rsp m s) = trayView s := by
  simp [sendAcc]

theorem sendNode_trayView {rsp : Bool} {m : Msg} {s t : State} (h : sendNode rsp m s = some t) : trayView t = trayView s := by
  unfold sendNode at h
  split at h
  · cases h
  · split at h
    · cases h
    · cases h
      exact sendFlits_trayView _ _ s

@[simp] theorem sendNodeOrCount_trayView (rsp : Bool) (m : Msg) (s : State) :
    trayView (sendNodeOrCount rsp m s) = trayView s := by
  unfold sendNodeOrCount
  split
  · next t h => exact sendNode_trayView h
  · exact bump_trayView (by decide) s

/-! Long orders that end -/

@[simp] theorem setMb_trayView (n : Nat) (f : Mailbox → Mailbox) (s : State) : trayView (setMb n f s) = trayView s := rfl

@[simp] theorem mbIdle_trayView (n : Nat) (s : State) : trayView (mbIdle n s) = trayView s := by
  unfold mbIdle
  dsimp only
  split <;> rfl

/-- No mailbox has its MB_DONE where ROUTE_CTRL stands. -/
theorem mbDone_ne_routeCtrl (n : Nat) : R.MB_DONE n ≠ R.ROUTE_CTRL := by
  unfold R.MB_DONE R.ROUTE_CTRL
  omega

@[simp] theorem writeReply_trayView (n : Nat) (bytes : Bytes) (s : State) : trayView (writeReply n bytes s) = trayView s := by
  simp [writeReply, bump_trayView (mbDone_ne_routeCtrl n)]

@[simp] theorem endLong_trayView (l : Long) (st : Nat) (payload : Bytes) (s : State) :
    trayView (endLong l st payload s) = trayView s := by
  simp [endLong, reply]

@[simp] theorem finishLong_trayView (k : LongKind) (st : Nat) (payload : Bytes) (s : State) :
    trayView (finishLong k st payload s) = trayView s := by
  simp [finishLong, finishLongs]

/-! Accesses that fail, and answers to whoever asked -/

@[simp] theorem captureErr_trayView (bit a : Nat) (s : State) : trayView (captureErr bit a s) = trayView s := by
  simp [captureErr, setBits_trayView, wr_trayView]

@[simp] theorem absentError_trayView (a : Nat) (s : State) : trayView (absentError a s) = trayView s := captureErr_trayView 0 a s

@[simp] theorem absentWrite_trayView (m a : Nat) (s : State) : trayView (absentWrite m a s) = trayView s := by
  simp [absentWrite]

@[simp] theorem respond_trayView (k : Nat) (m : Msg) (s : State) : trayView (respond k m s) = trayView s := by
  simp [respond]

@[simp] theorem answerErr_trayView (o : Owner) (status : Nat) (s : State) : trayView (answerErr o status s) = trayView s := by
  unfold answerErr
  split
  · exact respond_trayView _ _ s
  · simp [hostErr]
  · rfl

/-! Remote accesses -/

@[simp] theorem remoteAbsent_trayView (r : Remote) (status : Nat) (s : State) :
    trayView (remoteAbsent r status s) = trayView s := by
  simp [remoteAbsent]

@[simp] theorem issueNow_trayView (q : Remote) (s : State) : trayView (issueNow q s) = trayView s := by
  unfold issueNow
  dsimp only
  split
  · simp
  · split
    · next t h => exact (sendNode_trayView h).trans rfl
    · simp [bump_trayView]

@[simp] theorem issueRemote_trayView (port : Nat) (write : Bool) (dst win addr len : Nat) (data : Bytes) (o : Owner) (s : State) :
    trayView (issueRemote port write dst win addr len data o s) = trayView s := by
  simp [issueRemote]

/-! Requests towards the host, and the host-line cache -/

@[simp] theorem hostReqAbsent_trayView (r : HostReq) (s : State) : trayView (hostReqAbsent r s) = trayView s := by
  unfold hostReqAbsent
  split
  · exact answerErr_trayView _ _ s
  · split
    · rfl
    · simp
    · rfl

@[simp] theorem sendRequest_trayView (q : HostReq) (s : State) : trayView (sendRequest q s) = trayView s := by
  simp [sendRequest, bump_trayView]

@[simp] theorem hostRequest_trayView (op addr len : Nat) (data : Bytes) (o : Owner) (s : State) :
    trayView (hostRequest op addr len data o s) = trayView s := by
  simp [hostRequest]

@[simp] theorem setLine_trayView (l : Nat) (v : Option Line) (s : State) : trayView (setLine l v s) = trayView s := rfl

@[simp] theorem dropLine_trayView (l : Nat) (s : State) : trayView (dropLine l s) = trayView s := by
  simp [dropLine]

@[simp] theorem hlcPending_trayView (l : Nat) (s : State) : trayView (hlcPending l s) = trayView s := by
  unfold hlcPending
  split
  · rfl
  · extract_lets s1
    have hs1 : trayView s1 = trayView s := by
      unfold s1
      split
      · rfl
      · split
        · exact dropLine_trayView _ s
        · rfl
    split
    · exact hs1
    · exact hs1

@[simp] theorem hlcTouch_trayView (l : Nat) (s : State) : trayView (hlcTouch l s) = trayView s := by
  unfold hlcTouch
  split <;> rfl

@[simp] theorem readLines_trayView (l n k : Nat) (o : Nat → Owner) (s : State) : trayView (readLines l n k o s) = trayView s := by
  induction k generalizing l n s with
  | zero => rfl
  | succ k ih =>
    unfold readLines
    split
    · rfl
    · rw [ih, hostRequest_trayView]

@[simp] theorem hostRead_trayView (off len : Nat) (o : Nat → Owner) (s : State) : trayView (hostRead off len o s).1 = trayView s := by
  unfold hostRead
  split
  · dsimp only
    split <;> simp [bumpBy_trayView]
  · simp

/-! The firewall and tray DRAM -/

@[simp] theorem violate_trayView (m a n : Nat) (write : Bool) (s : State) : trayView (violate m a n write s) = trayView s := by
  simp [violate, bump_trayView, setBits_trayView, wr_trayView]

@[simp] theorem dramPut_trayView (a : Nat) (bs : Bytes) (s : State) : trayView (dramPut a bs s) = trayView s := rfl

/-- No stack has a lane register where ROUTE_CTRL stands. -/
theorem laneSuspect_ne_routeCtrl (q j : Nat) : (if j < 32 then R.LANE_SUSPECT_LO q else R.LANE_SUSPECT_HI q) ≠ R.ROUTE_CTRL := by
  unfold R.LANE_SUSPECT_LO R.LANE_SUSPECT_HI R.ROUTE_CTRL
  split <;> omega

/-- Nor the counters of its words. -/
theorem memCnt_ne_routeCtrl (q : Nat) : R.MEM_CNT_CE q ≠ R.ROUTE_CTRL ∧ R.MEM_CNT_UE q ≠ R.ROUTE_CTRL := by
  unfold R.MEM_CNT_CE R.MEM_CNT_UE R.ROUTE_CTRL
  omega

@[simp] theorem setStack_trayView (q : Nat) (f : Stack → Stack) (s : State) : trayView (setStack q f s) = trayView s := rfl

@[simp] theorem countLane_trayView (q j : Nat) (s : State) : trayView (countLane q j s) = trayView s := by
  simp [countLane, setBits_trayView (laneSuspect_ne_routeCtrl q j)]

@[simp] theorem wordCorrected_trayView (a : Nat) (w : Bytes) (bytes : List Nat) (s : State) :
    trayView (wordCorrected a w bytes s) = trayView s := by
  simp [wordCorrected, bump_trayView (memCnt_ne_routeCtrl _).1]

/-- The log has 16 entries of four words. -/
theorem ueLog_ne_routeCtrl {i k : Nat} (hi : i < 16) (hk : k < 4) : R.UE_LOG i k ≠ R.ROUTE_CTRL := by
  unfold R.UE_LOG R.ROUTE_CTRL
  omega

@[simp] theorem wordLost_trayView (a reader : Nat) (w : Bytes) (s : State) : trayView (wordLost a reader w s) = trayView s := by
  have hlog (i : Nat) (v : Nat → W32) (t : State) :
      trayView ((List.range 4).foldl (fun t k => wr (R.UE_LOG (i % 16) k) (v k) t) t) = trayView t :=
    trayView_foldl_mem _ _ (fun t k hk =>
      wr_trayView (ueLog_ne_routeCtrl (Nat.mod_lt i (by decide)) (List.mem_range.mp hk)) (v k) t) t
  unfold wordLost
  dsimp only
  rw [raise_trayView, bump_trayView (memCnt_ne_routeCtrl _).2, bump_trayView (by decide), hlog]
  rfl

@[simp] theorem readWord_trayView (a reader : Nat) (e1 e2 : Bytes) (s : State) :
    trayView (readWord a reader e1 e2 s).1 = trayView s := by
  unfold readWord
  dsimp only
  split
  · rfl
  · exact wordCorrected_trayView _ _ _ s
  · split
    · exact wordCorrected_trayView _ _ _ s
    · exact wordCorrected_trayView _ _ _ s
    · exact wordLost_trayView _ _ _ s

@[simp] theorem dramLoad_trayView (reader a n : Nat) (s : State) : trayView (dramLoad reader a n s).1 = trayView s := by
  have hfold (ws : List Nat) (x : State × List Nat) :
      trayView (ws.foldl (fun (x : State × List Nat) w =>
        let y := readWord w reader [] [] x.1
        (y.1, if y.2 then x.2 ++ [w] else x.2)) x).1 = trayView x.1 := by
    induction ws generalizing x with
    | nil => rfl
    | cons w t ih => rw [List.foldl_cons, ih, readWord_trayView]
  exact hfold _ (s, [])

/-! The Press -/

/-- A cluster on which neither state nor suspension changes. -/
theorem setCl_trayView (c : Nat) {f : Cluster → Cluster} (h : ∀ k, (f k).st = k.st ∧ (f k).susp = k.susp) (s : State) :
    trayView (setCl c f s) = trayView s := by
  have hget (d : Nat) : (SMap.get {} (setCl c f s).press.clusters d).st = (SMap.get {} s.press.clusters d).st ∧
      (SMap.get {} (setCl c f s).press.clusters d).susp = (SMap.get {} s.press.clusters d).susp := by
    rw [setCl, SMap.upd, SMap.get_set]
    split
    · next e => rw [e]; exact h _
    · exact ⟨rfl, rfl⟩
  unfold trayView
  simp only [hget]
  rfl

@[simp] theorem extWrite_trayView (c a : Nat) (bs : Bytes) (s : State) : trayView (extWrite c a bs s) = trayView s := rfl

@[simp] theorem localAbsent_trayView (c m a n : Nat) (write : Bool) (bs : Bytes) (s : State) :
    trayView (localAbsent c m a n write bs s) = trayView s := by
  simp [localAbsent]

@[simp] theorem pressReadPiece_trayView (c m a n : Nat) (s : State) : trayView (pressReadPiece c m a n s) = trayView s := by
  unfold pressReadPiece
  split
  · exact violate_trayView _ _ _ _ s
  split
  · exact localAbsent_trayView _ _ _ _ _ _ s
  split
  case h_1 off _ =>
    have hread := hostRead_trayView off n (fun o => .press c (hostBase + o)) s
    split
    · next t bs e =>
      rw [e] at hread
      exact (extWrite_trayView c a bs t).trans hread
    · next t e =>
      rw [e] at hread
      exact hread
  case h_2 => exact issueRemote_trayView _ _ _ _ _ _ _ _ s
  case h_3 => exact issueRemote_trayView _ _ _ _ _ _ _ _ s
  case h_4 =>
    split
    · exact hostRequest_trayView _ _ _ _ _ s
    · extract_lets r
      have hr : trayView r.1 = trayView s := dramLoad_trayView _ _ _ s
      split
      · exact hr
      · refine (setCl_trayView _ ?_ _).trans hr
        exact fun _ => ⟨rfl, rfl⟩
  case h_5 => rfl

@[simp] theorem pumpReads_trayView (rs : List IronRead) (s : State) : trayView (pumpReads rs s) = trayView s := by
  induction rs generalizing s with
  | nil => rfl
  | cons r t ih =>
    unfold pumpReads
    split
    · rw [ih, pressReadPiece_trayView]
      rfl
    · exact ih s

@[simp] theorem drainLanes_trayView (s : State) : trayView (drainLanes s) = trayView s := rfl

@[simp] theorem stallNow_trayView (s : State) : trayView (stallNow s) = trayView s := by
  refine trayView_foldl _ (fun t e => ?_) _ s
  dsimp only
  split
  · rfl
  · refine setCl_trayView _ ?_ t
    exact fun _ => ⟨rfl, rfl⟩

@[simp] theorem settlePress_trayView (s : State) : trayView (settlePress s) = trayView s := by
  simp [settlePress]

/-! The meter, tray time, the host-line cache -/

@[simp] theorem storeTicket_trayView (o : OpenReq) (why : CloseWhy) (s : State) : trayView (storeTicket o why s) = trayView s := by
  simp [storeTicket, openBatch, closeBatch]

@[simp] theorem closeReq_trayView (id : Nat) (why : CloseWhy) (s : State) : trayView (closeReq id why s) = trayView s := by
  unfold closeReq
  split
  · rfl
  · simp

@[simp] theorem shutAll_trayView (s : State) : trayView (shutAll s) = trayView s := by
  simp [shutAll]

@[simp] theorem shutAcc_trayView (a : Nat) (s : State) : trayView (shutAcc a s) = trayView s := by
  simp [shutAcc, mapOpens]

@[simp] theorem settleMeter_trayView (s : State) : trayView (settleMeter s) = trayView s := by
  simp [settleMeter]

@[simp] theorem settleTime_trayView (s : State) : trayView (settleTime s) = trayView s := by
  simp [settleTime, beginHoldover]

@[simp] theorem settleHlc_trayView (s : State) : trayView (settleHlc s) = trayView s := by
  simp [settleHlc, setHlcActive]

/-! The tray -/

theorem rd_eq_get (s : State) (off : Nat) : rd s off = SMap.get (regReset off) s.regs off := by
  rw [SMap.get_find, rd]
  cases SMap.find s.regs off <;> rfl

/-- The degrade causes are read from these values and from what no settling touches. -/
theorem degradeCause_congr {s t : State} (hc : trayView t = trayView s) (hs : still t = still s) :
    degradeCause t = degradeCause s := by
  have hboot : t.chip.boot = s.chip.boot := congrArg TrayView.boot hc
  have hport (k : Nat) : (port t k).st = (port s k).st := congrFun (congrArg TrayView.portSt hc) k
  have hcl (c : Nat) : (cluster t c).st = (cluster s c).st := congrFun (congrArg TrayView.clusterSt hc) c
  have hsusp (c : Nat) : (cluster t c).susp = (cluster s c).susp := congrFun (congrArg TrayView.clusterSusp hc) c
  have hroute : rdBit t R.ROUTE_CTRL 0 = rdBit s R.ROUTE_CTRL 0 := by
    rw [rdBit, rdBit, rd_eq_get, rd_eq_get]
    exact congrArg (bitAt · 0) (congrArg TrayView.route hc)
  have hdies : t.mem.dies = s.mem.dies := congrArg TrayView.dies hc
  have hself : t.assure.selfTag = s.assure.selfTag := congrArg TrayView.selfTag hc
  have hrails : t.st.rails = s.st.rails := congrArg TrayView.rails hc
  have hheat : t.heat = s.heat := congrArg Still.heat hs
  have hacc (a : Nat) : accB t a = accB s a := congrArg (fun x => x.budget.accs.get {} a) hs
  have haccDown : accDown t = accDown s := by
    funext a
    simp only [accDown, portTrained, portBitsAct, hboot, hport, hacc]
  have hclusterSusp : clusterSusp t = clusterSusp s := by
    funext c
    simp only [clusterSusp, hcl, hsusp]
  have hseamDown : seamDown t = seamDown s := by
    funext k
    simp only [seamDown, portBitsAct, hboot, hport, hroute]
  simp only [degradeCause, leakRelaxed, anyBroken, railFault, haccDown, hclusterSusp, hseamDown, hdies, hself, hrails, hheat]

theorem setTray_trayView (x : Tray) (s : State) : trayView (setTray x s) = { trayView s with tray := x } := by
  simp only [setTray, notice_trayView, raise_trayView]
  rfl

@[simp] theorem setTray_tray (x : Tray) (s : State) : (setTray x s).chip.tray = x :=
  congrArg TrayView.tray (setTray_trayView x s)

/-- A change of the tray state leaves the degrade causes as they are. -/
@[simp] theorem degradeCause_setTray (x : Tray) (s : State) : degradeCause (setTray x s) = degradeCause s :=
  degradeCause_congr (s := { s with chip.tray := x }) (setTray_trayView x s) (setTray_stays x s)

/-- READY stands only without a degrade cause, and DEGRADED only with one (R20). -/
def TrayMatches (s : State) : Prop :=
  (s.chip.tray = .ready → degradeCause s = 0) ∧ (s.chip.tray = .degraded → degradeCause s ≠ 0)

theorem TrayMatches.congr {s t : State} (h : TrayMatches s) (hc : trayView t = trayView s) (hs : still t = still s) :
    TrayMatches t := by
  have htray : t.chip.tray = s.chip.tray := congrArg TrayView.tray hc
  unfold TrayMatches
  rw [htray, degradeCause_congr hc hs]
  exact h

theorem settleTray_matches (s : State) : TrayMatches (settleTray s) := by
  by_cases hcause : degradeCause s = 0
  · by_cases htray : s.chip.tray = .degraded
    · simp [settleTray, TrayMatches, hcause, htray]
    · simp [settleTray, TrayMatches, hcause, htray]
  · by_cases htray : s.chip.tray = .ready
    · simp [settleTray, TrayMatches, hcause, htray]
    · simp [settleTray, TrayMatches, hcause, htray]

/-- The move between READY and DEGRADED makes the two agree, and what follows it leaves both alone. -/
theorem settled_matches (s : State) : TrayMatches (settled s) := by
  have hrest (u : State) : TrayMatches (settlePress (settleHlc (settleMeter (settleTime (settleTray u))))) :=
    (settleTray_matches u).congr (by simp) (by simp)
  exact hrest _


/-- Every command's outcome is the settling of an effect. -/
theorem exec_eq_done (c : Instr) (s : State) : ∃ u, exec c s = done u := by
  cases c <;> exact ⟨_, rfl⟩

/-- Settles O26: every command has the model's one form, the settling of an effect. -/
theorem everyCommandAnswersANextState : Obligations.EveryCommandAnswersANextState := by
  unfold Obligations.EveryCommandAnswersANextState
  exact exec_eq_done

theorem matches_of_exec {c : Instr} {s t : State} (h : exec c s = .next t) : TrayMatches t := by
  obtain ⟨u, hu⟩ := exec_eq_done c s
  rw [hu, done] at h
  injection h with h
  rw [← h]
  exact settled_matches u

/-- DEGRADED ends at once with its last cause (R20). -/
theorem settleTray_of_degraded {s : State} (htray : s.chip.tray = .degraded) (hcause : degradeCause s = 0) :
    settleTray s = setTray .ready s := by
  simp [settleTray, htray, hcause]

theorem shownWord_degradeCause (s : State) : shownWord s R.DEGRADE_CAUSE = BitVec.ofNat 32 (degradeCause s) := rfl

/-- Settles O31: the move between READY and DEGRADED comes late in the settling, and nothing after it changes the tray
state or a degrade cause. -/
theorem degradedExactlyWhileACauseIsSet : Obligations.DegradedExactlyWhileACauseIsSet := by
  unfold Obligations.DegradedExactlyWhileACauseIsSet
  exact ⟨fun _ _ _ h => matches_of_exec h, fun _ => settleTray_of_degraded, shownWord_degradeCause⟩

end Sys2Proof.Machine

end TrayViews

/-! Tray memory reads back (R27, R209, R211). -/

section TrayMemory

namespace Sys2Proof.Machine

theorem SMap.get_keep {α : Type} (d : α) (m : SMap α) (p : Nat → Bool) (k : Nat) :
    SMap.get d (SMap.keep m p) k = if p k then SMap.get d m k else d := by
  induction m with
  | nil => simp [SMap.keep, SMap.get]
  | cons e t ih =>
    obtain ⟨k', v⟩ := e
    unfold SMap.keep at ih ⊢
    by_cases hp : p k'
    · rw [List.filter_cons_of_pos (by exact hp), SMap.get, SMap.get, ih]
      by_cases hk : k' = k
      · rw [if_pos hk, if_pos hk, if_pos (hk ▸ hp)]
      · rw [if_neg hk, if_neg hk]
    · rw [List.filter_cons_of_neg (by exact hp), ih, SMap.get]
      by_cases hk : k' = k
      · rw [if_neg (hk ▸ hp), if_neg (hk ▸ hp)]
      · rw [if_neg hk]

/-- The bytes put there read back. -/
theorem dramRead_dramPut (a : Nat) (bs : Bytes) (s : State) : dramRead (dramPut a bs s) a bs.length = bs := by
  refine List.ext_getElem (dramRead_length _ _ _) (fun i _ hi => ?_)
  simp [dramRead, hi]

/-- A byte outside the range is left as it was. -/
theorem dramByte_dramPut_of_outside {a x : Nat} {bs : Bytes} (h : x < a ∨ a + bs.length ≤ x) (s : State) :
    dramByte (dramPut a bs s) x = dramByte s x := by
  rw [dramByte_dramPut, if_neg (by omega)]

/-- A word that the range does not touch keeps its errors. -/
theorem errs_dramPut_of_outside {a w : Nat} {bs : Bytes} (h : w + 32 ≤ a ∨ a + bs.length ≤ w) (s : State) :
    (dramPut a bs s).mem.errs.get [] w = s.mem.errs.get [] w := by
  have hfar : ¬ (w < a + bs.length ∧ a < w + 32) := by omega
  simp [dramPut, SMap.get_keep, hfar]

/-- Where no word holds an error a write is the putting of its bytes (R202). -/
theorem dramWrite_of_no_errs {s : State} (h : s.mem.errs = []) (a : Nat) (bs : Bytes) :
    dramWrite a bs s = dramPut a bs s := by
  rw [dramWrite, h]
  rfl

/-- Settles O44, from the read after a write of the sparse map and its canonical form. -/
theorem trayMemoryReadsBack : Obligations.TrayMemoryReadsBack := by
  unfold Obligations.TrayMemoryReadsBack
  refine ⟨dramRead_dramPut, ?outside, ?canonical, fun _ _ _ => rfl, ?errors, ?noErrors, rfl⟩
  case outside => exact fun _ _ s _ h => dramByte_dramPut_of_outside h s
  case canonical => exact fun a bs _ h => writeMap_wf h a bs
  case errors => exact fun _ _ s _ h => errs_dramPut_of_outside h s
  case noErrors => exact fun a bs _ h => dramWrite_of_no_errs h a bs

end Sys2Proof.Machine

end TrayMemory

/-! The first failing address (R33). -/

section ErrorAddress

namespace Sys2Proof.Machine

/-- The two low bits of a word as its field [1:0]. -/
theorem fld_one_zero_eq_zero_iff (w : W32) : fld w 1 0 = 0 ↔ bitAt w 0 = false ∧ bitAt w 1 = false := by
  have hbit (n : Nat) : bitAt w n = decide (w.toNat / 2 ^ n % 2 = 1) := Nat.testBit_eq_decide_div_mod_eq
  have hfld : fld w 1 0 = w.toNat % 4 := rfl
  rw [hfld, hbit, hbit, decide_eq_false_iff_not, decide_eq_false_iff_not]
  omega

/-- A bit that a mask of one bit names is set. -/
theorem rdBit_setBits_same (off : Nat) {n : Nat} (h : n < 32) (s : State) : rdBit (setBits off (2 ^ n) s) off n = true := by
  rw [rdBit, setBits, rd_wr_same, bitAt, BitVec.getLsbD_or, BitVec.getLsbD_ofNat, Nat.testBit_two_pow_self]
  simp [h]

theorem rd_setBits_other {off o : Nat} (h : o ≠ off) (m : Nat) (s : State) : rd (setBits off m s) o = rd s o :=
  rd_wr_other h _ s

/-- While both bits are zero the address is stored. -/
theorem captureErr_stores {bit : Nat} {s : State} (h : rdBit s R.ERR_STATUS 0 = false ∧ rdBit s R.ERR_STATUS 1 = false)
    (a : Nat) : rd (captureErr bit a s) R.ERR_ADDR_LO = BitVec.ofNat 32 a ∧
      rd (captureErr bit a s) R.ERR_ADDR_HI = BitVec.ofNat 32 (a / 2 ^ 32 % 65536) := by
  have hclear : rdFld s R.ERR_STATUS 1 0 = 0 := (fld_one_zero_eq_zero_iff _).mpr h
  rw [captureErr, if_pos hclear]
  rw [rd_setBits_other (by decide), rd_setBits_other (by decide), rd_wr_other (by decide), rd_wr_same, rd_wr_same]
  exact ⟨rfl, rfl⟩

/-- While either bit is one the address stands. -/
theorem captureErr_keeps {bit : Nat} {s : State} (h : rdBit s R.ERR_STATUS 0 = true ∨ rdBit s R.ERR_STATUS 1 = true)
    (a : Nat) : rd (captureErr bit a s) R.ERR_ADDR_LO = rd s R.ERR_ADDR_LO ∧
      rd (captureErr bit a s) R.ERR_ADDR_HI = rd s R.ERR_ADDR_HI := by
  have hset : ¬ rdFld s R.ERR_STATUS 1 0 = 0 := by
    rw [rdFld, fld_one_zero_eq_zero_iff]
    rintro ⟨h0, h1⟩
    rcases h with h | h
    · exact Bool.false_ne_true (h0.symm.trans h)
    · exact Bool.false_ne_true (h1.symm.trans h)
  rw [captureErr, if_neg hset]
  exact ⟨rd_setBits_other (by decide) _ s, rd_setBits_other (by decide) _ s⟩

/-- Settles O36: the capture asks for the field of the two bits before it stores. -/
theorem errorAddressIsTheFirst : Obligations.ErrorAddressIsTheFirst := by
  unfold Obligations.ErrorAddressIsTheFirst
  intro a s
  refine ⟨rdBit_setBits_same _ (by decide) _, rdBit_setBits_same _ (by decide) _, fun h => ?_, fun h => ?_⟩
  · obtain ⟨hlo, hhi⟩ := captureErr_stores (bit := 1) h a
    obtain ⟨glo, ghi⟩ := captureErr_stores (bit := 0) h a
    exact ⟨hlo, hhi, glo, ghi⟩
  · obtain ⟨hlo, hhi⟩ := captureErr_keeps (bit := 1) h a
    obtain ⟨glo, ghi⟩ := captureErr_keeps (bit := 0) h a
    exact ⟨hlo, hhi, glo, ghi⟩

end Sys2Proof.Machine

end ErrorAddress

/-! The frame of the settling, and the reset state (R19, R453). -/

section Settling

namespace Sys2Proof.Machine

@[simp] theorem settled_stays (s : State) : still (settled s) = still s := by
  simp [settled]

/-- Settles O32, from the two frames of the settling. -/
theorem settlingLeavesAlone : Obligations.SettlingLeavesAlone := by
  unfold Obligations.SettlingLeavesAlone
  intro s
  have hl := settled_lasts s
  have hs := settled_stays s
  exact ⟨congrArg Lasting.pending hl, congrArg Lasting.optime hl, congrArg Lasting.svnFloor hl, congrArg Lasting.vcoreEff hl,
    congrArg Lasting.iclkEff hl, congrArg Lasting.tjEff hl, congrArg Still.sec hs, congrArg Still.cfg hs,
    congrArg Still.flash hs, congrArg Still.time hs, congrArg Still.heat hs, congrArg Still.budget hs⟩

/-- Nothing follows from the reset state. -/
theorem settled_reset : settled State.reset = State.reset := by
  decide +kernel

/-- Settles O27, by the values of the reset state. -/
theorem resetStands : Obligations.ResetStands := by
  unfold Obligations.ResetStands
  refine ⟨rfl, rfl, rfl, ⟨Nat.le_refl _, Nat.le_refl _, Nat.le_refl _⟩, rfl, rfl, rfl, rfl, settled_reset, ?mailboxes,
    fun _ => rfl, fun _ => rfl⟩
  case mailboxes => exact fun _ => ⟨rfl, rfl, rfl⟩

end Sys2Proof.Machine

end Settling

/-! An AON trip forgets the on order (R22). -/

section AonTrip

namespace Sys2Proof.Machine

/-! What an AON trip does leaves the on order as the trip has set it -/

theorem onHeld_eq (s : State) : s.chip.onHeld = (trayView s).onHeld := rfl

@[simp] theorem onHeld_ite {c : Prop} [Decidable c] (a b : TrayView) :
    (if c then a else b).onHeld = if c then a.onHeld else b.onHeld := by
  split <;> rfl

@[simp] theorem onHeld_foldl {α : Type} (f : State → α → State) (h : ∀ s x, (trayView (f s x)).onHeld = (trayView s).onHeld)
    (xs : List α) (s : State) : (trayView (xs.foldl f s)).onHeld = (trayView s).onHeld := by
  induction xs generalizing s with
  | nil => rfl
  | cons x t ih => rw [List.foldl_cons, ih, h]

-- The proofs below are `(rfl)` and not `rfl`: simp then cites them as equations, and nobody has to unfold what stands
-- around the operation to see that they hold.
@[simp] theorem wr_onHeld (off : Nat) (v : W32) (s : State) : (trayView (wr off v s)).onHeld = (trayView s).onHeld := (rfl)
@[simp] theorem setPort_onHeld (k : Nat) (f : Port → Port) (s : State) :
    (trayView (setPort k f s)).onHeld = (trayView s).onHeld := (rfl)
@[simp] theorem setCl_onHeld (c : Nat) (f : Cluster → Cluster) (s : State) :
    (trayView (setCl c f s)).onHeld = (trayView s).onHeld := (rfl)
@[simp] theorem dropRegs_onHeld (p : Nat → Bool) (s : State) : (trayView (dropRegs p s)).onHeld = (trayView s).onHeld := (rfl)

/-! Ports that go down -/

@[simp] theorem unreachable_trayView (dst tag : Nat) (s : State) : trayView (unreachable dst tag s) = trayView s := by
  simp [unreachable, bump_trayView]

@[simp] theorem fwdFails_trayView (tag : Nat) (s : State) : trayView (fwdFails tag s) = trayView s := by
  unfold fwdFails
  split
  · simp [hostErr]
  · rfl

@[simp] theorem ownFails_trayView (cls tag : Nat) (s : State) : trayView (ownFails cls tag s) = trayView s := by
  simp [ownFails]

@[simp] theorem loseMessage_trayView (k : Nat) (f : Flit) (s : State) : trayView (loseMessage k f s) = trayView s := by
  unfold loseMessage
  split
  case isTrue =>
    split
    · exact unreachable_trayView _ _ s
    split
    · split
      · simp [bump_trayView]
      · rfl
    · simp [bump_trayView]
  case isFalse => simp [bump_trayView]

@[simp] theorem loseRemotes_trayView (k : Nat) (s : State) : trayView (loseRemotes k s) = trayView s := by
  simp [loseRemotes]

@[simp] theorem halfReceived_trayView (k : Nat) (p : Port) (s : State) : trayView (halfReceived k p s) = trayView s := by
  simp [halfReceived]

@[simp] theorem lanesLost_onHeld (k : Nat) (s : State) : (trayView (lanesLost k s)).onHeld = (trayView s).onHeld := by
  unfold lanesLost
  exact onHeld_foldl _ (fun _ _ => wr_onHeld _ _ _) _ s

@[simp] theorem portLose_onHeld (k : Nat) (s : State) : (trayView (portLose k s)).onHeld = (trayView s).onHeld := by
  simp [portLose]

@[simp] theorem ownLink_trayView (k : Nat) (up : Bool) (s : State) : trayView (ownLink k up s) = trayView s := by
  simp [ownLink, flood, sendCtrl, setLink, bump_trayView]

@[simp] theorem portPowerDown_onHeld (k : Nat) (s : State) : (trayView (portPowerDown k s)).onHeld = (trayView s).onHeld := by
  simp [portPowerDown, portGo, seamFails, onHeld_eq]

/-! The VCORE islands -/

@[simp] theorem setIron_trayView (g : Nat) (f : Iron → Iron) (s : State) : trayView (setIron g f s) = trayView s := by
  simp [setIron]

@[simp] theorem setIrons_trayView (c : Nat) (f : Iron → Iron) (s : State) : trayView (setIrons c f s) = trayView s := by
  simp [setIrons]

@[simp] theorem extDrop_trayView (c : Nat) (s : State) : trayView (extDrop c s) = trayView s := by
  simp [extDrop]

@[simp] theorem disown_trayView (c : Nat) (s : State) : trayView (disown c s) = trayView s := by
  simp [disown]

@[simp] theorem releaseCluster_onHeld (c : Nat) (s : State) : (trayView (releaseCluster c s)).onHeld = (trayView s).onHeld := by
  simp [releaseCluster]

@[simp] theorem requeuePlan_onHeld (id : Nat) (s : State) : (trayView (requeuePlan id s)).onHeld = (trayView s).onHeld := by
  have hunload : (trayView (unloadPlan id s)).onHeld = (trayView s).onHeld := by
    unfold unloadPlan
    split
    · rfl
    · simp [setPlan, onHeld_eq]
  simp [requeuePlan, setPlan, hunload]

@[simp] theorem clusterPower_onHeld (c : Nat) (on : Bool) (s : State) :
    (trayView (clusterPower c on s)).onHeld = (trayView s).onHeld := by
  simp [clusterPower, finishLongs, onHeld_eq]

@[simp] theorem memPowerDown_onHeld (s : State) : (trayView (memPowerDown s)).onHeld = (trayView s).onHeld := by
  simp [memPowerDown, onHeld_eq]

@[simp] theorem tripIslands_onHeld (s : State) : (trayView (tripIslands s)).onHeld = (trayView s).onHeld := by
  simp [tripIslands, coreIslandsOff, pressLost, onHeld_eq]

/-! The sequences, the attempt under probation, the cooling outputs -/

@[simp] theorem setStrand_trayView (n : Nat) (f : Strand → Strand) (s : State) : trayView (setStrand n f s) = trayView s := by
  simp [setStrand]

@[simp] theorem haltSequences_trayView (s : State) : trayView (haltSequences s) = trayView s := by
  have hstop : trayView (stopStrands s) = trayView s := by
    unfold stopStrands
    refine trayView_foldl _ (fun t n => ?_) _ s
    simp
  rw [← hstop]
  simp only [haltSequences, trayView_mk, trayView_fold]

@[simp] theorem cutShort_trayView (s : State) : trayView (cutShort s) = trayView s := by
  simp only [cutShort, trayView_mk, trayView_fold]
  refine trayView_foldl _ (fun t n => ?_) _ s
  simp

@[simp] theorem judgeAttempt_trayView (pass : Bool) (s : State) : trayView (judgeAttempt pass s) = trayView s := by
  simp [judgeAttempt, setSlotPassed]

@[simp] theorem setTray_onHeld (x : Tray) (s : State) : (trayView (setTray x s)).onHeld = (trayView s).onHeld := by
  rw [setTray_trayView]

@[simp] theorem setOutputs_onHeld (s : State) : (trayView (setOutputs s)).onHeld = (trayView s).onHeld := by
  unfold setOutputs
  exact onHeld_foldl _ (fun _ _ => wr_onHeld _ _ _) _ s

/-- An AON trip that is taken leaves no on order held. -/
theorem aonTrip_onHeld {s : State} (htray : s.chip.tray ≠ .off) (hphase : s.st.phase ≠ 4) (z : Nat) :
    (aonTrip z s).chip.onHeld = false := by
  rw [onHeld_eq, aonTrip, if_neg (by simp [htray, hphase])]
  simp [setBits_trayView, onHeld_eq]

/-- SEQUENCING-UP waits for an on order and for RACK_PERMIT (R21, R347). -/
theorem upMayStart_eq_false {s : State} (h : s.chip.onHeld = false ∨ s.chip.permit = false) : upMayStart s = false := by
  rcases h with h | h
  · simp [upMayStart, h]
  · simp [upMayStart, permitted, permitHigh, h]

/-- Settles O48: the trip clears the on order and nothing that it does sets it again, and SEQUENCING_UP_START does not
fit without one, or with RACK_PERMIT low. -/
theorem anAonTripForgetsTheOnOrder : Obligations.AnAonTripForgetsTheOnOrder := by
  unfold Obligations.AnAonTripForgetsTheOnOrder
  refine ⟨fun z _ htray hphase => aonTrip_onHeld htray hphase z, fun s h => ?_⟩
  change done (if upMayStart s = true then _ else s) = _
  rw [upMayStart_eq_false h]
  rfl

end Sys2Proof.Machine

end AonTrip

/-! The events of start-up, supplies, clocks, hard lines and islands (01, 11, 16). -/

section EventCompletions

namespace Sys2Proof.Machine

/-- A command of the model's one form, in a state that its event fits, answers the settling of its effect. -/
theorem done_of_fits {p : Prop} [Decidable p] (h : p) {a b s : State} (hab : a = b) :
    done (if p then a else s) = .next (settled b) := by
  rw [if_pos h, hab, done]

/-! Reset and start-up -/

/-- While the xSPI lands are held the board programs nothing (R434, R437). -/
theorem fxSysrstLow_of_held {s : State} (h : xspiReleased s = false) (b : List (Nat × Bytes)) :
    fxSysrstLow b s = coldReset { s with chip.sysrstLow := true } := by
  rw [fxSysrstLow, h]
  rfl

theorem fxSysrstLow_of_released {s : State} (h : xspiReleased s = true) (b : List (Nat × Bytes)) :
    fxSysrstLow b s = coldReset { program b s with chip.sysrstLow := true } := by
  rw [fxSysrstLow, h]
  rfl

/-- SYSRST_N rises while VAON stands: the AON island starts. -/
theorem fxSysrstRelease_of_vaonOk {s : State} (h : s.chip.vaonOk = true) (t : Nat) (a : Bool) :
    fxSysrstRelease t a s = aonStarts t a { s with chip.sysrstLow := false } := by
  rw [fxSysrstRelease, if_pos h]

/-- VAON returns while SYSRST_N is high: the AON island starts. -/
theorem fxVaonRestored_of_released {s : State} (h : s.chip.sysrstLow = false) (t : Nat) (a : Bool) :
    fxVaonRestored t a s = aonStarts t a
      { s with chip.vaonOk := true, aon.powerCycles := (s.aon.powerCycles + 1) % 2 ^ 32, assure.seedHeld := none } := by
  rw [fxVaonRestored, if_neg (by rw [h]; exact Bool.false_ne_true)]

/-- PFAIL mode ends where the pin is high and VSTBY stands (R308). -/
theorem pfailReleased_of_high {s : State} (h : pfailLow s = false) : pfailReleased s = { s with st.pfailMode := false } := by
  rw [pfailReleased, h]
  rfl

/-- Settles O1: in a state that its event fits, each command is the effect that its rules give. -/
theorem startAndSupplyEventsComplete : Obligations.StartAndSupplyEventsComplete := by
  unfold Obligations.StartAndSupplyEventsComplete
  refine ⟨?lowHeld, ?lowReleased, ?release, ?firmware, ?boot, ?vaonLost, ?vaonBack, ?vstbyLow, ?vstbyBack, ?pfailFall,
    ?pfailRise, ?refLost, ?refBack, ?xtalStops, ?xtalBack, ?tick⟩
  case lowHeld => exact fun _ _ b _ hp hx => done_of_fits hp (fxSysrstLow_of_held hx b)
  case lowReleased => exact fun _ _ b _ hp hx => done_of_fits hp (fxSysrstLow_of_released hx b)
  case release => exact fun t a _ hlow hv => done_of_fits hlow (fxSysrstRelease_of_vaonOk hv (t % 5) a)
  case firmware =>
    intro s haon hrom
    have hfits : (aonRuns s && s.chip.boot = .rom) = true := by rw [haon, hrom]; rfl
    refine done_of_fits hfits (a := fxSecRunning s) ?_
    unfold fxSecRunning now
    -- Whatever state the loading of the configuration leaves, its stitch program is the one that strand 0 starts.
    extract_lets _ _ _ s1 s2
    clear_value s2
    rfl
  case boot => exact fun _ hend => done_of_fits hend rfl
  case vaonLost => exact fun _ hv => done_of_fits hv rfl
  case vaonBack =>
    intro t a s hv hs
    change done (if s.chip.vaonOk then s else fxVaonRestored (t % 5) a s) = _
    rw [hv, fxVaonRestored_of_released hs]
    rfl
  case vstbyLow =>
    intro s haon hv
    have hfits : (aonRuns s && !s.chip.vstbyBad) = true := by rw [haon, hv]; rfl
    exact done_of_fits hfits rfl
  case vstbyBack =>
    intro s hp
    exact congrArg done (pfailReleased_of_high (s := { s with chip.vstbyBad := false }) (by rw [pfailLow, hp]; rfl))
  case pfailFall => exact fun _ haon => done_of_fits haon rfl
  case pfailRise =>
    intro s hv
    exact congrArg done (pfailReleased_of_high (s := { s with chip.pfailPin := false }) (by rw [pfailLow, hv]; rfl))
  case refLost =>
    intro s haon hclock
    have hfits : (aonRuns s && !s.chip.onBackupClock) = true := by rw [haon, hclock]; rfl
    exact ⟨_, done_of_fits hfits rfl⟩
  case refBack => exact fun _ => rfl
  case xtalStops =>
    intro s haon hrc
    have hfits : (aonRuns s && !s.chip.onRc) = true := by rw [haon, hrc]; rfl
    exact ⟨_, done_of_fits hfits rfl⟩
  case xtalBack => exact fun _ => rfl
  case tick => exact fun _ hv => done_of_fits hv rfl

/-! The rack's lines and the islands -/

/-- An off request of a hard line is taken while the AON island runs (R347). -/
theorem lineOff_of_runs {s : State} (h : aonRuns s = true) : lineOff s = offRequest false s := by
  rw [lineOff, if_pos h]

/-- RACK_THROTTLE_N that rises after it was low leaves the causes set, for R358 to clear. -/
theorem fxThrottleHigh_of_throttled {s : State} (haon : aonRuns s = true) (h : s.chip.rackThrottle = true) :
    fxThrottleHigh s = (List.range 8).foldl (fun a n => setAcc n (fun b => { b with rack := true }) a)
      { s with chip.rackThrottle := false } := by
  rw [fxThrottleHigh, haon, h]
  rfl

theorem fxThrottleHigh_of_high {s : State} (h : s.chip.rackThrottle = false) :
    fxThrottleHigh s = { s with chip.rackThrottle := false } := by
  rw [fxThrottleHigh, h, Bool.and_false]
  rfl

/-- A tray reverse sequence that no failed rail began ends in STANDBY (R21, R307). -/
theorem fxReverseEnd_of_sequencingDown {s : State} (htray : s.chip.tray = .sequencingDown) (h : s.chip.offFromRail = false) :
    fxReverseEnd s = switchAgain (finishLong .trayOff St.DONE []
      (enterStandby (leaveDown { endReverse s with cfg.attempt := false, chip.offFromRail := false }))) := by
  have hdown : (endReverse s).chip.tray = .sequencingDown := htray
  have hrail : (endReverse s).chip.offFromRail = false := h
  rw [fxReverseEnd, if_pos hdown, hrail]
  rfl

/-- While TRIPPED only the engine's part of the sequence ends (R24). -/
theorem fxReverseEnd_of_tripped {s : State} (htray : s.chip.tray = .tripped) : fxReverseEnd s = endReverse s := by
  have htripped : (endReverse s).chip.tray = .tripped := htray
  rw [fxReverseEnd, htripped]
  rfl

/-! What a change of the tray state touches: its two fields, the recorder with its counters, and the link's notices -/

theorem enqueueEvent_frame (e : Ev) (s : State) : ∃ r c, enqueueEvent e s = { s with regs := r, rcd := c } := by
  unfold enqueueEvent
  split
  · exact ⟨_, _, rfl⟩
  · exact ⟨_, _, rfl⟩

theorem raise_frame (cls code inst : Nat) (data : Bytes) (s : State) :
    ∃ r c, raise cls code inst data s = { s with regs := r, rcd := c } := by
  unfold raise raiseEvent
  split
  · exact ⟨_, _, rfl⟩
  split
  · split
    · exact enqueueEvent_frame _ { s with rcd := takeEntry _ (now s) s.rcd }
    · exact enqueueEvent_frame _ s
  · exact enqueueEvent_frame _ s

theorem notice_frame (kind arg status value : Nat) (s : State) :
    ∃ u, notice kind arg status value s = { s with su := u } := by
  unfold notice emitNotice
  split
  · split
    · exact ⟨_, rfl⟩
    · exact ⟨_, rfl⟩
  · exact ⟨_, rfl⟩

theorem setTray_frame (x : Tray) (s : State) : ∃ r c u, setTray x s =
    { s with regs := r, rcd := c, su := u, chip.prev := s.chip.tray, chip.tray := x } := by
  unfold setTray
  extract_lets p s1
  obtain ⟨r, c, hraise⟩ := raise_frame 0 1 noInst (regData (trayStateWord s1)) s1
  obtain ⟨u, hnotice⟩ := notice_frame 4 x.code 0 0 (raise 0 1 noInst (regData (trayStateWord s1)) s1)
  exact ⟨r, c, u, by rw [hnotice, hraise]⟩

section
variable (x : Tray) (s : State)

@[simp] theorem setTray_chip : (setTray x s).chip = { s.chip with prev := s.chip.tray, tray := x } := by
  obtain ⟨_, _, _, h⟩ := setTray_frame x s
  rw [h]

@[simp] theorem setTray_aon : (setTray x s).aon = s.aon := by
  obtain ⟨_, _, _, h⟩ := setTray_frame x s
  rw [h]

@[simp] theorem setTray_st : (setTray x s).st = s.st := by
  obtain ⟨_, _, _, h⟩ := setTray_frame x s
  rw [h]

@[simp] theorem setTray_meter : (setTray x s).meter = s.meter := by
  obtain ⟨_, _, _, h⟩ := setTray_frame x s
  rw [h]

@[simp] theorem setTray_ports : (setTray x s).ports = s.ports := by
  obtain ⟨_, _, _, h⟩ := setTray_frame x s
  rw [h]

@[simp] theorem setTray_mbx : (setTray x s).mbx = s.mbx := by
  obtain ⟨_, _, _, h⟩ := setTray_frame x s
  rw [h]

end

/-- An island beyond the Press and the memory loses its supply (R18). -/
theorem fxDrained_of_other {i : Nat} (h : i < 3 ∨ 11 < i) (s : State) : fxDrained i s =
    { s with chip.draining := s.chip.draining &&& ~~~(1#26 <<< i), chip.reenable := s.chip.reenable &&& ~~~(1#26 <<< i),
             chip.islands := s.chip.islands &&& ~~~(1#26 <<< i) } := by
  have hmem : ¬ i = 11 := by omega
  have hcl : ¬ (decide (3 ≤ i) && decide (i < 11)) = true := by simp; omega
  rw [fxDrained, if_neg hmem, if_neg hcl]

/-- A cluster that is not off loses its supply. -/
theorem fxDrained_of_cluster {i : Nat} {s : State} (hlo : 3 ≤ i) (hhi : i < 11) (h : (cluster s (i - 3)).st ≠ .off) :
    fxDrained i s = fxClusterPowerDown (i - 3)
      { s with chip.draining := s.chip.draining &&& ~~~(1#26 <<< i), chip.reenable := s.chip.reenable &&& ~~~(1#26 <<< i) } := by
  have hmem : ¬ i = 11 := by omega
  have hcl : (decide (3 ≤ i) && decide (i < 11)) = true := by simp; omega
  rw [fxDrained, if_neg hmem, if_pos hcl]
  exact if_neg h

/-- The part after the sequence of an AON trip: everything but the AON island is off (R21, R310). -/
theorem fxAonEnd_leaves (s : State) : (fxAonEnd s).chip.tray = .off ∧ (fxAonEnd s).chip.islands = 0 ∧
    (fxAonEnd s).aon.coreDown = 0x7FF ∧ (fxAonEnd s).st.phase = 0 ∧ (fxAonEnd s).st.hswEn = false ∧ (fxAonEnd s).mbx = [] ∧
    (fxAonEnd s).ports = [] ∧ (fxAonEnd s).meter.batches = [] ∧ (fxAonEnd s).meter.opens = [] := by
  simp [fxAonEnd]

/-- Settles O2: in a state that its event fits, each command is the effect that its rules give. -/
theorem rackLinesAndTransitionsComplete : Obligations.RackLinesAndTransitionsComplete := by
  unfold Obligations.RackLinesAndTransitionsComplete
  refine ⟨?permitLow, ?permitHigh, ?offLow, ?offHigh, ?throttleLow, ?throttleHigh, ?throttleStill, ?upStart, ?upEnd,
    ?reverseDown, ?reverseTripped, ?aonEnd, ?restart, ?drainedOther, ?drainedCluster, ?drainedMem, ?gradient⟩
  case permitLow => exact fun s haon => congrArg done (lineOff_of_runs (s := { s with chip.permit := false }) haon)
  case permitHigh => exact fun _ => rfl
  case offLow => exact fun s haon => congrArg done (lineOff_of_runs (s := { s with chip.rackOff := true }) haon)
  case offHigh => exact fun _ => rfl
  case throttleLow => exact fun _ haon => done_of_fits haon rfl
  case throttleHigh => exact fun _ haon h => congrArg done (fxThrottleHigh_of_throttled haon h)
  case throttleStill => exact fun _ h => congrArg done (fxThrottleHigh_of_high h)
  case upStart => exact fun _ h => done_of_fits h rfl
  case upEnd => exact fun _ h => done_of_fits h rfl
  case reverseDown => exact fun _ h htray hrail => done_of_fits h (fxReverseEnd_of_sequencingDown htray hrail)
  case reverseTripped => exact fun _ h htray => done_of_fits h (fxReverseEnd_of_tripped htray)
  case aonEnd => exact fun s h => ⟨fxAonEnd s, done_of_fits h rfl, fxAonEnd_leaves s⟩
  case restart =>
    intro s hcool htray hphase
    have hfits : (coolEnough s && (s.chip.tray = .off || (s.chip.tray = .tripped && s.st.phase ≠ 4))) = true := by
      simp [hcool, htray, hphase]
    exact done_of_fits hfits rfl
  case drainedOther => exact fun _ s hd hi => done_of_fits hd (fxDrained_of_other hi s)
  case drainedCluster => exact fun _ _ hd hlo hhi hon => done_of_fits hd (fxDrained_of_cluster hlo hhi hon)
  case drainedMem =>
    intro i s hd hi
    subst hi
    exact done_of_fits hd rfl
  case gradient => exact fun _ h => done_of_fits h rfl

end Sys2Proof.Machine

end EventCompletions

/-! The reference arithmetic: the one rounding, and exact sums (02). -/

section ReferenceArithmetic

namespace Sys2Proof.Machine

/-! The one rounding (R40) -/

/-- From a grid at or below the last bit of m × 2^e nothing is lost. -/
theorem toUnits_of_fine {e q : Int} (h : q ≤ e) (m : Nat) : toUnits m e q = (m * 2 ^ (e - q).toNat, false) :=
  if_pos h

/-- On a grid at or above 2^e the quotient is kept, and a remainder is lost. -/
theorem toUnits_of_coarse {e q : Int} (h : e ≤ q) (m : Nat) :
    toUnits m e q = (m / 2 ^ (q - e).toNat, decide (m % 2 ^ (q - e).toNat ≠ 0)) := by
  rcases h.lt_or_eq with hlt | rfl
  · exact if_neg (not_le.mpr hlt)
  · simp [toUnits, Nat.mod_one]

/-- A magnitude of a whole number of units of 2^q is delivered as it is. -/
theorem roundUnits_of_fine {e q : Int} (h : q ≤ e) (m : Nat) :
    roundUnits m e false q = (m * 2 ^ (e - q).toNat, false) := by
  have hexp : (e - (q - 1)).toNat = (e - q).toNat + 1 := by omega
  have hhalves : m * 2 ^ (e - (q - 1)).toNat = 2 * (m * 2 ^ (e - q).toNat) := by rw [hexp, Nat.pow_succ]; ring
  simp [roundUnits, toUnits_of_fine (show q - 1 ≤ e by omega), hhalves]

/-- Round `m` in units of `2 * d` to nearest, ties to even, as `roundUnits` does from the number of half units `d`;
and whether the result differs. -/
def roundHalves (m d : Nat) : Nat × Bool :=
  (if m / d % 2 = 1 ∧ (m % d ≠ 0 ∨ m / d / 2 % 2 = 1) then m / d / 2 + 1 else m / d / 2,
    decide (m / d % 2 = 1 ∨ m % d ≠ 0))

/-- On a grid above 2^e the rounding is that of `m` in units of 2^(q − e). -/
theorem roundUnits_of_coarse {e q : Int} (h : e < q) (m : Nat) :
    roundUnits m e false q = roundHalves m (2 ^ (q - 1 - e).toNat) := by
  simp [roundUnits, toUnits_of_coarse (show e ≤ q - 1 by omega), roundHalves]

/-- Rounded down: `m` lies less than half a unit above the multiple. -/
theorem roundHalves_below {m d : Nat} (h : m / d % 2 = 0) : roundHalves m d = (m / d / 2, decide (m % d ≠ 0)) := by
  simp [roundHalves, h]

/-- Rounded up: `m` lies more than half a unit above the lower multiple, or half way with an odd lower multiple. -/
theorem roundHalves_above {m d : Nat} (h : m / d % 2 = 1) (hup : m % d ≠ 0 ∨ m / d / 2 % 2 = 1) :
    roundHalves m d = (m / d / 2 + 1, true) := by
  simp only [roundHalves, h, hup, and_self, true_or, decide_true, if_true]

/-- Half way from an even lower multiple, which is delivered. -/
theorem roundHalves_halfway_even {m d : Nat} (h : m / d % 2 = 1) (hexact : m % d = 0) (heven : m / d / 2 % 2 = 0) :
    roundHalves m d = (m / d / 2, true) := by
  simp [roundHalves, h, hexact, heven]

/-- `m` lies within half a unit of its rounding; half way, the multiple is even; and the flag says whether
they differ. -/
theorem roundHalves_nearest {m d n : Nat} {x : Bool} (hd : 0 < d) (h : roundHalves m d = (n, x)) :
    2 * ((m : Int) - (n * (2 * d) : Nat)).natAbs ≤ 2 * d ∧
      (2 * ((m : Int) - (n * (2 * d) : Nat)).natAbs = 2 * d → n % 2 = 0) ∧ (x = true ↔ m ≠ n * (2 * d)) := by
  have hrest : m % d < d := Nat.mod_lt m hd
  have hparts : m = m / d / 2 * (2 * d) + m / d % 2 * d + m % d := by
    calc m = (2 * (m / d / 2) + m / d % 2) * d + m % d := by rw [Nat.div_add_mod, Nat.div_add_mod']
      _ = m / d / 2 * (2 * d) + m / d % 2 * d + m % d := by ring
  rcases Nat.mod_two_eq_zero_or_one (m / d) with hlow | hhigh
  · rw [roundHalves_below hlow] at h
    obtain ⟨rfl, rfl⟩ := Prod.mk.inj h
    rw [hlow, Nat.zero_mul] at hparts
    rw [decide_eq_true_iff]
    omega
  · rw [hhigh, Nat.one_mul] at hparts
    by_cases hup : m % d ≠ 0 ∨ m / d / 2 % 2 = 1
    · rw [roundHalves_above hhigh hup] at h
      obtain ⟨rfl, rfl⟩ := Prod.mk.inj h
      have hnext : (m / d / 2 + 1) * (2 * d) = m / d / 2 * (2 * d) + 2 * d := Nat.succ_mul _ _
      rw [hnext, eq_self, true_iff]
      omega
    · obtain ⟨hexact, heven⟩ : m % d = 0 ∧ m / d / 2 % 2 = 0 := by omega
      rw [roundHalves_halfway_even hhigh hexact heven] at h
      obtain ⟨rfl, rfl⟩ := Prod.mk.inj h
      rw [eq_self, true_iff]
      omega

/-- Settles O35: the rounding is `roundHalves` on a coarser grid and loses nothing on a finer one. -/
theorem roundingIsToNearestEven : Obligations.RoundingIsToNearestEven := by
  unfold Obligations.RoundingIsToNearestEven
  intro m e q n x h
  constructor
  · intro hfine
    rw [roundUnits_of_fine hfine] at h
    obtain ⟨rfl, rfl⟩ := Prod.mk.inj h
    exact ⟨rfl, rfl⟩
  · intro hcoarse
    have hunit : 2 ^ (q - e).toNat = 2 * 2 ^ (q - 1 - e).toNat := by
      rw [show (q - e).toNat = (q - 1 - e).toNat + 1 by omega, Nat.pow_succ, Nat.mul_comm]
    rw [roundUnits_of_coarse hcoarse] at h
    have hnear := roundHalves_nearest (by positivity) h
    rw [← hunit] at hnear
    exact_mod_cast hnear

/-! A magnitude m × 2^e is rounded for its value: moving factors of two between m and e changes nothing (R40) -/

/-- Each factor of two adds a bit. -/
theorem bitLen_shift {m : Nat} (h : m ≠ 0) (k : Nat) : bitLen (m * 2 ^ k) = bitLen m + k := by
  induction k with
  | zero => simp
  | succ k ih =>
    have hpos : m * 2 ^ k ≠ 0 := by positivity
    rw [Nat.pow_succ, ← Nat.mul_assoc, ← Nat.add_assoc, ← ih]
    simp [bitLen, hpos, Nat.log2_eq_log_two, Nat.log_mul_base]

theorem two_pow_of_sum {i j k : Nat} (h : k = i + j) : 2 ^ k = 2 ^ i * 2 ^ j := h ▸ Nat.pow_add 2 i j

/-- The grid may lie below 2^e, between the two exponents, or above both. -/
theorem toUnits_shift (m k : Nat) (e q : Int) : toUnits (m * 2 ^ k) e q = toUnits m (e + k) q := by
  rcases le_or_gt q e with hq | hq
  · have hpow : 2 ^ (e + k - q).toNat = 2 ^ k * 2 ^ (e - q).toNat := two_pow_of_sum (by omega)
    rw [toUnits_of_fine hq, toUnits_of_fine (show q ≤ e + k by omega), hpow, Nat.mul_assoc]
  rcases le_or_gt q (e + k) with hk | hk
  · have hpow : 2 ^ k = 2 ^ (e + k - q).toNat * 2 ^ (q - e).toNat := two_pow_of_sum (by omega)
    rw [toUnits_of_coarse hq.le, toUnits_of_fine hk, hpow, ← Nat.mul_assoc, Nat.mul_div_cancel _ (by positivity)]
    simp
  · have hpow : 2 ^ (q - e).toNat = 2 ^ (q - (e + k)).toNat * 2 ^ k := two_pow_of_sum (by omega)
    rw [toUnits_of_coarse hq.le, toUnits_of_coarse hk.le, hpow, Nat.mul_div_mul_right _ _ (by positivity),
      Nat.mul_mod_mul_right]
    simp

/-- The comparison asks for `n` whole units. -/
theorem atLeast_eq_toUnits (m : Nat) (e : Int) (n : Nat) (q : Int) :
    atLeast m e n q = decide (n ≤ (toUnits m e q).1) := by
  rw [atLeast, toUnits]
  split
  · rfl
  · simp [Nat.le_div_iff_mul_le]

theorem atLeast_shift (m k n : Nat) (e q : Int) : atLeast (m * 2 ^ k) e n q = atLeast m (e + k) n q := by
  rw [atLeast_eq_toUnits, atLeast_eq_toUnits, toUnits_shift]

theorem roundUnits_shift (m k : Nat) (e : Int) (sticky : Bool) (q : Int) :
    roundUnits (m * 2 ^ k) e sticky q = roundUnits m (e + k) sticky q := by
  rw [roundUnits, roundUnits, toUnits_shift]

theorem roundInt_shift (f : Nat) (neg : Bool) (m k : Nat) (e : Int) (sticky : Bool) :
    roundInt f neg (m * 2 ^ k) e sticky = roundInt f neg m (e + k) sticky := by
  simp only [roundInt, atLeast_shift, roundUnits_shift]

/-- The leading bit stands at the same place, so the grid and the encoding are the same; a zero has no leading bit. -/
theorem roundFin_shift (f : Nat) (blk neg : Bool) (m k : Nat) (e : Int) (sticky : Bool) :
    roundFin f blk neg (m * 2 ^ k) e sticky = roundFin f blk neg m (e + k) sticky := by
  have hzero : m * 2 ^ k = 0 ↔ m = 0 := by simp
  have hlead : m ≠ 0 → e + bitLen (m * 2 ^ k) - 1 = e + k + bitLen m - 1 := by
    intro h
    rw [bitLen_shift h]
    omega
  simp only [roundFin, atLeast_shift, roundUnits_shift, roundInt_shift, hzero]
  by_cases h : m = 0
  · simp [h]
  · simp [h, hlead h]

/-! What the running sum stands for (R42, R48) -/

/-- The number that a dyadic number stands for. -/
def Dy.val (d : Dy) : ℚ := d.m * 2 ^ d.e

/-- The number that a finite value adds to a sum. -/
def TVal.number (v : TVal) : ℚ :=
  match v with
  | .fin neg m e => Dy.val ⟨if neg then -(m : Int) else m, e⟩
  | _ => 0

/-- −0 as a term (R42). -/
def TVal.isNegZero (v : TVal) : Bool :=
  match v with
  | .fin neg m _ => neg && m == 0
  | _ => false

/-- What a running sum holds, its dyadic number taken as the number that it stands for. -/
structure SumView where
  nan : Bool
  pinf : Bool
  ninf : Bool
  any : Bool
  allNegZero : Bool
  number : ℚ

/-- A running sum read as a `SumView`. INVALID is left out: it is a flag and no part of the total. -/
def ESum.view (a : ESum) : SumView := ⟨a.nan, a.pinf, a.ninf, a.any, a.allNegZero, a.sum.val⟩

/-- A term added to what a running sum holds: one formula for every kind of term. -/
def SumView.term (t : SumView) (v : TVal) : SumView :=
  ⟨t.nan || v == .nan, t.pinf || v == .inf false, t.ninf || v == .inf true, true, t.allNegZero && v.isNegZero,
    t.number + v.number⟩

/-- Two terms may be exchanged. -/
theorem SumView.term_right_comm (t : SumView) (v w : TVal) : (t.term v).term w = (t.term w).term v := by
  simp only [SumView.term, Bool.or_right_comm, Bool.and_right_comm, add_right_comm]

/-- The sum is exact, whichever exponent is the smaller. -/
theorem Dy.val_add (a b : Dy) : (a.add b).val = a.val + b.val := by
  have hscale (x y : Int) (h : x ≤ y) : ((2 ^ (y - x).toNat : Nat) : ℚ) * 2 ^ x = 2 ^ y := by
    rw [Nat.cast_pow, Nat.cast_ofNat, ← zpow_natCast, ← zpow_add₀ two_ne_zero]
    congr 1
    omega
  rw [Dy.add]
  split_ifs with ha hb hle
  · simp [Dy.val, ha]
  · simp [Dy.val, hb]
  · simp only [Dy.val]
    rw [← hscale _ _ hle]
    push_cast
    ring
  · simp only [Dy.val]
    rw [← hscale _ _ (not_le.mp hle).le]
    push_cast
    ring

theorem Dy.val_eq_zero_iff (d : Dy) : d.val = 0 ↔ d.m = 0 := by
  have hpow : (2 : ℚ) ^ d.e ≠ 0 := zpow_ne_zero _ two_ne_zero
  simp [Dy.val, hpow]

/-- Every kind of term acts by the one formula. -/
theorem ESum.view_term (a : ESum) (v : TVal) : (a.term v).view = a.view.term v := by
  cases v with
  | nan => simp [ESum.term, ESum.view, SumView.term, TVal.number, TVal.isNegZero]
  | inf neg => cases neg <;> simp [ESum.term, ESum.view, SumView.term, TVal.number, TVal.isNegZero]
  | fin neg m e =>
    simp [ESum.term, ESum.view, SumView.term, TVal.number, TVal.isNegZero, Dy.val_add, Bool.and_assoc]

/-- The terms of an E-sum: its products and the addend (R48). -/
def eTerms (ps : List (Scaled × Scaled)) (c : Option TVal) : List TVal :=
  ps.map (fun p => mulVal p.1.val p.2.val) ++ c.toList

/-- One product added as `eSumAcc` adds it, with 0 × ∞ noted. -/
def addProduct (a : ESum) (p : Scaled × Scaled) : ESum :=
  if mulInvalid p.1.val p.2.val then { a.term (mulVal p.1.val p.2.val) with invalid := true }
  else a.term (mulVal p.1.val p.2.val)

theorem view_addProduct (a : ESum) (p : Scaled × Scaled) :
    (addProduct a p).view = a.view.term (mulVal p.1.val p.2.val) := by
  rw [← ESum.view_term, addProduct]
  split <;> rfl

/-- An exact sum holds what its terms give, added one by one. -/
theorem view_eSumAcc (ps : List (Scaled × Scaled)) (c : Option TVal) :
    (eSumAcc ps c).view = (eTerms ps c).foldl SumView.term (ESum.view {}) := by
  have hps : (ps.foldl addProduct {}).view =
      (ps.map (fun p => mulVal p.1.val p.2.val)).foldl SumView.term (ESum.view {}) := by
    rw [List.foldl_map]
    exact (List.foldl_hom ESum.view fun a p => (view_addProduct a p).symm).symm
  rw [eTerms, List.foldl_append, ← hps]
  cases c with
  | none => rfl
  | some v => exact ESum.view_term _ _

/-- The order of the products is no part of what the sum holds. -/
theorem view_eSumAcc_perm {ps qs : List (Scaled × Scaled)} (h : ps.Perm qs) (c : Option TVal) :
    (eSumAcc ps c).view = (eSumAcc qs c).view := by
  have hterms : (eTerms ps c).Perm (eTerms qs c) := (h.map _).append_right _
  rw [view_eSumAcc, view_eSumAcc]
  exact hterms.foldl_eq' (fun v _ w _ t => SumView.term_right_comm t v w) _

/-! The delivered bits come from what the sum holds (R40, R42) -/

/-- Two ways to write one magnitude differ by factors of two between m and e. -/
theorem convertVal_fin_congr {m n : Nat} {e g : Int} (h : (m : ℚ) * 2 ^ e = n * 2 ^ g) (f : Nat) (neg : Bool) :
    convertVal f (.fin neg m e) = convertVal f (.fin neg n g) := by
  wlog hle : e ≤ g generalizing m n e g
  · exact (this h.symm (not_le.mp hle).le).symm
  obtain ⟨k, rfl⟩ := Int.le.dest hle
  have hm : m = n * 2 ^ k := by
    have hcancel : (m : ℚ) * 2 ^ e = (n * 2 ^ k : Nat) * 2 ^ e := by
      rw [h, zpow_add₀ two_ne_zero, zpow_natCast]
      push_cast
      ring
    exact_mod_cast mul_right_cancel₀ (zpow_ne_zero e two_ne_zero) hcancel
  rw [hm]
  exact roundFin_shift f false neg n k e false

theorem Dy.val_neg_iff (d : Dy) : d.val < 0 ↔ d.m < 0 := by
  have hpow : (0 : ℚ) < 2 ^ d.e := zpow_pos two_pos _
  simp [Dy.val, mul_neg_iff, hpow, hpow.le]

theorem Dy.natAbs_mul_zpow (d : Dy) : (d.m.natAbs : ℚ) * 2 ^ d.e = |d.val| := by
  rw [Dy.val, abs_mul, abs_of_pos (zpow_pos two_pos d.e : (0 : ℚ) < 2 ^ d.e), Nat.cast_natAbs, Int.cast_abs]

/-- NaN, infinity, zero, and a finite total whose sign and magnitude are those of the number held. -/
theorem convertVal_total_congr {a b : ESum} (h : a.view = b.view) (f : Nat) :
    convertVal f a.total = convertVal f b.total := by
  obtain ⟨hnan, hpinf, hninf, hany, hneg, hval⟩ := SumView.mk.inj h
  have hzero : a.sum.m = 0 ↔ b.sum.m = 0 := by rw [← Dy.val_eq_zero_iff, hval, Dy.val_eq_zero_iff]
  have hsign : a.sum.m < 0 ↔ b.sum.m < 0 := by rw [← Dy.val_neg_iff, hval, Dy.val_neg_iff]
  have hmag : (a.sum.m.natAbs : ℚ) * 2 ^ a.sum.e = b.sum.m.natAbs * 2 ^ b.sum.e := by
    rw [Dy.natAbs_mul_zpow, hval, Dy.natAbs_mul_zpow]
  simp only [ESum.total, hnan, hpinf, hninf, hany, hneg, hzero, hsign]
  split_ifs
  · rfl
  · rfl
  · rfl
  · rfl
  · exact convertVal_fin_congr hmag f _

theorem eSum_bits_of_one_chunk {ps : List (Scaled × Scaled)} (h : ps.length ≤ eChunk) (scaled : Bool)
    (fa fb fout : Nat) (c : Option TVal) : (eSum scaled fa fb fout ps c).bits = (convertVal fout (eSumAcc ps c).total).bits := by
  rw [eSum, if_pos h]
  rfl

/-- Settles O34: the terms of an exact sum may be exchanged in what the sum holds, and the bits are read
off from that. -/
theorem exactSumsDoNotDependOnOrder : Obligations.ExactSumsDoNotDependOnOrder := by
  unfold Obligations.ExactSumsDoNotDependOnOrder
  intro scaled fa fb fout ps qs c hperm hlen
  have hlen' : qs.length ≤ eChunk := hperm.length_eq ▸ hlen
  rw [eSum_bits_of_one_chunk hlen, eSum_bits_of_one_chunk hlen', convertVal_total_congr (view_eSumAcc_perm hperm c)]

end Sys2Proof.Machine

end ReferenceArithmetic

/-! Where an order of a mailbox has been taken, the command is the order's own part (R266, R267, R271). -/

section TakenOrders

namespace Sys2Proof.Machine

/-- A command of an order that has been taken answers the settling of what the order's own part makes of the begun state. -/
theorem done_onOrder_of_taken {s a : State} {n op : Nat} (h : taken s n op = true) {body : Bytes → State → State}
    (hbody : body (payload s n) (begun n s) = a) : done (onOrder op n body s) = .next (settled a) := by
  rw [onOrder_taken h, hbody, done]

end Sys2Proof.Machine

end TakenOrders

/-! The control register and the clock of a cluster (R85, R111, R112). -/

section ClusterControl

namespace Sys2Proof.Machine

/-! CL_CTRL: what the highest bit of the word selects (R111) -/

section
variable {c : Nat} {v : W32} {s : State}

theorem clCtrl_of_abort (h3 : bitAt v 3 = true) : clCtrl c v s = (cluster s c).plan.elim s (fun id => fxAbort id s) := by
  rw [clCtrl, if_pos h3]

theorem clCtrl_of_selftest (h3 : bitAt v 3 = false) (h2 : bitAt v 2 = true) :
    clCtrl c v s = if (cluster s c).st = .idle || (cluster s c).st = .suspended then startSelftest c s else s := by
  rw [clCtrl, if_neg (ne_true_of_eq_false h3), if_pos h2]

theorem clCtrl_of_resume (h3 : bitAt v 3 = false) (h2 : bitAt v 2 = false) (h1 : bitAt v 1 = true) :
    clCtrl c v s = fxResume c s := by
  rw [clCtrl, if_neg (ne_true_of_eq_false h3), if_neg (ne_true_of_eq_false h2), if_pos h1]

theorem clCtrl_of_suspend (h3 : bitAt v 3 = false) (h2 : bitAt v 2 = false) (h1 : bitAt v 1 = false)
    (h0 : bitAt v 0 = true) : clCtrl c v s = suspendCluster c s := by
  rw [clCtrl, if_neg (ne_true_of_eq_false h3), if_neg (ne_true_of_eq_false h2), if_neg (ne_true_of_eq_false h1),
    if_pos h0]

end

/-- Settles O38: a word, and the word of its highest bit alone, select the same action. -/
theorem highestControlBitActs : Obligations.HighestControlBitActs := by
  unfold Obligations.HighestControlBitActs
  intro c v s
  refine ⟨?abort, ?selftest, ?resume, ?suspend, ?suspendAlone, ?resumeAlone⟩
  case abort =>
    intro h3
    rw [clCtrl_of_abort h3, clCtrl_of_abort (v := 8) (by decide)]
  case selftest =>
    intro h3 h2
    rw [clCtrl_of_selftest h3 h2, clCtrl_of_selftest (v := 4) (by decide) (by decide)]
  case resume =>
    intro h3 h2 h1
    rw [clCtrl_of_resume h3 h2 h1, clCtrl_of_resume (v := 2) (by decide) (by decide) (by decide)]
  case suspend =>
    intro h3 h2 h1 h0
    rw [clCtrl_of_suspend h3 h2 h1 h0, clCtrl_of_suspend (v := 1) (by decide) (by decide) (by decide) (by decide)]
  case suspendAlone => exact clCtrl_of_suspend (by decide) (by decide) (by decide) (by decide)
  case resumeAlone => exact clCtrl_of_resume (by decide) (by decide) (by decide)

/-! TARGET_MHZ, and the least of the limits (R85, R112) -/

section
variable {v : Nat}

theorem actTarget_of_low (h : v < 400) : actTarget v = 400 := by
  rw [actTarget, if_pos h]

theorem actTarget_of_high (h : 1600 < v) : actTarget v = 1600 := by
  rw [actTarget, if_neg (by omega), if_pos h]

theorem actTarget_of_within (hlo : 400 ≤ v) (hhi : v ≤ 1600) : actTarget v = v / 25 * 25 := by
  rw [actTarget, if_neg (by omega), if_neg (by omega)]

end

/-- Of two clocks with their LIMITER codes, the one that holds: the lower clock, and of equal ones the lower code. -/
def tighter (a l : Nat × Nat) : Nat × Nat :=
  if l.1 < a.1 || (l.1 == a.1 && l.2 < a.2) then l else a

/-- The effective clock of a powered cluster is the tightest of its limits. -/
theorem effClock_of_powered {s : State} {c : Nat} (h : (cluster s c).st ≠ .off) (broken : Bool) :
    effClock s c broken = (clusterLimits s c broken).foldl tighter (100000, 9) :=
  if_neg h

theorem tighter_fst (a l : Nat × Nat) : (tighter a l).1 = min a.1 l.1 := by
  unfold tighter
  split
  case isTrue h =>
    simp only [Bool.or_eq_true, Bool.and_eq_true, decide_eq_true_eq, beq_iff_eq] at h
    omega
  case isFalse h =>
    simp only [Bool.or_eq_true, Bool.and_eq_true, decide_eq_true_eq, beq_iff_eq] at h
    omega

/-- The tightest of a list of limits is above none of them. -/
theorem foldl_tighter_le {xs : List (Nat × Nat)} {a l : Nat × Nat} (h : l ∈ a :: xs) : (xs.foldl tighter a).1 ≤ l.1 := by
  induction xs generalizing a l with
  | nil =>
    rw [List.mem_singleton.mp h]
    rfl
  | cons x xs ih =>
    have hhead : (xs.foldl tighter (tighter a x)).1 ≤ min a.1 x.1 :=
      (ih List.mem_cons_self).trans_eq (tighter_fst a x)
    rcases List.mem_cons.mp h with rfl | h
    · exact hhead.trans (min_le_left _ _)
    rcases List.mem_cons.mp h with rfl | h
    · exact hhead.trans (min_le_right _ _)
    · exact ih (List.mem_cons_of_mem _ h)

theorem target_mem_clusterLimits (s : State) (c : Nat) (broken : Bool) :
    (actTarget (rdFld s (R.CL_FREQ c) 10 0), 0) ∈ clusterLimits s c broken := by
  simp [clusterLimits]

/-- No cluster is clocked above its target (R85). -/
theorem effClock_le_target (s : State) (c : Nat) (broken : Bool) :
    (effClock s c broken).1 ≤ actTarget (rdFld s (R.CL_FREQ c) 10 0) := by
  by_cases hoff : (cluster s c).st = .off
  · rw [effClock, if_pos hoff]
    exact Nat.zero_le _
  · rw [effClock_of_powered hoff]
    exact foldl_tighter_le (List.mem_cons_of_mem _ (target_mem_clusterLimits s c broken))

/-- A write into a cluster whose island answers is carried out. -/
theorem clusterWrite_of_answers {c : Nat} {s : State} (h : islandAnswers (clusterIsland c) s = true) (off : Nat)
    (f : State → State) : clusterWrite c off f s = f s := by
  rw [clusterWrite, if_pos h]

/-- CL_FREQ takes the bits that TARGET_MHZ has. -/
theorem exec_clFreqWrite_of_answers {c : Fin 8} {s : State} (h : islandAnswers (clusterIsland c) s = true) (v : W32) :
    exec (.clFreqWrite c v) s = .next (settled (wr (R.CL_FREQ c) (v &&& 0x7FF) s)) :=
  congrArg done (clusterWrite_of_answers h _ _)

/-- A value that fits the 11 bits of TARGET_MHZ loses nothing. -/
theorem and_targetMask_of_lt {v : W32} (h : v < 2048#32) : v &&& 0x7FF = v := by
  have hmask : (0x7FF : Nat) = 2 ^ 11 - 1 := rfl
  have hlt : v.toNat < 2 ^ 11 := h
  apply BitVec.eq_of_toNat_eq
  change v.toNat &&& 0x7FF = v.toNat
  rw [hmask, Nat.and_two_pow_sub_one_eq_mod, Nat.mod_eq_of_lt hlt]

/-- Settles O37: the target acts by its three cases, the clock is the least of limits among which it is, and a write stores
the bits of the field. -/
theorem targetClockActsInSteps : Obligations.TargetClockActsInSteps := by
  unfold Obligations.TargetClockActsInSteps
  refine ⟨fun _ => actTarget_of_low, fun _ => actTarget_of_high, ?within, effClock_le_target, ?written⟩
  case within =>
    intro v hlo hhi
    rw [actTarget_of_within hlo hhi]
    omega
  case written =>
    intro c v s hans hlt
    refine ⟨wr (R.CL_FREQ c) v s, ?_, rd_wr_same _ _ _⟩
    rw [exec_clFreqWrite_of_answers hans, and_targetMask_of_lt hlt]

end Sys2Proof.Machine

end ClusterControl

/-! The commands of the Press (03). -/

section PressCommands

namespace Sys2Proof.Machine

/-! Clusters: control, bridges, self-checks, power -/

section
variable {c : Nat} {s : State}

/-- A SUSPENDED cluster whose self-test passed resumes while the memory stands (R104, R210). -/
theorem fxResume_of_suspended (hst : (cluster s c).st = .suspended) (hpass : rdBit s (R.SELFTEST_RESULT c) 30 = true)
    (hmem : memFailed s = false) : fxResume c s = setCl c (fun x => { x with st := .idle, susp := false }) s :=
  if_pos (by simp [hst, hpass, hmem])

/-- During a self-test RESUME waits for its end (R104). -/
theorem fxResume_of_selftest (hst : (cluster s c).st = .selftest) :
    fxResume c s = setCl c (fun x => { x with resumeWaits := true }) s := by
  simp [fxResume, hst]

/-- With both bridges of a cluster left enabled no plan is stopped (R113). -/
theorem fxBridgeCtrl_of_enabled {v : W32} (h : v &&& 3 = 3#32) : fxBridgeCtrl c v s = wr (R.BRIDGE_CTRL c) 3 s := by
  have h0 : bitAt v 0 = true := by
    have hbit := congrArg (BitVec.getLsbD · 0) h
    simpa [bitAt] using hbit
  have h1 : bitAt v 1 = true := by
    have hbit := congrArg (BitVec.getLsbD · 1) h
    simpa [bitAt] using hbit
  rw [fxBridgeCtrl, h]
  simp [h0, h1]

/-- A first pass of the quick test reruns a plan that may be rerun (R102). -/
theorem fxQuickTest_of_pass (hr : (cluster s c).restartable = true) (hfirst : (cluster s c).rerun = false) (id : Nat) :
    fxQuickTest c true id s = rerunPlan c id s :=
  if_pos (by simp [hr, hfirst])

/-- A quick test that fails suspends the cluster; a plan that may be rerun is not ended (R102). -/
theorem fxQuickTest_of_fail (hr : (cluster s c).restartable = true) (id : Nat) :
    fxQuickTest c false id s = suspendCluster c (latchFault c 6 0 ((cluster s c).failed.getD 0) s) := by
  simp [fxQuickTest, hr]

/-- A self-test that passes ends its orders DONE (R104, R105). -/
theorem fxSelftestEnd_of_pass {bad : Nat} {up down : Bool} (h : bitAt (selftestWord bad up down) 30 = true) :
    fxSelftestEnd c bad up down s = endCtl c St.DONE (finishLong (.clusterCtrl c) St.DONE []
      (setCl c (fun k => { k with st := if memFailed s then .suspended else if coreUp (3 + c) s then .idle else .frozen,
                                  susp := false, resumeWaits := false, passed := true, plan := none })
        (setIrons c (fun _ => {}) (wr (R.SELFTEST_RESULT c) (selftestWord bad up down) s)))) := by
  simp only [fxSelftestEnd, h, if_true]

/-- Words that the scrubber corrected are counted (R82). -/
theorem fxSramScrub_of_corrected {n : Nat} (h : 0 < n) (i : Nat) :
    fxSramScrub c i n false s = setBits (R.IRON_ERR c i) 4 (bumpBy (R.CL_CNT_TC_CORR c) n s) := by
  simp [fxSramScrub, Nat.ne_of_gt h]

/-- The control core of a cluster that is powered up starts where nothing holds it and it has an image (R114). -/
theorem fxClusterPowerUp_of_core {t : State} (ht : t = clusterPower c true s)
    (hcore : (t.aon.coreHeld.getLsbD (3 + c) || isPinned t (3 + c) || ((t.aon.cores.get {} (3 + c)).image).isEmpty) = false) :
    fxClusterPowerUp c s = startSelftest c { t with aon.coreDown := t.aon.coreDown &&& ~~~(1#11 <<< (3 + c)) } := by
  subst ht
  simp only [fxClusterPowerUp, hcore]
  rfl

end

/-! Plans by number -/

/-- A change of a plan that keeps its number is seen in it. -/
theorem planOf_setPlan {id : Nat} {f : Plan → Plan} (hf : ∀ q, (f q).id = q.id) (s : State) :
    planOf (setPlan id f s) id = (planOf s id).map f := by
  simp only [planOf, setPlan]
  induction s.press.plans with
  | nil => rfl
  | cons q qs ih =>
    by_cases hq : q.id = id
    · simp [hq, hf]
    · simpa [hq] using ih

/-- A change of clusters leaves the plans. -/
theorem planOf_foldl_setCl (ks : List Nat) (g : Nat → Nat) (f : Cluster → Cluster) (id : Nat) (s : State) :
    planOf (ks.foldl (fun a k => setCl (g k) f a) s) id = planOf s id := by
  induction ks generalizing s with
  | nil => rfl
  | cons k ks ih => exact ih _

/-! Loading (R137, R143, R144) -/

/-- A plan as it starts: phase 0, on its places, with its scratch. -/
def Plan.startedOn (place : List (Nat × Nat)) (parts : List ScratchPart) (q : Plan) : Plan :=
  { q with st := .running, place := place, phase := 0, stagesDone := 0, stored := false, spaceWaits := false, waitLevels := 0,
           parts := parts, wrote := [] }

section
variable {c : Fin 8} {s : State} {p : Plan} {parts : List ScratchPart}

/-- A plan that finds scratch space starts. -/
theorem allocAndStart_of_space {id : Nat} (hp : planOf s id = some p)
    (hspace : allocScratch p.image (scratchLevels s p.image p.home ((placePlan p.image).getD [])) (scratchUsed s) = .ok parts) :
    allocAndStart id s = enterPhase id (setPlan id (Plan.startedOn ((placePlan p.image).getD []) parts) s) := by
  rw [allocAndStart, hp]
  dsimp only
  rw [hspace]
  rfl

theorem exec_planLoad_of_ready (hload : loadingPlan s c = some p) (hready : imageReady s p = true)
    (hbudget : p.budgetWaits = false) (hspace : p.spaceWaits = false) :
    exec (.planLoad c) s = .next (settled (fxPlanLoad p.id s)) := by
  change execPlanLoad c s = _
  rw [execPlanLoad, hload]
  exact done_of_fits (by simp [hready, hbudget, hspace]) rfl

theorem exec_scratchSpaceFreed_of_waiting (hload : loadingPlan s c = some p) (hspace : p.spaceWaits = true) :
    exec (.scratchSpaceFreed c) s = .next (settled (allocAndStart p.id s)) := by
  change execScratchSpaceFreed c s = _
  rw [execScratchSpaceFreed, hload]
  exact done_of_fits hspace rfl

/-- A plan that fails a check is refused with that check's status. -/
theorem fxPlanLoad_of_failed (hp : planOf s p.id = some p)
    (hstatus : planStatus s p.isSelf (planBytes s p p.len) ≠ St.DONE) :
    fxPlanLoad p.id s = refusePlan p.id (planStatus s p.isSelf (planBytes s p p.len)) s := by
  rw [fxPlanLoad, hp]
  exact if_pos hstatus

/-- A plan that passes the checks keeps its image, its clusters learn whether it may be rerun, and it is given its scratch. -/
theorem fxPlanLoad_of_passed (hp : planOf s p.id = some p)
    (hstatus : planStatus s p.isSelf (planBytes s p p.len) = St.DONE) :
    fxPlanLoad p.id s = allocAndStart p.id ((List.range (planSpan (planBytes s p p.len))).foldl
      (fun a k => setCl ((p.home + k) % 8) (fun x => { x with restartable := p.restarts (planBytes s p p.len) }) a)
      (setPlan p.id (fun q => { q with image := planBytes s p p.len, flags := 0 }) s)) := by
  rw [fxPlanLoad, hp]
  exact if_neg (not_not.mpr hstatus)

end

/-! Running (R106, R117) -/

section
variable {c : Fin 8} {corrected : List (Nat × Nat)} {s t : State} {p : Plan} {r : PhaseRun}

theorem exec_phaseComplete_of_running (hrun : runningPlan s c = some p) (hbusy : pressBusy s c = false)
    (hhash : (s.press.hashWait.any (fun h => h.1 == p.id)) = false) :
    exec (.phaseComplete ⟨c, corrected⟩) s = .next (settled (fxPhaseComplete p corrected s)) := by
  change execPhaseComplete ⟨c, corrected⟩ s = _
  rw [execPhaseComplete, hrun]
  simp [hbusy, hhash, done]

theorem fxPhaseComplete_of_stored (hstored : p.stored = true) : fxPhaseComplete p corrected s = nextPhase p.id s :=
  if_pos hstored

/-- A phase whose run or stores failed ends the plan with FAULT. -/
theorem fxPhaseComplete_of_hurt (hstored : p.stored = false)
    (hr : r = runPhase p.id (fetchPhaseRegs p (countCorrected corrected s))) (ht : t = flushRegs r.st)
    (hhurt : r.failed = true ∨ storesHurt p t = true) : fxPhaseComplete p corrected s = endPlan p.id .fault 0 t := by
  subst ht hr
  rw [fxPhaseComplete, if_neg (by simp [hstored])]
  exact if_pos (by simpa using hhurt)

/-- A phase whose stores have all been acknowledged is over. -/
theorem fxPhaseComplete_of_acknowledged (hstored : p.stored = false)
    (hr : r = runPhase p.id (fetchPhaseRegs p (countCorrected corrected s))) (ht : t = flushRegs r.st)
    (hok : r.failed = false) (hwhole : storesHurt p t = false)
    (hruns : (planOf t p.id).any (fun q => q.st == .running) = true) (hbusy : pressBusy t p.home = false) :
    fxPhaseComplete p corrected s = nextPhase p.id t := by
  subst ht hr
  simp [fxPhaseComplete, hstored, hok, hwhole, hruns, hbusy]

end

/-! Words poisoned at their source (R95, R128) -/

section
variable {c : Fin 8} {i : Fin 24} {s : State} {id : Nat} {p : Plan}

theorem exec_sourcePoisonReload_of_running (hplan : (cluster s c).plan = some id) (hst : (cluster s c).st = .running)
    (again : Bool) : exec (.sourcePoisonReload c i again) s = .next (settled (fxSourcePoison c i again id s)) := by
  change execSourcePoisonReload c i again s = _
  rw [execSourcePoisonReload, hplan]
  exact done_of_fits hst rfl

end

/-- Settles O3: on a cluster or plan that it fits, each command is the effect that its rules give. -/
theorem pressCommandsComplete : Obligations.PressCommandsComplete := by
  unfold Obligations.PressCommandsComplete
  refine ⟨?suspend, ?resume, ?resumeWaits, ?selftest, ?abort, ?clFreq, ?bridge, ?load, ?refused, ?spaceFreed, ?stored,
    ?acknowledged, ?hurt, ?checkFailure, ?quickPass, ?quickFail, ?selftestEnd, ?restartTimeout, ?reload, ?poisonedAgain,
    ?stall, ?absentRetry, ?scrubbed, ?scrubLost, ?hash, ?powerUp, ?powerDown⟩
  case suspend => exact fun _ _ hon => congrArg done (if_neg hon)
  case resume => exact fun _ _ hst hpass hmem => congrArg done (fxResume_of_suspended hst hpass hmem)
  case resumeWaits => exact fun _ _ hst => congrArg done (fxResume_of_selftest hst)
  case selftest => exact fun _ _ hst => done_of_fits (by simpa using hst) rfl
  case abort =>
    intro c s id hplan
    change execAbort c s = _
    rw [execAbort, hplan]
    rfl
  case clFreq => exact fun _ v _ hans => exec_clFreqWrite_of_answers hans v
  case bridge =>
    exact fun _ _ _ hans hv => congrArg done ((clusterWrite_of_answers hans _ _).trans (fxBridgeCtrl_of_enabled hv))
  case load =>
    intro c s p parts t hload hready hbudget hspace hstatus ht hp hparts
    have himage : planOf t p.id = some { p with image := planBytes s p p.len, flags := 0 } := by
      rw [ht, planOf_foldl_setCl, planOf_setPlan, hp]
      · rfl
      · exact fun _ => rfl
    refine ⟨Plan.startedOn ((placePlan (planBytes s p p.len)).getD []) parts, ?_, fun _ => ⟨rfl, rfl, rfl, rfl, rfl⟩⟩
    rw [exec_planLoad_of_ready hload hready hbudget hspace, fxPlanLoad_of_passed hp hstatus, ← ht,
      allocAndStart_of_space himage hparts]
  case refused =>
    intro c s p hload hp hready hbudget hspace hstatus
    rw [exec_planLoad_of_ready hload hready hbudget hspace, fxPlanLoad_of_failed hp hstatus]
  case spaceFreed =>
    intro c s p parts hload hp hspace hparts
    refine ⟨Plan.startedOn ((placePlan p.image).getD []) parts, ?_, fun _ => ⟨rfl, rfl, rfl, rfl, rfl⟩⟩
    rw [exec_scratchSpaceFreed_of_waiting hload hspace, allocAndStart_of_space hp hparts]
  case stored =>
    intro c corrected s p hrun hbusy hhash hstored
    rw [exec_phaseComplete_of_running hrun hbusy hhash, fxPhaseComplete_of_stored hstored]
  case acknowledged =>
    intro c corrected s p r t hrun hbusy hhash hstored hr ht hok hwhole hruns hbusyAfter
    rw [exec_phaseComplete_of_running hrun hbusy hhash,
      fxPhaseComplete_of_acknowledged hstored hr ht hok hwhole hruns hbusyAfter]
  case hurt =>
    intro c corrected s p r t hrun hbusy hhash hstored hr ht hhurt
    rw [exec_phaseComplete_of_running hrun hbusy hhash, fxPhaseComplete_of_hurt hstored hr ht hhurt]
  case checkFailure => exact fun _ _ _ _ _ hon => congrArg done (if_neg hon)
  case quickPass =>
    intro c s id hplan hfailed hcore hr hfirst
    change execQuickTestComplete c true s = _
    rw [execQuickTestComplete, hplan]
    exact done_of_fits (by simp [hfailed, hcore]) (fxQuickTest_of_pass hr hfirst id)
  case quickFail =>
    intro c s id hplan hfailed hcore hr
    change execQuickTestComplete c false s = _
    rw [execQuickTestComplete, hplan]
    exact done_of_fits (by simp [hfailed, hcore]) (fxQuickTest_of_fail hr id)
  case selftestEnd => exact fun _ _ _ _ _ hst hpass => done_of_fits hst (fxSelftestEnd_of_pass hpass)
  case restartTimeout => exact fun _ _ hon hcore => done_of_fits (by simp [hon, hcore]) rfl
  case reload =>
    intro c i s id p s1 mine hplan hst hp hs1 hmine hfirst
    subst hs1 hmine
    rw [exec_sourcePoisonReload_of_running hplan hst, fxSourcePoison, hp]
    simp only [hfirst]
    rfl
  case poisonedAgain =>
    intro c i again s id p hplan hst hp hagain
    rw [exec_sourcePoisonReload_of_running hplan hst, fxSourcePoison, hp]
    exact congrArg (fun u => Host.Outcome.next (settled u)) (if_pos (by simpa using hagain))
  case stall => exact fun _ _ hcause htold => done_of_fits (by simp [hcause, htold]) rfl
  case absentRetry => exact fun _ _ => rfl
  case scrubbed => exact fun _ i _ _ hon hst hn => done_of_fits (by simp [hon, hst]) (fxSramScrub_of_corrected hn i)
  case scrubLost => exact fun _ _ _ hon hst => done_of_fits (by simp [hon, hst]) rfl
  case hash => exact fun _ => rfl
  case powerUp =>
    exact fun _ _ _ hoff htray ht hcore => done_of_fits (by simp [hoff, or_assoc, htray]) (fxClusterPowerUp_of_core ht hcore)
  case powerDown => exact fun _ _ hon htray => done_of_fits (by simp [hon, htray]) rfl

end Sys2Proof.Machine

end PressCommands

/-! Assurance and Press orders (R275, 0x0601 to 0x0704). -/

section AssuranceAndPlanOrders

namespace Sys2Proof.Machine

section
variable {n : Nat} {p : Bytes} {s : State}

/-- A valid entry finds room while the registry is short of 4,096 (R158). -/
theorem fxReplayRegister_of_room {u : State} (hvalid : entryBreak s (fix 128 p) = none)
    (hroom : s.assure.registry.length < 4096)
    (hu : u = pressRead 8 (entAddr (fix 128 p)) (entLen (fix 128 p))
      { s with assure.registry := putEntry (fix 128 p) s.assure.registry }) :
    fxReplayRegister n p s = replyDone n []
      ((u.assure.caps.filter (fun c => c.st == .planWait && c.graph == entGraph (fix 128 p))).foldl (fun a c => toQueued c a) u) := by
  subst hu
  have hfull : ((entryOf s (entGraph (fix 128 p))).isNone && decide (4096 ≤ s.assure.registry.length)) ≠ true := by
    simp [hroom]
  simp only [fxReplayRegister, hvalid]
  exact if_neg hfull

theorem fxReplayRemove_of_entry (h : (entryOf s (fix 64 p)).isNone = false) : fxReplayRemove n p s =
    replyDone n [] { s with assure.registry := s.assure.registry.filter (fun x => entGraph x != fix 64 p) } :=
  if_neg (by simp [h])

theorem fxJobQuery_of_job {j : Job} (h : jobOf s (leAt p 0 8) = some j) : fxJobQuery n p s =
    replyDone n (leBytes 8 j.id ++ leBytes 8 (lcsField j.lcs) ++ leBytes 2 (openMode s j.id 0) ++ leBytes 2 (openMode s j.id 1)
      ++ leBytes 1 (b2n j.frozen) ++ zeros 3) s := by
  rw [fxJobQuery, h]

/-- A step that does not exceed LCS is one that the host may go back to (R173). -/
theorem fxJobRollback_of_step {j : Job} {u : State} (h : jobOf s (leAt p 0 8) = some j)
    (hstep : exceedsLcs (stepField (leAt p 8 8)) j.lcs = false) (hu : u = rollbackJob j.id (stepField (leAt p 8 8)) s) :
    fxJobRollback n p s = replyDone n (leBytes 8 j.id ++ leBytes 8 (lcsOf u j.id)
      ++ leBytes 4 ((openOf s j.id).filter (fun c => aboveStep (stepField (leAt p 8 8)) c.step)).length ++ zeros 4) u := by
  subst hu
  rw [fxJobRollback, h]
  exact if_neg (by simp [hstep])

theorem fxJobClose_of_no_capsule {j : Job} (h : jobOf s (leAt p 0 8) = some j) (hopen : openOf s j.id = []) :
    fxJobClose n p s = replyDone n [] (raise 9 6 noInst (leBytes 8 j.id ++ leBytes 8 (lcsField j.lcs))
      { s with assure.jobs := s.assure.jobs.filter (fun x => x.id != j.id) }) := by
  rw [fxJobClose, h]
  exact if_neg (by simp [hopen])

/-- A capsule that waits for a plan or for the host is released by a decision (R169). -/
theorem fxCapsuleRelease_of_waiting {c : Capsule} (hacc : leAt p 0 1 ≤ 7) (hlo : 1 ≤ leAt p 1 1) (hhi : leAt p 1 1 ≤ 3)
    (hc : capOf s (.acc (leAt p 0 1)) (leAt p 8 8) = some c) (hst : c.st = .planWait ∨ c.st = .hostWait) :
    fxCapsuleRelease n p s = replyDone n [] (releaseCap c (leAt p 1 1) s) := by
  have hdecision : ¬ (decide (leAt p 1 1 < 1) || decide (3 < leAt p 1 1)) = true := by
    simp only [Bool.or_eq_true, decide_eq_true_eq]
    omega
  simp only [fxCapsuleRelease, if_neg (Nat.not_lt.mpr hacc), if_neg hdecision, hc]
  exact if_pos (by simpa using hst)

theorem fxAccUntag_of_acc (h : leAt p 0 1 ≤ 7) : fxAccUntag n p s = replyDone n [] (clearTag (leAt p 0 1) s) :=
  if_neg (Nat.not_lt.mpr h)

theorem fxDarnQuery_of_count (hlo : 1 ≤ leAt p 4 4) (hhi : leAt p 4 4 ≤ 2048) : fxDarnQuery n p s =
    replyDone n (((s.assure.darns.drop (leAt p 0 4)).take (min (leAt p 4 4) (mostDarns n))).flatMap darnEntry) s :=
  if_neg (by simp only [Bool.or_eq_true, decide_eq_true_eq]; omega)

/-- A valid range enters a host plan while fewer than 256 have not ended (R115, R139). -/
theorem fxPlanSubmit_of_room (hlen : imageLenOk (leAt p 8 4) = true) (haddr : imageAddrOk s (leAt p 0 8) (leAt p 8 4) = true)
    (hroom : hostPlans s < 256) : fxPlanSubmit n p s = submitHost n (leAt p 0 8) (leAt p 8 4) s := by
  have hfree : ¬ hostPlans s ≥ 256 := Nat.not_le.mpr hroom
  simp [fxPlanSubmit, hlen, haddr, hfree]

theorem fxPlanQuery_of_seen {q : Plan} (h : planSeen s n (leAt p 0 8) = some q) : fxPlanQuery n p s =
    replyDone n (leBytes 8 q.id ++ leBytes 1 q.st.code ++ leBytes 1 (homeShown s q) ++ zeros 2 ++ leBytes 2 q.stagesDone
      ++ leBytes 2 (nStages (planHead s q)) ++ leBytes 8 (leAt (planHead s q) 48 8) ++ leBytes 1 q.flags ++ zeros 7) s := by
  rw [fxPlanQuery, h]

theorem fxPlanAbort_of_seen {q : Plan} (h : planSeen s n (leAt p 0 8) = some q) (hlive : q.ended = false) :
    fxPlanAbort n p s = replyDone n [] (fxAbort q.id s) := by
  rw [fxPlanAbort, h]
  exact if_neg (by simp [hlive])

/-! CLUSTER_CTRL, by its ACTION (R104, R105) -/

theorem fxClusterCtrl_of_suspend (hc : leAt p 0 1 ≤ 7) (ha : leAt p 1 1 = 0) :
    fxClusterCtrl n p s = ctrlSuspend n (leAt p 0 1) s := by
  simp [fxClusterCtrl, Nat.not_lt.mpr hc, ha]

theorem fxClusterCtrl_of_resume (hc : leAt p 0 1 ≤ 7) (ha : leAt p 1 1 = 1) :
    fxClusterCtrl n p s = ctrlResume n (leAt p 0 1) s := by
  simp [fxClusterCtrl, Nat.not_lt.mpr hc, ha]

theorem fxClusterCtrl_of_selftest (hc : leAt p 0 1 ≤ 7) (ha : leAt p 1 1 = 2) :
    fxClusterCtrl n p s = ctrlTest n (leAt p 0 1) s := by
  simp [fxClusterCtrl, Nat.not_lt.mpr hc, ha]

end

/-- Settles O13: a taken order that its own rule admits is the effect of that rule, with its reply. -/
theorem assuranceAndPlanOrdersComplete : Obligations.AssuranceAndPlanOrdersComplete := by
  unfold Obligations.AssuranceAndPlanOrdersComplete
  rintro n s t p rfl rfl
  refine ⟨?policy, ?register, ?remove, ?jobQuery, ?rollback, ?jobClose, ?release, ?accUntag, ?darnQuery, ?selfUntag,
    ?submit, ?planQuery, ?planAbort, ?suspend, ?resume, ?selftest⟩
  case policy => exact fun h => done_onOrder_of_taken h rfl
  case register => exact fun _ h hvalid hroom hu => done_onOrder_of_taken h (fxReplayRegister_of_room hvalid hroom hu)
  case remove => exact fun h hentry => done_onOrder_of_taken h (fxReplayRemove_of_entry hentry)
  case jobQuery => exact fun _ h hj => done_onOrder_of_taken h (fxJobQuery_of_job hj)
  case rollback =>
    rintro j _ u h hj rfl hstep hu
    exact done_onOrder_of_taken h (fxJobRollback_of_step hj hstep hu)
  case jobClose => exact fun _ h hj hopen => done_onOrder_of_taken h (fxJobClose_of_no_capsule hj hopen)
  case release =>
    exact fun _ h hacc hlo hhi hc hst => done_onOrder_of_taken h (fxCapsuleRelease_of_waiting hacc hlo hhi hc hst)
  case accUntag => exact fun h hacc => done_onOrder_of_taken h (fxAccUntag_of_acc hacc)
  case darnQuery => exact fun h hlo hhi => done_onOrder_of_taken h (fxDarnQuery_of_count hlo hhi)
  case selfUntag => exact fun h => done_onOrder_of_taken h rfl
  case submit =>
    rintro _ h hlen haddr hroom rfl
    exact done_onOrder_of_taken h (fxPlanSubmit_of_room hlen haddr hroom)
  case planQuery => exact fun _ h hq => done_onOrder_of_taken h (fxPlanQuery_of_seen hq)
  case planAbort => exact fun _ h hq hlive => done_onOrder_of_taken h (fxPlanAbort_of_seen hq hlive)
  case suspend =>
    exact fun h hc ha hon => done_onOrder_of_taken h ((fxClusterCtrl_of_suspend hc ha).trans (if_neg hon))
  case resume =>
    exact fun h hc ha hst => done_onOrder_of_taken h ((fxClusterCtrl_of_resume hc ha).trans (if_pos hst))
  case selftest =>
    exact fun h hc ha hst => done_onOrder_of_taken h ((fxClusterCtrl_of_selftest hc ha).trans (if_pos (by simp [hst])))

end Sys2Proof.Machine

end AssuranceAndPlanOrders

/-! The commands of steps, capsules, replays, peers and delegation (05). -/

section CapsuleCommands

namespace Sys2Proof.Machine

/-! Steps and capsules of an accelerator (R150, R153) -/

section
variable {a : Fin 8} {p : Bytes} {s t : State} {c : Capsule}

theorem exec_stepOpen_of_up (hup : (port s a).st = .up) (hcore : coreUp 2 s = true) :
    exec (.stepOpen a p) s = .next (settled (fxStepOpen a p s)) :=
  done_of_fits (by simp [hup, hcore]) rfl

theorem exec_capsule_of_up (hup : (port s a).st = .up) (hcore : coreUp 2 s = true) :
    exec (.capsule a p) s = .next (settled (fxCapsule a p s)) :=
  done_of_fits (by simp [hup, hcore]) rfl

/-- Where the windows stand the port shows no error. -/
theorem fxCapsule_of_windows (hw : (port (takeInbox a 1 3 p s) a).windows.isNone = false)
    (hc : c = { src := .acc a, id := leAt p 8 8, body := p }) (ht : t = touchJob c.job (takeInbox a 1 3 p s)) :
    fxCapsule a p s =
      sendAcc a true { cls := 1, typ := 4, len := 9, payload := leBytes 8 c.id ++ leBytes 1 (capsuleStatus t a c) }
        (if capsuleStatus t a c = 0 then acceptCapsule c t else if c.mode = 0 then raise 9 2 a [] t else t) := by
  subst hc ht
  simp only [fxCapsule, hw]
  rfl

end

/-! The fetch (R159, R177) -/

section
variable {src cid : Nat} {s : State} {c : Capsule}

theorem exec_capsuleFetchComplete_of_over (hc : capIn s src cid .fetching = some c) (hover : fetchOver s c = true) :
    exec (.capsuleFetchComplete src cid) s = .next (settled (fxFetched c s)) := by
  change execCapsuleFetchComplete src cid s = _
  rw [execCapsuleFetchComplete, hc]
  exact done_of_fits hover rfl

end

/-! The end of a replay (R161) -/

section
variable {src cid : Nat} {s : State} {c : Capsule} {p : Plan}

theorem exec_replayComplete_of_ended (hc : capIn s src cid .replaying = some c) (hp : endedPlan s c.planId = some p) :
    exec (.replayComplete src cid) s = .next (settled (fxReplayEnd c p s)) := by
  change execReplayComplete src cid s = _
  rw [execReplayComplete, hc]
  dsimp only
  rw [hp]
  rfl

/-- A COMPARE record with RESULT 2 (POISON) is no result: the replay runs again. -/
theorem fxReplayEnd_of_poisoned (hst : p.st = .done) (hcmp : c.cmp ≠ 2) (hres : compareResult p = 2) :
    fxReplayEnd c p s = toQueued { takeReports c p with planId := none } (dropPlan p.id s) := by
  rw [fxReplayEnd, if_pos hst]
  exact if_pos (by simp [hcmp, hres])

/-- What follows a replay whose comparison stands. -/
theorem fxReplayEnd_of_compared (hst : p.st = .done) (hres : c.cmp = 2 ∨ compareResult p ≠ 2) {d e : Capsule}
    (hd : d = { takeReports c p with planId := none })
    (he : e = { d with st := .peerWait, tried := [], peers := [], peerDigests := [] }) :
    fxReplayEnd c p s =
      if replayAgrees d p then finishCap d Vd.CLEAN id (dropPlan p.id s)
      else startPeerPlan e (setCap c.order (fun _ => e) (dropPlan p.id s)) := by
  subst hd he
  have hstands : ¬ (decide (c.cmp ≠ 2) && decide (compareResult p = 2)) = true := by
    simpa [Classical.or_iff_not_imp_left] using hres
  rw [fxReplayEnd, if_pos hst]
  exact if_neg hstands

theorem fxReplayEnd_of_aborted (hst : p.st = .aborted) : fxReplayEnd c p s = toQueued c (dropPlan p.id s) := by
  simp [fxReplayEnd, hst]

/-- Persistent source POISON leaves the capsule to the host. -/
theorem fxReplayEnd_of_sourcePoison (hst : p.st = .fault) (hreason : p.reason = 2) : fxReplayEnd c p s =
    toHostWait { c with sourcePoison := true, planId := none, clusters := planMask p }
      (raise 9 8 c.src.code (leBytes 8 c.id ++ leBytes 1 c.src.code) (dropPlan p.id s)) := by
  simp [fxReplayEnd, hst, hreason]

end

/-! Peers (R164, R165, R167) -/

section
variable {src cid : Nat} {s : State} {c : Capsule}

/-- Before a peer has been asked. -/
theorem exec_peerPlanCopyComplete_of_unasked (hc : capIn s src cid .peerWait = some c) (hreq : c.req = none)
    (htried : c.tried = []) (hpeers : c.peers = []) :
    exec (.peerPlanCopyComplete src cid) s = .next (settled (fxPeerCopy c s)) := by
  change execPeerPlanCopyComplete src cid s = _
  rw [execPeerPlanCopyComplete, hc]
  exact done_of_fits (by simp [hreq, htried, hpeers]) rfl

theorem fxPeerCopy_of_ready {a n : Nat} (hplan : c.peerPlan = some (a, n)) (hready : peerCopiesReady s c = true) :
    fxPeerCopy c s = fxPeerPlan c a s := by
  rw [fxPeerCopy, hplan]
  exact if_pos hready

theorem fxPeerCopy_of_no_plan (hplan : c.peerPlan = none) : fxPeerCopy c s = startPeerPlan c s := by
  rw [fxPeerCopy, hplan]

theorem exec_peerRetry_of_peerWait (hc : capIn s src cid .peerWait = some c) (hst : c.st = .peerWait) (hreq : c.req = none) :
    exec (.peerRetry src cid) s = .next (settled (askNext { c with tried := [] } s)) := by
  change execPeerRetry src cid s = _
  rw [execPeerRetry, hc]
  exact done_of_fits (by simp [hst]) (by simp [fxPeerRetry, hst, hreq])

theorem exec_peerRetry_of_delegated (hno : capIn s src cid .peerWait = none) (hc : capIn s src cid .replaying = some c)
    (hst : c.st = .replaying) (hdel : c.delegated = true) (hsent : c.sentTo = none) :
    exec (.peerRetry src cid) s = .next (settled (delegateNext { c with tried := [] } s)) := by
  change execPeerRetry src cid s = _
  rw [execPeerRetry, hno, hc]
  exact done_of_fits (by simp [hdel]) (by simp [fxPeerRetry, hst, hsent])

end

section
variable {node : Nat} {p : Bytes} {s t : State} {c d : Capsule} {digest : Bytes}

/-- THIRD_RESULT of the peer that was asked. -/
theorem exec_thirdResult_of_asked (hcore : coreUp 2 s = true) (ht : t = takeSeams 1 0x11 node p s)
    (hc : t.assure.caps.find? (fun c => c.st == .peerWait && c.req == some (leAt p 0 8, node)) = some c) :
    exec (.thirdResult node p) s =
      .next (settled (if leAt p 10 1 = 0 then peerResult c node (slice p 16 64) t else passPeer c t)) := by
  subst ht
  refine done_of_fits hcore ?_
  simp only [fxThirdResult, hc]

/-- The capsule after a result of a peer: the peer and its digest are counted. -/
def Capsule.heard (c : Capsule) (node : Nat) (digest : Bytes) : Capsule :=
  { c with req := none, peers := c.peers ++ [node], peerDigests := c.peerDigests ++ [digest] }

/-- A peer that agrees with the Press alone decides against the accelerator. -/
theorem peerResult_of_press (hp : (peerAgrees s c digest).1 = true) (ha : (peerAgrees s c digest).2 = false) :
    peerResult c node digest s = decideCap (c.heard node digest) Vd.FAULTY_ACC s := by
  have hagree : peerAgrees s c digest = (true, false) := Prod.ext hp ha
  rw [peerResult, hagree]
  rfl

/-- A peer that agrees with the accelerator alone decides against the Press. -/
theorem peerResult_of_acc (hp : (peerAgrees s c digest).1 = false) (ha : (peerAgrees s c digest).2 = true) :
    peerResult c node digest s = decideCap (c.heard node digest) Vd.FAULTY_SELF s := by
  have hagree : peerAgrees s c digest = (false, true) := Prod.ext hp ha
  rw [peerResult, hagree]
  rfl

/-- An indecisive result is recorded for the capsule of an accelerator. -/
def recordUndecided (c d : Capsule) (s : State) : State :=
  match c.src with
  | .acc k => logVerdict k Vd.UNRESOLVED (fun n => verdictRecord s n d Vd.UNRESOLVED) s
  | .node _ => s

/-- A peer that agrees with both or with neither leads to the next peer, the third to the host. -/
theorem peerResult_of_indecisive (h : (peerAgrees s c digest).1 = (peerAgrees s c digest).2)
    (hd : d = c.heard node digest) : peerResult c node digest s =
      if d.peers.length < 3 then askNext d (setCap c.order (fun _ => d) (recordUndecided c d s))
      else toHostWait d (recordUndecided c d s) := by
  subst hd
  obtain ⟨x, hagree⟩ : ∃ x, peerAgrees s c digest = (x, x) := ⟨_, Prod.ext rfl h.symm⟩
  rw [peerResult, hagree]
  cases x
  · rfl
  · rfl

end

/-! Delegation, verdicts, and executions for peers (R166, R168, R170, R177) -/

section
variable {node : Nat} {p : Bytes} {s t : State}

theorem exec_verdictDelivered_of_done {src cid : Nat} {c : Capsule}
    (hc : s.assure.caps.find? (fun c => c.src == srcOf src && c.id == cid && c.st == .done) = some c) :
    exec (.verdictDelivered src cid) s =
      .next (settled { s with assure.caps := s.assure.caps.filter (fun x => x.order != c.order) }) := by
  change execVerdictDelivered src cid s = _
  rw [execVerdictDelivered, hc]
  rfl

/-- A node that has not tagged itself takes the capsule into its table. -/
theorem fxDelegateCapsule_of_serving (ht : t = takeSeams 1 0x14 node p s) (hen : rdBit t R.AS_CTRL 4 = true)
    (htag : t.assure.selfTag = false) :
    fxDelegateCapsule node p s = acceptCapsule { src := .node node, id := leAt p 8 8, body := p } t := by
  subst ht
  exact if_neg (by simp [hen, htag])

theorem exec_delegateVerdict_of_sent {c : Capsule} (hcore : coreUp 2 s = true)
    (hc : s.assure.caps.find? (fun c => c.st == .replaying && c.sentTo == some node && c.id == leAt p 0 8
      && c.job == leAt p 16 8 && c.step == leAt p 24 8) = some c) :
    exec (.delegateVerdict node p) s =
      .next (settled (decideCap (fromRecord c (slice p 40 512)) (leAt p 8 1) (takeSeams 1 0x15 node p s))) := by
  refine done_of_fits hcore ?_
  rw [hc]

/-- A third execution begins with the read of its plan. -/
theorem fxThirdReq_of_serving (hen : rdBit s R.AS_CTRL 4 = true) (htag : s.assure.selfTag = false) :
    fxThirdReq node p s = pressRead 8 (nodeAddr node (leAt p 80 8)) (leAt p 88 4)
      { s with assure.thirds := s.assure.thirds.concat { node := node, body := p, slot := freeWork s } } :=
  if_neg (by simp [hen, htag])

theorem fxThirdReq_of_selfTag (htag : s.assure.selfTag = true) : fxThirdReq node p s = sendThird node (leAt p 0 8) 1 [] s :=
  if_pos (by simp [htag])

theorem exec_thirdExecutionComplete_of_ended {req : Nat} {w : Third} {q : Plan}
    (hw : s.assure.thirds.find? (fun t => t.node == node && leAt t.body 0 8 == req) = some w)
    (hq : endedPlan s w.planId = some q) (hcore : coreUp 2 s = true) :
    exec (.thirdExecutionComplete node req) s = .next (settled (fxThirdEnd w q s)) := by
  change execThirdExecutionComplete node req s = _
  rw [execThirdExecutionComplete, hw]
  dsimp only
  rw [hq]
  exact done_of_fits hcore rfl

/-- Where no output is to be written to the requester the answer goes out at once. -/
theorem fxThirdEnd_of_no_output {w : Third} {q : Plan} (hst : w.st = .running)
    (h : reportInput q (nStages q.image - 1) 0 = none ∨ leAt w.body 10 1 ≠ 1) : fxThirdEnd w q s = thirdAnswer w q s := by
  simp only [fxThirdEnd, hst]
  split
  · next x hx =>
    have hmode : leAt w.body 10 1 ≠ 1 := h.resolve_left (by simp [hx])
    exact if_neg (by simp [hmode])
  · rfl

end

/-- Settles O4: in a state that its event fits, each command is the effect that its rules give. -/
theorem capsuleCommandsComplete : Obligations.CapsuleCommandsComplete := by
  unfold Obligations.CapsuleCommandsComplete
  refine ⟨?step, ?accepted, ?rejected, ?fetched, ?fetchedToDelegate, ?poisoned, ?aborted, ?agrees, ?differs, ?sourcePoison,
    ?copiesReady, ?noPeerPlan, ?faultyAcc, ?faultySelf, ?indecisive, ?passed, ?peerRetry, ?delegateRetry, ?delivered,
    ?delegate, ?delegateVerdict, ?third, ?thirdDeclined, ?thirdEnd⟩
  case step =>
    rintro a p s t hup hcore rfl
    exact exec_stepOpen_of_up hup hcore
  case accepted =>
    intro a p s c t hup hcore hw hc ht hstatus
    rw [exec_capsule_of_up hup hcore, fxCapsule_of_windows hw hc ht, if_pos hstatus, hstatus, hc]
  case rejected =>
    intro a p s c t hup hcore hw hc ht hstatus
    rw [exec_capsule_of_up hup hcore, fxCapsule_of_windows hw hc ht, if_neg hstatus, hc]
  case fetched =>
    intro src cid s c hc hover hdel
    rw [exec_capsuleFetchComplete_of_over hc hover, fxFetched, hdel]
    rfl
  case fetchedToDelegate =>
    intro src cid s c hc hover hdel
    rw [exec_capsuleFetchComplete_of_over hc hover, fxFetched, hdel]
    rfl
  case poisoned =>
    intro src cid s c p hc hp hst hcmp hres
    rw [exec_replayComplete_of_ended hc hp, fxReplayEnd_of_poisoned hst hcmp hres]
  case aborted =>
    intro src cid s c p hc hp hst
    rw [exec_replayComplete_of_ended hc hp, fxReplayEnd_of_aborted hst]
  case agrees =>
    intro src cid s c p hc hp hst hres hagree
    rw [exec_replayComplete_of_ended hc hp, fxReplayEnd_of_compared hst hres rfl rfl, if_pos hagree]
  case differs =>
    rintro src cid s c p e hc hp hst hres hagree rfl
    rw [exec_replayComplete_of_ended hc hp, fxReplayEnd_of_compared hst hres rfl rfl, if_neg (ne_true_of_eq_false hagree)]
  case sourcePoison =>
    intro src cid s c p hc hp hst hreason
    rw [exec_replayComplete_of_ended hc hp, fxReplayEnd_of_sourcePoison hst hreason]
  case copiesReady =>
    intro src cid s c a n hc hreq htried hpeers hplan hready
    rw [exec_peerPlanCopyComplete_of_unasked hc hreq htried hpeers, fxPeerCopy_of_ready hplan hready]
  case noPeerPlan =>
    intro src cid s c hc hreq htried hpeers hplan
    rw [exec_peerPlanCopyComplete_of_unasked hc hreq htried hpeers, fxPeerCopy_of_no_plan hplan]
  case faultyAcc =>
    intro node p s c t hcore ht hc hstatus hp ha
    rw [exec_thirdResult_of_asked hcore ht hc, if_pos hstatus, peerResult_of_press hp ha]
    rfl
  case faultySelf =>
    intro node p s c t hcore ht hc hstatus hp ha
    rw [exec_thirdResult_of_asked hcore ht hc, if_pos hstatus, peerResult_of_acc hp ha]
    rfl
  case indecisive =>
    intro node p s c t d hcore ht hc hstatus hsame hd
    rw [exec_thirdResult_of_asked hcore ht hc, if_pos hstatus, peerResult_of_indecisive hsame hd]
    rfl
  case passed =>
    intro node p s c t hcore ht hc hstatus
    rw [exec_thirdResult_of_asked hcore ht hc, if_neg hstatus, passPeer]
  case peerRetry => exact fun _ _ _ _ hc hst hreq => exec_peerRetry_of_peerWait hc hst hreq
  case delegateRetry => exact fun _ _ _ _ hno hc hst hdel hsent => exec_peerRetry_of_delegated hno hc hst hdel hsent
  case delivered => exact fun _ _ _ _ hc => exec_verdictDelivered_of_done hc
  case delegate =>
    exact fun _ _ _ _ hcore hroom ht hen htag =>
      done_of_fits (by simp [hcore, hroom]) (fxDelegateCapsule_of_serving ht hen htag)
  case delegateVerdict => exact fun _ _ _ _ hcore hc => exec_delegateVerdict_of_sent hcore hc
  case third =>
    rintro node p s t hcore hroom rfl hen htag
    exact done_of_fits (by simp [hcore, hroom]) (fxThirdReq_of_serving hen htag)
  case thirdDeclined =>
    rintro node p s t hcore hroom rfl htag
    exact done_of_fits (by simp [hcore, hroom]) (fxThirdReq_of_selfTag htag)
  case thirdEnd =>
    intro node req s w q hw hq hcore hst hout
    rw [exec_thirdExecutionComplete_of_ended hw hq hcore, fxThirdEnd_of_no_output hst hout]

end Sys2Proof.Machine

end CapsuleCommands

/-! The commands of darns and of screening (05). -/

section DarnCommands

namespace Sys2Proof.Machine

/-! What a checked read of tray DRAM leaves of the registers (R201): it writes those of the memory block, and an event that
it raises may be counted as coalesced or lost. -/

section
variable {o : Nat}

theorem rd_bumpBy_other {off : Nat} (h : o ≠ off) (n : Nat) (s : State) : rd (bumpBy off n s) o = rd s o :=
  rd_wr_other h _ s

theorem rd_foldl {α : Type} (f : State → α → State) (h : ∀ s x, rd (f s x) o = rd s o) (xs : List α) (s : State) :
    rd (xs.foldl f s) o = rd s o := by
  induction xs generalizing s with
  | nil => rfl
  | cons x xs ih => rw [List.foldl_cons, ih, h]

theorem rd_enqueueEvent (hlost : o ≠ R.CNT_LOST) (e : Ev) (s : State) : rd (enqueueEvent e s) o = rd s o := by
  unfold enqueueEvent
  split
  · rfl
  · exact rd_bumpBy_other hlost 1 _

theorem rd_raise (hlost : o ≠ R.CNT_LOST) (hcoal : o ≠ R.CNT_COALESCED) (cls code inst : Nat) (data : Bytes) (s : State) :
    rd (raise cls code inst data s) o = rd s o := by
  unfold raise raiseEvent
  split
  · exact rd_bumpBy_other hcoal 1 _
  split
  · rw [rd_enqueueEvent hlost]
    split <;> rfl
  · exact rd_enqueueEvent hlost _ s

variable (hmem : o < 0x20000000) (hlost : o ≠ R.CNT_LOST) (hcoal : o ≠ R.CNT_COALESCED)
include hmem hlost hcoal

theorem rd_countLane (q j : Nat) (s : State) : rd (countLane q j s) o = rd s o := by
  have hlane : o ≠ if j < 32 then R.LANE_SUSPECT_LO q else R.LANE_SUSPECT_HI q := by
    unfold R.LANE_SUSPECT_LO R.LANE_SUSPECT_HI
    split <;> omega
  unfold countLane
  dsimp only
  split
  · rw [rd_raise hlost hcoal, rd_setBits_other hlane]
    rfl
  · rfl

theorem rd_wordCorrected (a : Nat) (w : Bytes) (bytes : List Nat) (s : State) :
    rd (wordCorrected a w bytes s) o = rd s o := by
  have hcnt (q : Nat) : o ≠ R.MEM_CNT_CE q := by unfold R.MEM_CNT_CE; omega
  exact (rd_foldl _ (fun t j => rd_countLane hmem hlost hcoal _ j t) bytes _).trans (rd_bumpBy_other (hcnt _) 1 s)

theorem rd_wordLost (a reader : Nat) (w : Bytes) (s : State) : rd (wordLost a reader w s) o = rd s o := by
  have hcnt (q : Nat) : o ≠ R.MEM_CNT_UE q := by unfold R.MEM_CNT_UE; omega
  have hhead : o ≠ R.UE_HEAD := by unfold R.UE_HEAD; omega
  have hlog (i k : Nat) : o ≠ R.UE_LOG i k := by unfold R.UE_LOG; omega
  unfold wordLost
  dsimp only
  rw [rd_raise hlost hcoal, bump, rd_bumpBy_other (hcnt _), bump, rd_bumpBy_other hhead,
    rd_foldl _ (fun t k => rd_wr_other (hlog _ k) _ t)]
  rfl

theorem rd_readWord (a reader : Nat) (e1 e2 : Bytes) (s : State) : rd (readWord a reader e1 e2 s).1 o = rd s o := by
  unfold readWord
  dsimp only
  split
  · rfl
  · exact rd_wordCorrected hmem hlost hcoal _ _ _ s
  · split
    · exact rd_wordCorrected hmem hlost hcoal _ _ _ s
    · exact rd_wordCorrected hmem hlost hcoal _ _ _ s
    · exact rd_wordLost hmem hlost hcoal _ _ _ s

theorem rd_dramLoad (reader a n : Nat) (s : State) : rd (dramLoad reader a n s).1 o = rd s o := by
  have hfold (ws : List Nat) (x : State × List Nat) :
      rd (ws.foldl (fun (x : State × List Nat) w =>
        let y := readWord w reader [] [] x.1
        (y.1, if y.2 then x.2 ++ [w] else x.2)) x).1 o = rd x.1 o := by
    induction ws generalizing x with
    | nil => rfl
    | cons w ws ih => rw [List.foldl_cons, ih, rd_readWord hmem hlost hcoal]
  exact hfold _ (s, [])

end

/-- The library stands where it stood. -/
theorem slotAddr_dramLoad (reader a n : Nat) (s : State) (slot : Nat) :
    slotAddr (dramLoad reader a n s).1 slot = slotAddr s slot := by
  have hlib : rd (dramLoad reader a n s).1 R.LIB_AREA = rd s R.LIB_AREA :=
    rd_dramLoad (by decide) (by decide) (by decide) reader a n s
  rw [slotAddr, areaBase, rdFld, hlib]
  rfl

/-! Capture (R178 to R181) -/

theorem exec_darnCaptureComplete_of_ended {src cid : Nat} {s : State} {k : Capture} {p : Plan}
    (hk : s.assure.captures.find? (fun k => k.src == srcOf src && k.id == cid) = some k)
    (hp : endedPlan s (some k.planId) = some p) (hcore : coreUp 2 s = true) (hsec : secOperational s = true) :
    exec (.darnCaptureComplete src cid) s = .next (settled (fxCaptured k p s)) := by
  change execDarnCaptureComplete src cid s = _
  rw [execDarnCaptureComplete, hk]
  dsimp only
  rw [hp]
  exact done_of_fits (by simp [hcore, hsec]) rfl

/-! Offers (R181, R184, R449) -/

section
variable {j : Fin 4} {p : Bytes} {s t : State}

/-- An offer that is ignored needs no key, one that is taken up needs the memory and the key of its origin. -/
theorem exec_darnOffer_of_up (hup : (port s (8 + j)).st = .up) (hcore : coreUp 2 s = true)
    (h : offerIgnored s (leAt p 0 16) (leAt p 18 4) = true ∨
      memReady s = true ∧ (originKeys s (leAt p 16 2)).isEmpty = false) :
    exec (.darnOffer j p) s = .next (settled (fxDarnOffer j p s)) :=
  done_of_fits (by simpa [hup, hcore] using h) rfl

theorem fxDarnOffer_of_ignored (h : offerIgnored s (leAt p 0 16) (leAt p 18 4) = true) :
    fxDarnOffer j p s = takeInbox (8 + j) 1 0x12 p s :=
  if_pos h

theorem exec_darnWant_of_up (hup : (port s (8 + j)).st = .up) (hcore : coreUp 2 s = true) :
    exec (.darnWant j p) s = .next (settled (fxDarnWant j p s)) :=
  done_of_fits (by simp [hup, hcore]) rfl

/-- A darn that is held and not quarantined is offered to the neighbour that asks for it. -/
theorem fxDarnWant_of_held {d : Darn} (ht : t = takeInbox (8 + j) 1 0x13 p s) (hen : rdBit t R.AS_CTRL 3 = true)
    (hd : darnOf t (leAt p 0 16) = some d) (hheld : darnHeld t d = true) (hq : d.quarantined = false) :
    fxDarnWant j p s = sendSeam j false (offerMsg t d) t := by
  subst ht
  rw [fxDarnWant, if_pos hen, offerOn, hd]
  exact if_pos (by simp [hheld, hq])

end

/-! Fetch and preparation (R181, R182) -/

section
variable {darn : Nat} {s : State} {w : DarnWork}

theorem exec_darnFetchComplete_of_ready (hw : s.assure.fetches.find? (fun w => w.id == darn) = some w)
    (hcore : coreUp 2 s = true) (hplan : w.planId = none) (hready : rangeReady s (nodeAddr w.node w.addr) w.len = true) :
    exec (.darnFetchComplete darn) s = .next (settled (fxDarnFetched w s)) := by
  change execDarnFetchComplete darn s = _
  rw [execDarnFetchComplete, hw]
  exact done_of_fits (by simp [hcore, hplan, hready]) rfl

/-- A darn that fails its checks is forgotten, one of the index takes its slot again, a new one is prepared. -/
theorem fxDarnFetched_eq {x : Option Darn} (hx : darnOf s w.id = x) : fxDarnFetched w s =
    if darnOk s w (fetchedDarn s w) then
      x.elim (submitPrep w (fetchedDarn s w) none s) (fun d => fillSlot d (fetchedDarn s w) (dropFetch w s))
    else dropFetch w s := by
  rw [fxDarnFetched, hx]
  cases darnOk s w (fetchedDarn s w)
  · rfl
  · cases x <;> rfl

variable {p : Plan}

theorem exec_darnPreparationComplete_of_ended (hw : s.assure.fetches.find? (fun w => w.id == darn) = some w)
    (hp : endedPlan s w.planId = some p) (hcore : coreUp 2 s = true) :
    exec (.darnPreparationComplete darn) s = .next (settled (fxPrepEnd w p s)) := by
  change execDarnPreparationComplete darn s = _
  rw [execDarnPreparationComplete, hw]
  dsimp only
  rw [hp]
  exact done_of_fits hcore rfl

/-- Where the first run gives the expected digest no cluster is at fault. -/
theorem fxPrepEnd_of_expected (hst : p.st = .done)
    (hdigest : reportBytes p (nStages p.image - 1) = darnExpect (fetchedDarn s w)) (hfirst : w.firstOn = none) :
    fxPrepEnd w p s = fxPrepared w (fetchedDarn s w) (dropPlan p.id s) := by
  rw [fxPrepEnd, if_pos hst, if_pos hdigest, hfirst]

/-- A second cluster contradicts the darn as the first did. -/
theorem fxPrepEnd_of_contradicted {m : Nat} (hst : p.st = .done)
    (hdigest : reportBytes p (nStages p.image - 1) ≠ darnExpect (fetchedDarn s w)) (hfirst : w.firstOn = some m) :
    fxPrepEnd w p s = fxQuarantine w (fetchedDarn s w) (dropPlan p.id s) := by
  rw [fxPrepEnd, if_pos hst, if_neg hdigest, hfirst]

end

/-! Screening (R183) -/

section
variable {a : Fin 8} {p : Bytes} {s r : State} {d : Darn}

/-- The result of the darn that is being screened. -/
theorem exec_screenResult_of_screened (hup : (port s a).st = .up) (hcore : coreUp 2 s = true)
    (hr : r = takeInbox a 1 7 p s) (hscreen : r.assure.screening.get none a.val = some (leAt p 0 16))
    (hd : darnOf r (leAt p 0 16) = some d) :
    exec (.screenResult a p) s = .next (settled (fxScreened a d (slice p 16 64) r)) := by
  subst hr
  refine done_of_fits (by simp [hup, hcore]) ?_
  simp only [fxScreenResult, hscreen, hd, if_true]

end

/-- Settles O5: in a state that its event fits, each command is the effect that its rules give. -/
theorem darnCommandsComplete : Obligations.DarnCommandsComplete := by
  unfold Obligations.DarnCommandsComplete
  refine ⟨?captured, ?offered, ?ignored, ?fetched, ?refilled, ?prepared, ?quarantined, ?wanted, ?screenAgrees, ?screenDiffers⟩
  case captured =>
    rintro src cid s k p d e hk hp hcore hsec hst rfl rfl
    rw [exec_darnCaptureComplete_of_ended hk hp hcore hsec, fxCaptured]
    exact congrArg done (if_pos hst)
  case offered =>
    intro j p s hup hcore hmem hkey hnew
    rw [exec_darnOffer_of_up hup hcore (.inr ⟨hmem, hkey⟩), fxDarnOffer]
    exact congrArg done (if_neg (ne_true_of_eq_false hnew))
  case ignored =>
    intro j p s hup hcore h
    rw [exec_darnOffer_of_up hup hcore (.inl h), fxDarnOffer_of_ignored h]
  case fetched =>
    intro darn s w hw hcore hplan hready hx
    rw [exec_darnFetchComplete_of_ready hw hcore hplan hready, fxDarnFetched_eq hx]
    rfl
  case refilled =>
    intro darn s w x hw hcore hplan hready hx
    rw [exec_darnFetchComplete_of_ready hw hcore hplan hready, fxDarnFetched_eq hx]
    rfl
  case prepared =>
    intro darn s w p hw hp hcore hst hdigest hfirst
    rw [exec_darnPreparationComplete_of_ended hw hp hcore, fxPrepEnd_of_expected hst hdigest hfirst]
  case quarantined =>
    intro darn s w p m hw hp hcore hst hdigest hfirst
    rw [exec_darnPreparationComplete_of_ended hw hp hcore, fxPrepEnd_of_contradicted hst hdigest hfirst, fxQuarantine]
  case wanted =>
    intro j p s d hup hcore hen hd hheld hq
    rw [exec_darnWant_of_up hup hcore, fxDarnWant_of_held rfl hen hd hheld hq]
  case screenAgrees =>
    rintro a p s r t d u hup hcore hr hscreen hd rfl rfl hsame
    rw [slotAddr_dramLoad] at hsame
    rw [exec_screenResult_of_screened hup hcore hr hscreen hd]
    exact congrArg done (if_pos hsame)
  case screenDiffers =>
    rintro a p s r t d u hup hcore hr hscreen hd rfl rfl hother
    rw [slotAddr_dramLoad] at hother ⊢
    rw [exec_screenResult_of_screened hup hcore hr hscreen hd]
    exact congrArg done (if_neg hother)

end Sys2Proof.Machine

end DarnCommands

/-! The tray code: arithmetic of GF(2^8), the syndromes of a word and of an error, and mode C1D3 (06). -/

section TrayCode

namespace Sys2Proof.Machine

/-! Arithmetic of GF(2^8) (R196) -/

/-- A term that stands in both summands goes out of their sum: the field has characteristic 2. -/
theorem xor_xor_xor_cancel (a b c : Byte) : (a ^^^ c) ^^^ (b ^^^ c) = a ^^^ b := by
  calc (a ^^^ c) ^^^ (b ^^^ c) = (a ^^^ b) ^^^ (c ^^^ c) := by ac_rfl
    _ = a ^^^ b := by rw [BitVec.xor_self, BitVec.xor_zero]

theorem gfDouble_xor (a b : Byte) : gfDouble (a ^^^ b) = gfDouble a ^^^ gfDouble b := by
  unfold gfDouble
  rw [BitVec.getLsbD_xor, BitVec.shiftLeft_xor_distrib]
  cases a.getLsbD 7 <;> cases b.getLsbD 7
  · rfl
  · exact BitVec.xor_assoc ..
  · change a <<< 1 ^^^ b <<< 1 ^^^ 0x1D#8 = a <<< 1 ^^^ 0x1D#8 ^^^ b <<< 1
    ac_rfl
  · exact (xor_xor_xor_cancel ..).symm

theorem gfMulGo_xor_left (n : Nat) (a b c x y : Byte) :
    gfMulGo n (a ^^^ b) c (x ^^^ y) = gfMulGo n a c x ^^^ gfMulGo n b c y := by
  induction n generalizing a b c x y with
  | zero => rfl
  | succ n ih =>
    simp only [gfMulGo, gfDouble_xor, ← ih]
    congr 1
    split
    · ac_rfl
    · rfl

theorem gfMulGo_xor_right (n : Nat) (a b c x y : Byte) :
    gfMulGo n a (b ^^^ c) (x ^^^ y) = gfMulGo n a b x ^^^ gfMulGo n a c y := by
  induction n generalizing a b c x y with
  | zero => rfl
  | succ n ih =>
    simp only [gfMulGo, BitVec.ushiftRight_xor_distrib, BitVec.getLsbD_xor, ← ih]
    congr 1
    cases b.getLsbD 0 <;> cases c.getLsbD 0
    · rfl
    · exact BitVec.xor_assoc ..
    · change x ^^^ y ^^^ a = x ^^^ a ^^^ y
      ac_rfl
    · exact (xor_xor_xor_cancel ..).symm

theorem gfMulGo_double_left (n : Nat) (a b x : Byte) : gfMulGo n (gfDouble a) b (gfDouble x) = gfDouble (gfMulGo n a b x) := by
  induction n generalizing a b x with
  | zero => rfl
  | succ n ih =>
    simp only [gfMulGo, ← ih]
    congr 1
    split
    · rw [gfDouble_xor]
    · rfl

/-- Multiplication distributes over addition, which is the bitwise sum. -/
theorem gfMul_xor_left (a b c : Byte) : gfMul (a ^^^ b) c = gfMul a c ^^^ gfMul b c := gfMulGo_xor_left 8 a b c 0 0

theorem gfMul_xor_right (a b c : Byte) : gfMul a (b ^^^ c) = gfMul a b ^^^ gfMul a c := gfMulGo_xor_right 8 a b c 0 0

theorem gfMul_double_left (a b : Byte) : gfMul (gfDouble a) b = gfDouble (gfMul a b) := gfMulGo_double_left 8 a b 0

@[simp] theorem zero_gfMul (a : Byte) : gfMul 0#8 a = 0#8 := by
  simpa using gfMul_xor_left a a a

@[simp] theorem gfMul_zero (a : Byte) : gfMul a 0#8 = 0#8 := by
  simpa using gfMul_xor_right a a a

@[simp] theorem one_gfMul : ∀ a : Byte, gfMul 1#8 a = a := by decide +kernel

@[simp] theorem gfMul_one : ∀ a : Byte, gfMul a 1#8 = a := by decide +kernel

/-- Horner's scheme for a field element: every byte is built from 0 by doubling and by adding 1. -/
theorem gf_induction {p : Byte → Prop} (zero : p 0#8) (double : ∀ a, p a → p (gfDouble a)) (addOne : ∀ a, p a → p (a ^^^ 1#8))
    (a : Byte) : p a := by
  have hstep : ∀ a : Byte, a = gfDouble (a >>> 1) ∨ a = gfDouble (a >>> 1) ^^^ 1#8 := by decide +kernel
  induction h : a.toNat using Nat.strongRecOn generalizing a with
  | _ n ih =>
    by_cases ha : a = 0#8
    · exact ha ▸ zero
    · have hpos : 0 < a.toNat := Nat.pos_of_ne_zero fun h0 => ha (BitVec.eq_of_toNat_eq h0)
      have hlt : (a >>> 1).toNat < n := by
        rw [BitVec.toNat_ushiftRight, Nat.shiftRight_one]
        omega
      have hhalf := double _ (ih _ hlt _ rfl)
      rcases hstep a with he | he
      · exact he ▸ hhalf
      · exact he ▸ addOne _ hhalf

theorem gfMul_assoc (a b c : Byte) : gfMul (gfMul a b) c = gfMul a (gfMul b c) := by
  induction a using gf_induction with
  | zero => simp only [zero_gfMul]
  | double a ih => simp only [gfMul_double_left, ih]
  | addOne a ih => simp only [gfMul_xor_left, ih, one_gfMul]

/-- The field has no zero divisors: what is not zero has an inverse. -/
theorem eq_zero_of_gfMul_eq_zero {a b : Byte} (h : gfMul a b = 0#8) (hb : b ≠ 0#8) : a = 0#8 := by
  have hinv : ∀ b : Byte, b ≠ 0#8 → gfMul b (gfInv b) = 1#8 := by decide +kernel
  calc a = gfMul a (gfMul b (gfInv b)) := by rw [hinv b hb, gfMul_one]
    _ = gfMul (gfMul a b) (gfInv b) := (gfMul_assoc ..).symm
    _ = 0#8 := by rw [h, zero_gfMul]

/-- A factor that is not zero cancels. -/
theorem gfMul_left_cancel {e a b : Byte} (he : e ≠ 0#8) (h : gfMul e a = gfMul e b) : a = b := by
  by_contra hab
  have hsum : gfMul e (a ^^^ b) = 0#8 := by rw [gfMul_xor_right, h, BitVec.xor_self]
  exact he (eq_zero_of_gfMul_eq_zero hsum (fun h0 => hab (BitVec.xor_eq_zero_iff.mp h0)))

theorem gfAlpha_add (m n : Nat) : gfAlpha (m + n) = gfMul (gfAlpha m) (gfAlpha n) := by
  induction m with
  | zero => rw [Nat.zero_add]; exact (one_gfMul _).symm
  | succ m ih => rw [Nat.add_right_comm, gfAlpha, ih, gfAlpha, gfMul_double_left]

/-- The powers of α that the positions of a word stand for are distinct. -/
theorem gfAlpha_inj {p q : Nat} (hp : p < 36) (hq : q < 36) (h : gfAlpha p = gfAlpha q) : p = q := by
  have hdistinct : ((List.range 36).map gfAlpha).Nodup := by decide +kernel
  exact List.inj_on_of_nodup_map hdistinct (List.mem_range.mpr hp) (List.mem_range.mpr hq) h

/-! The word as a polynomial, and its syndromes (R197) -/

/-- Horner's scheme: the bytes as the coefficients of a polynomial at `x`, highest power first, below those that `a` has
taken up. -/
def gfEval (x a : Byte) (w : Bytes) : Byte := w.foldl (fun a b => gfMul a x ^^^ b) a

@[simp] theorem gfEval_nil (x a : Byte) : gfEval x a [] = a := rfl

@[simp] theorem gfEval_cons (x a b : Byte) (w : Bytes) : gfEval x a (b :: w) = gfEval x (gfMul a x ^^^ b) w := rfl

theorem gfEval_append (x a : Byte) (v w : Bytes) : gfEval x a (v ++ w) = gfEval x (gfEval x a v) w := List.foldl_append

theorem tcSyndrome_eq_gfEval (w : Bytes) (i : Nat) : tcSyndrome w i = gfEval (gfAlpha i) 0 w := rfl

/-- What is taken up before a word of k bytes counts α^(i × k) times. -/
theorem gfEval_xor_left (i : Nat) (a e : Byte) (w : Bytes) :
    gfEval (gfAlpha i) (a ^^^ e) w = gfEval (gfAlpha i) a w ^^^ gfMul e (gfAlpha (w.length * i)) := by
  induction w generalizing a e with
  | nil =>
    rw [List.length_nil, Nat.zero_mul]
    exact congrArg (a ^^^ ·) (gfMul_one e).symm
  | cons b w ih =>
    have hpow : gfAlpha ((b :: w).length * i) = gfMul (gfAlpha i) (gfAlpha (w.length * i)) := by
      rw [← gfAlpha_add, List.length_cons, Nat.succ_mul, Nat.add_comm]
    have hsum : gfMul (a ^^^ e) (gfAlpha i) ^^^ b = (gfMul a (gfAlpha i) ^^^ b) ^^^ gfMul e (gfAlpha i) := by
      rw [gfMul_xor_left]
      ac_rfl
    rw [gfEval_cons, hsum, ih, gfMul_assoc, hpow, gfEval_cons]

/-- An error of value e in byte j adds e × α^(i × (n - 1 - j)) to the word's value at α^i. -/
theorem gfEval_addByte (i : Nat) (a e : Byte) {w : Bytes} {j : Nat} (hj : j < w.length) :
    gfEval (gfAlpha i) a (addByte w j e) = gfEval (gfAlpha i) a w ^^^ gfMul e (gfAlpha ((w.length - 1 - j) * i)) := by
  induction w generalizing a j with
  | nil => exact absurd hj (Nat.not_lt_zero j)
  | cons b w ih =>
    cases j with
    | zero =>
      change gfEval _ (gfMul a _ ^^^ (b ^^^ e)) w = _
      rw [← BitVec.xor_assoc, gfEval_xor_left]
      rfl
    | succ j =>
      have hpos : (b :: w).length - 1 - (j + 1) = w.length - 1 - j := by
        rw [List.length_cons]
        omega
      rw [hpos]
      exact ih _ (Nat.lt_of_succ_lt_succ hj)

theorem tcSyndrome_addByte {w : Bytes} {j : Nat} (hw : w.length = 36) (hj : j < 36) (e : Byte) (i : Nat) :
    tcSyndrome (addByte w j e) i = tcSyndrome w i ^^^ gfMul e (gfAlpha ((35 - j) * i)) := by
  rw [tcSyndrome_eq_gfEval, gfEval_addByte i 0 e (hw ▸ hj), hw]
  rfl

/-! The encoder (R197) -/

/-- The remainder register as the four bytes that it appends. -/
def tcRegister (r : Byte × Byte × Byte × Byte) : Bytes := [r.1, r.2.1, r.2.2.1, r.2.2.2]

/-- The generator polynomial (R196). -/
def tcGenerator : Bytes := [1#8, 0x0F#8, 0x36#8, 0x78#8, 0x40#8]

theorem gfEval_tcGenerator : ∀ i < 4, gfEval (gfAlpha i) 0#8 tcGenerator = 0#8 := by decide +kernel

/-- A register moved on by one place, plus another polynomial. -/
theorem gfEval_register_xor (x a f f1 f2 f3 f4 : Byte) (r : Byte × Byte × Byte × Byte) :
    gfEval x (gfMul a x ^^^ r.1 ^^^ f) [r.2.1 ^^^ f1, r.2.2.1 ^^^ f2, r.2.2.2 ^^^ f3, f4] =
      gfMul (gfEval x a (tcRegister r)) x ^^^ gfEval x f [f1, f2, f3, f4] := by
  simp only [tcRegister, gfEval_cons, gfEval_nil, gfMul_xor_left]
  ac_rfl

section
variable {x : Byte} (hx : gfEval x 0#8 tcGenerator = 0#8)
include hx

/-- A multiple of the generator polynomial has its roots. -/
theorem gfEval_multiple (f : Byte) :
    gfEval x f [gfMul f 0x0F#8, gfMul f 0x36#8, gfMul f 0x78#8, gfMul f 0x40#8] = 0#8 := by
  have hf : gfMul f (gfEval x 0#8 tcGenerator) = 0#8 := by rw [hx, gfMul_zero]
  simpa only [tcGenerator, gfEval_cons, gfEval_nil, gfMul_xor_right, ← gfMul_assoc, gfMul_zero, zero_gfMul, gfMul_one,
    BitVec.zero_xor] using hf

/-- One step of the division: the register after the next data byte is the register before it, moved on by one place, plus a
multiple of the generator polynomial; and so the data taken up so far with their register stay a multiple of it. -/
theorem gfEval_tcStep {a : Byte} {r : Byte × Byte × Byte × Byte} (h : gfEval x a (tcRegister r) = 0#8) (d : Byte) :
    gfEval x (gfMul a x ^^^ d) (tcRegister (tcStep r d)) = 0#8 := by
  have hfirst : gfMul a x ^^^ d = gfMul a x ^^^ r.1 ^^^ (d ^^^ r.1) := (xor_xor_xor_cancel ..).symm
  rw [hfirst]
  calc _ = gfMul (gfEval x a (tcRegister r)) x ^^^ gfEval x (d ^^^ r.1) [gfMul (d ^^^ r.1) 0x0F#8, gfMul (d ^^^ r.1) 0x36#8,
          gfMul (d ^^^ r.1) 0x78#8, gfMul (d ^^^ r.1) 0x40#8] := gfEval_register_xor ..
    _ = 0#8 := by rw [h, gfEval_multiple hx, zero_gfMul, BitVec.xor_self]

/-- The data with the register after them are a multiple of the generator polynomial. -/
theorem gfEval_division (d : Bytes) {a : Byte} {r : Byte × Byte × Byte × Byte} (h : gfEval x a (tcRegister r) = 0#8) :
    gfEval x (gfEval x a d) (tcRegister (d.foldl tcStep r)) = 0#8 := by
  induction d generalizing a r with
  | nil => exact h
  | cons b d ih => exact ih (gfEval_tcStep hx h b)

end

theorem tcSyndrome_tcEncode (d : Bytes) {i : Nat} (hi : i < 4) : tcSyndrome (tcEncode d) i = 0#8 := by
  have hregister : gfEval (gfAlpha i) 0#8 (tcRegister (0#8, 0#8, 0#8, 0#8)) = 0#8 := by simp [tcRegister]
  rw [tcSyndrome_eq_gfEval, tcEncode, gfEval_append]
  exact gfEval_division (gfEval_tcGenerator i hi) (fix 32 d) hregister

theorem tcEncode_length (d : Bytes) : (tcEncode d).length = 36 := by simp [tcEncode, tcCheck]

theorem take_tcEncode {d : Bytes} (hd : d.length = 32) : (tcEncode d).take 32 = d := by
  have hfix : fix 32 d = d := by simp [fix, ← hd]
  rw [tcEncode, hfix, ← hd, List.take_left]

/-! Mode C1D3 (R198) -/

theorem getD_tcSyndromes {i : Nat} (w : Bytes) (hi : i < 4) : (tcSyndromes w).getD i 0 = tcSyndrome w i := by
  simp [tcSyndromes, hi]

theorem tcSyndromes_all_zero_iff (w : Bytes) : (tcSyndromes w).all (fun x => x == 0) = true ↔ ∀ i < 4, tcSyndrome w i = 0 := by
  simp [tcSyndromes]

theorem oneError_tcSyndromes_iff (w : Bytes) (p : Nat) :
    oneError (tcSyndromes w) p = true ↔ ∀ i < 4, tcSyndrome w i = gfMul (tcSyndrome w 0) (gfAlpha (p * i)) := by
  simp only [oneError, List.all_eq_true, List.mem_range, beq_iff_eq]
  refine forall₂_congr fun i hi => ?_
  rw [getD_tcSyndromes w hi, getD_tcSyndromes w (by decide)]

theorem tcDecode1_of_clean {w : Bytes} (h : ∀ i < 4, tcSyndrome w i = 0) : tcDecode1 w = .clean :=
  if_pos ((tcSyndromes_all_zero_iff w).mpr h)

/-- Syndromes that one error explains name its position, since no other power of α explains them. -/
theorem tcDecode1_of_oneError {w : Bytes} {e : Byte} {p : Nat} (he : e ≠ 0) (hp : p < 36)
    (h : ∀ i < 4, tcSyndrome w i = gfMul e (gfAlpha (p * i))) :
    tcDecode1 w = .corrected (addByte w (35 - p) e) [35 - p] := by
  have hzero : tcSyndrome w 0 = e := (h 0 (by decide)).trans (gfMul_one e)
  have hdirty : ¬ (tcSyndromes w).all (fun x => x == 0) = true :=
    fun hall => he (hzero ▸ (tcSyndromes_all_zero_iff w).mp hall 0 (by decide))
  have hone (q : Nat) : oneError (tcSyndromes w) q = true ↔
      ∀ i < 4, gfMul e (gfAlpha (p * i)) = gfMul e (gfAlpha (q * i)) := by
    rw [oneError_tcSyndromes_iff, hzero]
    exact forall₂_congr fun i hi => by rw [h i hi]
  have hfind : (List.range 36).find? (oneError (tcSyndromes w)) = some p := by
    rw [List.find?_range_eq_some]
    refine ⟨(hone p).mpr fun _ _ => rfl, List.mem_range.mpr hp, fun q hq => ?_⟩
    rw [Bool.not_eq_true', Bool.eq_false_iff]
    intro hother
    have hpow := gfMul_left_cancel he ((hone q).mp hother 1 (by decide))
    rw [Nat.mul_one, Nat.mul_one] at hpow
    exact hq.ne' (gfAlpha_inj hp (hq.trans hp) hpow)
  rw [tcDecode1]
  simp only [getD_tcSyndromes w (show 0 < 4 by decide), hzero, hfind]
  rw [if_neg hdirty, if_neg he]

theorem addByte_addByte (w : Bytes) (j : Nat) (e : Byte) : addByte (addByte w j e) j e = w := by
  refine List.ext_getElem (by simp [addByte]) fun i _ hi => ?_
  by_cases hij : j = i
  · subst hij
    simp [addByte, hi]
  · simp [addByte, hij]

/-- Settles O33: a word's syndromes are those of its error alone, and one error is found by the power of α that they share. -/
theorem trayCodeCorrectsOneSymbol : Obligations.TrayCodeCorrectsOneSymbol := by
  unfold Obligations.TrayCodeCorrectsOneSymbol
  refine ⟨fun d hd => ⟨tcDecode1_of_clean fun i hi => tcSyndrome_tcEncode d hi, take_tcEncode hd⟩, ?_⟩
  intro d j e _ hj he
  have hsyndromes (i : Nat) (hi : i < 4) :
      tcSyndrome (addByte (tcEncode d) j e) i = gfMul e (gfAlpha ((35 - j) * i)) := by
    rw [tcSyndrome_addByte (tcEncode_length d) hj, tcSyndrome_tcEncode d hi, BitVec.zero_xor]
  rw [tcDecode1_of_oneError he (by omega) hsyndromes, show 35 - (35 - j) = j by omega, addByte_addByte]

end Sys2Proof.Machine

end TrayCode

/-! The commands of tray memory: accesses, scrubbing, die temperatures and training (06). -/

section MemoryCommands

namespace Sys2Proof.Machine

/-! Where an access of tray DRAM goes (R29, R209, R211, R261) -/

section
variable {a n m : Nat} {write : Bool} {data : Bytes} {f : State → State} {s : State}

/-- An access that lies in open memory, and that needs no claim, acts at once. -/
theorem onDram_of_unclaimed (hfits : a + n ≤ dramSize) (hopen : dramOpen s = true) (hown : m = 35 ∨ inHcr s a n = false) :
    onDram a n m write data f s = f s := by
  have hclaim : ¬ (decide (m ≠ 35) && inHcr s a n) = true := by
    simpa [Classical.or_iff_not_imp_left] using hown
  rw [onDram, if_neg (Nat.not_lt.mpr hfits), hopen]
  exact if_neg hclaim

/-- An access of the host-cacheable range is sent to the host as a claim. -/
theorem onDram_of_claimed (hfits : a + n ≤ dramSize) (hopen : dramOpen s = true) (hm : m ≠ 35) (hhcr : inHcr s a n = true) :
    onDram a n m write data f s = hostRequest (if write then Op.CLAIM_E else Op.CLAIM_S) a n data (.mem m) s := by
  rw [onDram, if_neg (Nat.not_lt.mpr hfits), hopen]
  have hclaim : (decide (m ≠ 35) && inHcr s a n) = true := by simp [hm, hhcr]
  exact if_pos hclaim

/-- Memory that is not open is ABSENT. -/
theorem onDram_of_closed (hfits : a + n ≤ dramSize) (hopen : dramOpen s = false) :
    onDram a n m write data f s = if write then absentWrite m a s else absentError a s := by
  rw [onDram, if_neg (Nat.not_lt.mpr hfits), hopen]
  rfl

/-- No memory decodes an access that ends beyond it. -/
theorem onDram_of_beyond (h : dramSize < a + n) : onDram a n m write data f s = decodeError a s := if_pos h

end

/-- The two commands of tray DRAM are accesses of one byte, and of the bytes that are written. -/
theorem exec_dramRead (a : Nat) (m : Fin 37) (e1 e2 : Bytes) (s : State) : exec (.dramRead a m e1 e2) s =
    .next (settled (onDram a 1 m false (fix 36 e1 ++ fix 36 e2) (fxDramRead a m e1 e2) s)) := rfl

theorem exec_dramWrite (a : Nat) (m : Fin 37) (d err : Bytes) (s : State) : exec (.dramWrite a ⟨m, d⟩ err) s =
    .next (settled (onDram a d.length m true (d ++ err) (fxDramWrite a m d err) s)) := rfl

/-! A checked read (R201) -/

section
variable {a reader : Nat} {e1 e2 r w : Bytes} {bs : List Nat} {s : State}

/-- The word as it is stored, with the errors that stand in it (log entry 113). -/
def storedWord (s : State) (a : Nat) : Bytes := xorBytes (tcEncode (dramRead s a 32)) (s.mem.errs.get [] a)

theorem readWord_of_clean (h1 : tcDecode (modeC2 s) (xorBytes (storedWord s a) e1) = .clean) :
    readWord a reader e1 e2 s = (s, false) := by
  unfold storedWord at h1
  simp only [readWord, h1]

/-- Either read of the word may be the one that is corrected. -/
theorem readWord_of_corrected (h : tcDecode (modeC2 s) (xorBytes (storedWord s a) e1) = .corrected w bs ∨
      tcDecode (modeC2 s) (xorBytes (storedWord s a) e1) = .uncorrectable ∧
        tcDecode (modeC2 s) (xorBytes (storedWord s a) e2) = .corrected w bs) :
    readWord a reader e1 e2 s = (wordCorrected a w bs s, false) := by
  unfold storedWord at h
  rcases h with h1 | ⟨h1, h2⟩
  · simp only [readWord, h1]
  · simp only [readWord, h1, h2]

/-- The second read is clean: the word is counted and written back as one that was corrected at no byte. -/
theorem readWord_of_clean_second (h1 : tcDecode (modeC2 s) (xorBytes (storedWord s a) e1) = .uncorrectable)
    (h2 : tcDecode (modeC2 s) (xorBytes (storedWord s a) e2) = .clean) :
    readWord a reader e1 e2 s = (wordCorrected a (xorBytes (storedWord s a) e2) [] s, false) := by
  unfold storedWord at h1 h2 ⊢
  simp only [readWord, h1, h2]

theorem readWord_of_lost (h1 : tcDecode (modeC2 s) (xorBytes (storedWord s a) e1) = .uncorrectable)
    (h2 : tcDecode (modeC2 s) (xorBytes (storedWord s a) e2) = .uncorrectable) :
    readWord a reader e1 e2 s = (wordLost a reader (xorBytes (storedWord s a) e2) s, true) := by
  unfold storedWord at h1 h2 ⊢
  simp only [readWord, h1, h2]

end

theorem fxDramRead_of_delivered {a m : Nat} {e1 e2 : Bytes} {s t : State}
    (h : readWord (a / 32 * 32) (readerCode m) e1 e2 s = (t, false)) : fxDramRead a m e1 e2 s = t := by
  rw [fxDramRead, h]
  rfl

theorem fxDramRead_of_poisoned {a m : Nat} {e1 e2 : Bytes} {s t : State}
    (h : readWord (a / 32 * 32) (readerCode m) e1 e2 s = (t, true)) : fxDramRead a m e1 e2 s = poisonTo m a t := by
  rw [fxDramRead, h]
  rfl

/-! Writes (R202) -/

@[simp] theorem writeWords_nil (n a : Nat) (e : Bytes) (s : State) : writeWords n a [] e s = (s, false) := by
  cases n <;> rfl

/-- A write that stays in one word is that part of it. -/
theorem fxDramWrite_of_one_word {a m : Nat} {d e : Bytes} {s : State} (hd : d ≠ []) (hfits : a % 32 + d.length ≤ 32) :
    fxDramWrite a m d e s =
      if (writePart (a / 32 * 32) (a % 32) d e s).2 then writeError m (writePart (a / 32 * 32) (a % 32) d e s).1
      else (writePart (a / 32 * 32) (a % 32) d e s).1 := by
  have hroom : d.length ≤ 32 - a % 32 := by omega
  simp [fxDramWrite, writeWords, hd, List.take_of_length_le hroom, List.drop_of_length_le hroom]

theorem writePart_of_whole {a lo : Nat} {d : Bytes} (hd : d.length = 32) (e : Bytes) (s : State) :
    writePart a lo d e s = (dramWrite a d s, false) := if_pos hd

/-- A part of a word is written after the word has been read. -/
theorem writePart_of_partial {a lo : Nat} {d e : Bytes} {s : State} {r : State × Bool} (hd : d.length ≠ 32)
    (hr : r = readWord a 6 e e s) :
    writePart a lo d e s = if r.2 then (r.1, true) else (dramWrite (a + lo) d r.1, false) := by
  subst hr
  exact if_neg hd

/-! Scrubbing (R203 to R205) -/

theorem onMemReg_of_answers {off : Nat} {f : State → State} {s : State} (h : islandAnswers 11 s = true) :
    onMemReg off f s = f s := if_pos h

theorem fxScrubRead_of_immediate {q p : Nat} {s : State} (h : (stack s q).immediate = some p) (e1 e2 : Bytes) :
    fxScrubRead q e1 e2 s = setStack q (fun k => { k with immediate := some ((p + 1) % stackWords) })
      (readWord (addrOf s q (32 * p)) 0 e1 e2 s).1 := by
  rw [fxScrubRead, h]

theorem fxScrubRead_of_patrol {q : Nat} {s : State} (h : (stack s q).immediate = none) (e1 e2 : Bytes) :
    fxScrubRead q e1 e2 s = patrolOn q (readWord (addrOf s q (32 * rdN s (R.SCRUB_POS q))) 0 e1 e2 s).1 := by
  rw [fxScrubRead, h]

theorem fxScrubNow_of_ready {s : State} (hpass : passRuns s = false) (hready : memReady s = true) :
    fxScrubNow s = startPass (setBits R.SCRUB_CTRL (2 ^ 31) s) := by
  simp [fxScrubNow, hpass, hready]

/-- Without NOW a write of SCRUB_CTRL sets the period alone; a period of 0 stops the patrol, and is recorded. -/
theorem fxScrubPeriod_of_no_now {v : W32} {s : State} (hnow : bitAt v 31 = false) : fxScrubPeriod v s =
    if fld v 7 0 = 0 then raise 6 5 noInst [] (wrFld R.SCRUB_CTRL 7 0 (fld v 7 0) s)
    else wrFld R.SCRUB_CTRL 7 0 (fld v 7 0) s := by
  simp [fxScrubPeriod, hnow]

theorem fxPassEnd_of_last {q : Nat} {s : State}
    (h : passRuns (setStack q (fun k => { k with immediate := none }) s) = false) :
    fxPassEnd q s = clrBits R.SCRUB_CTRL (2 ^ 31) (setStack q (fun k => { k with immediate := none }) s) :=
  if_neg (ne_true_of_eq_false h)

/-! Training and zero fill (R209, R210) -/

section
variable {q : Nat} {s t : State}

theorem fxTraining_of_all_trained (ht : t = setStack q (fun k => { k with tries := k.tries + 1, trained := true }) s)
    (hall : ∀ r < 4, (stack t r).trained = true) : fxTraining q true s = wrFld R.MEM_STATE 2 0 2 t := by
  subst ht
  exact if_pos (by simpa using hall)

theorem fxTraining_of_failed (ht : t = setStack q (fun k => { k with tries := k.tries + 1, trained := false }) s)
    (htries : 3 ≤ (stack t q).tries) : fxTraining q false s =
      (List.range 8).foldl (fun a c => suspendCluster c a) (raise 6 4 q [] (wrFld R.MEM_STATE 2 0 4 t)) := by
  subst ht
  exact if_pos htries

/-- With the last stack filled, and no immediate pass waiting, the memory is READY. -/
theorem fxZeroFill_of_last (ht : t = setBits R.MEM_STATE (2 ^ (4 + q)) s) (hall : rdFld t R.MEM_STATE 7 4 = 15)
    (hnow : t.mem.nowWaits = false) : fxZeroFill q s = wrFld R.MEM_STATE 2 0 3 { t with su.hcrLost := false } := by
  subst ht
  exact (if_pos hall).trans (if_neg (ne_true_of_eq_false hnow))

end

/-- Settles O6: in a state that its event fits, each command is the effect that its rules give. -/
theorem memoryCommandsComplete : Obligations.MemoryCommandsComplete := by
  unfold Obligations.MemoryCommandsComplete
  refine ⟨?clean, ?corrected, ?cleanSecond, ?lost, ?wholeWord, ?partWord, ?readClaimed, ?writeClaimed, ?absent, ?beyond,
    ?scrubPass, ?scrubPatrol, ?scrubNow, ?periodZero, ?period, ?passEnd, ?dieTemps, ?bandLower, ?mode, ?trained,
    ?trainingFailed, ?filled⟩
  case clean =>
    rintro a m e1 e2 s r hfits hopen hown rfl h1
    rw [exec_dramRead, onDram_of_unclaimed hfits hopen hown, fxDramRead_of_delivered (readWord_of_clean h1)]
  case corrected =>
    rintro a m e1 e2 s r w bs hfits hopen hown rfl h
    rw [exec_dramRead, onDram_of_unclaimed hfits hopen hown, fxDramRead_of_delivered (readWord_of_corrected h)]
    rfl
  case cleanSecond =>
    rintro a m e1 e2 s r hfits hopen hown rfl h1 h2
    rw [exec_dramRead, onDram_of_unclaimed hfits hopen hown, fxDramRead_of_delivered (readWord_of_clean_second h1 h2)]
    rfl
  case lost =>
    rintro a m e1 e2 s r hfits hopen hown rfl h1 h2
    rw [exec_dramRead, onDram_of_unclaimed hfits hopen hown, fxDramRead_of_poisoned (readWord_of_lost h1 h2)]
    rfl
  case wholeWord =>
    intro a m d err s hfits hopen hown halign hlen
    have hd : d ≠ [] := List.ne_nil_of_length_pos (by omega)
    have hword : a / 32 * 32 = a := by omega
    rw [exec_dramWrite, onDram_of_unclaimed hfits hopen hown, fxDramWrite_of_one_word hd (by omega),
      writePart_of_whole hlen, hword]
    rfl
  case partWord =>
    intro a m d err s r hfits hopen hown hpart hd hr
    rw [exec_dramWrite, onDram_of_unclaimed hfits hopen hown, fxDramWrite_of_one_word hd (by omega),
      writePart_of_partial (by omega) hr]
    cases r.2
    · rfl
    · rfl
  case readClaimed =>
    intro a m e1 e2 s hfits hopen hm hhcr
    rw [exec_dramRead, onDram_of_claimed hfits hopen hm hhcr]
    rfl
  case writeClaimed =>
    intro a m d err s hfits hopen hm hhcr
    rw [exec_dramWrite, onDram_of_claimed hfits hopen hm hhcr]
    rfl
  case absent =>
    intro a m e1 e2 d err s hread hwrite hopen
    rw [exec_dramRead, exec_dramWrite, onDram_of_closed hread hopen, onDram_of_closed hwrite hopen]
    exact ⟨rfl, rfl⟩
  case beyond =>
    intro a m e1 e2 d err s hread hwrite
    rw [exec_dramRead, exec_dramWrite, onDram_of_beyond hread, onDram_of_beyond hwrite]
    exact ⟨rfl, rfl⟩
  case scrubPass =>
    intro q e1 e2 s p hready hp
    exact done_of_fits (by simp [scrubRuns, hready, hp]) (fxScrubRead_of_immediate hp e1 e2)
  case scrubPatrol =>
    intro q e1 e2 s hready hp hperiod
    exact done_of_fits (by simp [scrubRuns, hready, hperiod]) (fxScrubRead_of_patrol hp e1 e2)
  case scrubNow =>
    exact fun s hans hpass hready =>
      congrArg done ((onMemReg_of_answers hans).trans (fxScrubNow_of_ready hpass hready))
  case periodZero =>
    intro v s hans hzero hnow
    refine congrArg done ((onMemReg_of_answers hans).trans ?_)
    rw [fxScrubPeriod_of_no_now hnow, if_pos hzero, hzero]
  case period =>
    intro v s hans hperiod hnow
    refine congrArg done ((onMemReg_of_answers hans).trans ?_)
    rw [fxScrubPeriod_of_no_now hnow, if_neg hperiod]
  case passEnd => exact fun _ _ hruns hlast => done_of_fits hruns (fxPassEnd_of_last hlast)
  case dieTemps => exact fun _ _ _ hon => done_of_fits hon rfl
  case bandLower => exact fun _ _ hband hbelow => done_of_fits (by simp [hband, hbelow]) rfl
  case mode => exact fun _ _ => rfl
  case trained =>
    exact fun _ _ _ hst hno ht hall => done_of_fits (by simp [hst, hno]) (fxTraining_of_all_trained ht hall)
  case trainingFailed =>
    exact fun _ _ _ hst hno ht htries => done_of_fits (by simp [hst, hno]) (fxTraining_of_failed ht htries)
  case filled => exact fun _ _ _ hst ht hall hnow => done_of_fits hst (fxZeroFill_of_last ht hall hnow)

end Sys2Proof.Machine

end MemoryCommands

/-! Flits, routing, the exchange of time, and the messages that an UP port delivers (07). -/

section FlitAndMessageCommands

namespace Sys2Proof.Machine

/-! A flit of the partner (R222, R224) -/

section
variable {k : Nat} {bs h : Bytes} {f : Flit} {s t : State}

/-- Outside TEST a port listens to its partner in the states that carry flits; a far end of a loopback listens in TEST. -/
theorem exec_flitReceived_of_up {k : Fin 12} (hup : (port s k).st = .up) :
    exec (.flitReceived k bs) s = .next (settled (fxFlitReceived k bs s)) :=
  done_of_fits (by simp [hup]) rfl

theorem exec_flitReceived_of_farLoop {k : Fin 12} (htest : (port s k).st = .test) (hfar : (port s k).farLoop = true) :
    exec (.flitReceived k bs) s = .next (settled (fxFlitReceived k bs s)) :=
  done_of_fits (by simp [htest, hfar]) rfl

/-- A flit whose words are all as they were sent: nothing is counted but what forward error correction did. -/
theorem fxFlitReceived_of_clean (hclean : (flitWords bs).all (fun w => tcDecode (rdBit s R.TC_MODE 0) w == .clean) = true)
    (hh : h = (fix 36 (slice bs 0 36)).take 32)
    (hf : f = parseFlit h (((flitWords bs).drop 1).flatMap (fun w => w.take 32)))
    (ht : t = countFec (R.GH_CNT_FEC_CORR k) (R.GH_CNT_FEC_UNCORR k) s) :
    fxFlitReceived k bs s =
      if (port s k).farLoop then setPort k (fun p => { p with looped := fix 288 bs }) t
      else if (port s k).st == .test && linkMode k s == 2 then
        takeReturned k h (((flitWords bs).drop 1).flatMap (fun w => w.take 32)) t
      else if f.ftype = 0 then setPort k (takeLinkFields h) t
      else if leAt h 2 2 % 4096 ≠ (port s k).rxSeq then sendNak k t
      else acceptFlit k f (setPort k (takeLinkFields h) t) := by
  have hdecoded : (flitWords bs).map (fun w => (tcDecode (rdBit s R.TC_MODE 0) w, w)) =
      (flitWords bs).map (fun w => (TcResult.clean, w)) :=
    List.map_congr_left fun w hw => by rw [eq_of_beq (List.all_eq_true.mp hclean w hw)]
  subst hh hf ht
  unfold fxFlitReceived
  dsimp only
  rw [hdecoded]
  rfl

/-- An uncorrectable word discards the flit; the port answers with a NAK, unless its own loopback brought it back. -/
theorem fxFlitReceived_of_bad (hup : (port s k).st = .up) (hfar : (port s k).farLoop = false)
    (hbad : (flitWords bs).any (fun w => tcDecode (rdBit s R.TC_MODE 0) w == .uncorrectable) = true)
    (hnone : ∀ w ∈ flitWords bs, ∀ x b, tcDecode (rdBit s R.TC_MODE 0) w ≠ .corrected x b) :
    fxFlitReceived k bs s = sendNak k (bump (R.GH_CNT_TC_UNCORR k)
      (countFec (R.GH_CNT_FEC_CORR k) (R.GH_CNT_FEC_UNCORR k) s)) := by
  unfold fxFlitReceived
  extract_lets ws rs fixed s0 s1 bad s2 looped
  have hfixed : fixed = 0 := by
    refine List.length_eq_zero_iff.mpr (List.filter_eq_nil_iff.mpr fun r hr hcorrected => ?_)
    obtain ⟨w, hw, rfl⟩ := List.mem_map.mp hr
    split at hcorrected
    · next x b he => exact hnone w hw x b he
    · exact Bool.false_ne_true hcorrected
  have hs1 : s1 = s0 := if_pos hfixed
  have hb : bad = true := List.any_map.trans hbad
  have hs2 : s2 = bump (R.GH_CNT_TC_UNCORR k) s0 := (if_pos hb).trans (by rw [hs1])
  have hlooped : looped = false := by simp [looped, hup]
  rw [hfar, hb, hlooped, hs2]
  rfl

end

/-! A NAK (R224, R225) -/

section
variable {k : Nat} {s : State}

@[simp] theorem port_bump (off : Nat) (s : State) (k : Nat) : port (bump off s) k = port s k := rfl

theorem port_takeCtrl_st (k kind : Nat) (p : Bytes) (s : State) : (port (takeCtrl k kind p s) k).st = (port s k).st := by
  rw [takeCtrl, takeInbox, port_setPort, if_pos rfl]
  split
  · rfl
  · rfl

/-- The port after a NAK: the retry buffer begins with the named flit again, and the NAK counts towards a replay storm. -/
def nakTaken (k seq : Nat) (s : State) : State :=
  setPort k (fun p => portPump { p with
    retry := replayFrom seq (port s k).txSeq (port s k).retry
    naks := ((port s k).naks.filter (fun u => now s < u + 1)) ++ [now s]
    upSince := if 16 ≤ (((port s k).naks.filter (fun u => now s < u + 1)) ++ [now s]).length then some (now s) else p.upSince })
    (bump (R.GH_CNT_REPLAY k) (takeCtrl k 0x01 (leBytes 2 seq) s))

theorem port_nakTaken_st (k seq : Nat) (s : State) : (port (nakTaken k seq s) k).st = (port s k).st := by
  rw [nakTaken, port_setPort, if_pos rfl]
  exact (portPumpGo_st ..).trans (port_takeCtrl_st ..)

theorem exec_nak_of_up {k : Fin 12} (hup : (port s k).st = .up) (seq : Nat) :
    exec (.nak k seq) s = .next (settled (fxNak k seq s)) :=
  done_of_fits (by simp [hup]) rfl

theorem fxNak_eq (k seq : Nat) (s : State) : fxNak k seq s =
    if (replayFrom seq (port s k).txSeq (port s k).retry).any (fun x => 8 ≤ x.replays) && (port (nakTaken k seq s) k).st = .up then
      fxRetrain k (setBits (R.PORT_ERR k) 4 (nakTaken k seq s))
    else nakTaken k seq s := rfl

/-- The eighth replay of one flit of an UP port leads to RETRAIN. -/
theorem fxNak_of_up (hup : (port s k).st = .up) (seq : Nat) : fxNak k seq s =
    if (replayFrom seq (port s k).txSeq (port s k).retry).any (fun x => 8 ≤ x.replays) then
      fxRetrain k (setBits (R.PORT_ERR k) 4 (nakTaken k seq s))
    else nakTaken k seq s := by
  rw [fxNak_eq, port_nakTaken_st, hup, decide_eq_true rfl, Bool.and_true]

end

/-! Injection (R238) -/

section
variable {m : Msg} {s t : State}

theorem fxInject_of_sent (h : sendNode (isRsp m.cls m.typ) m s = some t) : fxInject m s = t := by
  rw [fxInject, h]

/-- A message that reaches no node, and that no access waits for, fails by its class. -/
theorem fxInject_of_unreachable (h : sendNode (isRsp m.cls m.typ) m s = none) (hremotes : s.torus.remotes = []) :
    fxInject m s = if isRsp m.cls m.typ then bump R.CNT_UNREACH s else ownFails m.cls m.tag (bump R.CNT_UNREACH s) := by
  simp only [fxInject, h, bump_torus, hremotes, List.find?_nil]

end

/-! Forwarding (R236, R239, R242, R248) -/

section
variable {k : Nat} {f g : Flit} {j : Nat} {s t : State}

theorem exec_flitForward_of_up {k : Fin 12} {h p : Bytes} (hseam : 8 ≤ k.val) (hf : f = parseFlit h p)
    (hup : (port s k).st = .up) (hdst : f.dst ≠ nodeId s) (hloc : f.loc = false) :
    exec (.flitForward k h p) s = .next (settled (fxForward k f s)) := by
  subst hf
  exact done_of_fits (by simp [hseam, hup, hdst, hloc]) rfl

/-- A node that does not forward, and the last hop that HOPS counts, drop the flit. -/
theorem fxForward_of_refused (ht : t = setPort k (fun q => { q with transit := q.transit.erase f }) s)
    (hg : g = { f with via := some k }) (h : rdBit t R.ROUTE_CTRL 0 = false ∨ 126 ≤ f.hops) :
    fxForward k f s = bump R.CNT_DROP (dropFlit g t) := by
  subst ht hg
  exact if_pos (by simpa using h)

/-- Where the link of seam j is down the first flit of a message is turned to another seam, or dropped where none is open. -/
def turnOrDrop (g : Flit) (j : Nat) (s : State) : State :=
  match turnTo s g j with
  | some (i, yx) => forwardOn i yx g (keepTurn g i (bump R.CNT_TURNED s))
  | none => dropFlit g s

/-- The first flit of a message goes straight on where its link stands. -/
theorem fxForward_of_first (ht : t = setPort k (fun q => { q with transit := q.transit.erase f }) s)
    (hg : g = { f with via := some k }) (hen : rdBit t R.ROUTE_CTRL 0 = true) (hhops : f.hops < 126)
    (hnew : turnedSeam t g = none) (hj : j = onwardSeam t k g) :
    fxForward k f s = if seamGoes t j then forwardStraight j k g t else turnOrDrop g j t := by
  have hroute : ¬ (!rdBit t R.ROUTE_CTRL 0 || decide (127 ≤ f.hops + 1)) = true := by simp [hen, hhops]
  subst ht hg hj
  refine (if_neg hroute).trans ?_
  rw [hnew]
  rfl

end

/-! Links and the exchange of time (R237, R243, R248) -/

section
variable {j : Nat} {p : Bytes} {s : State}

theorem exec_linkUpDeclare_of_stood {j : Fin 4} {u : Nat} (hown : ownsLink j = true) (hup : (port s (8 + j)).st = .up)
    (hen : rdBit s R.ROUTE_CTRL 0 = true) (hsince : (port s (8 + j)).upSince = some u) (hlong : u + 100 ≤ now s) :
    exec (.linkUpDeclare j) s = .next (settled (ownLink j true s)) :=
  done_of_fits (by simp [hown, hup, hen, hsince, hlong]) rfl

variable {t1 t2 t3 t4 : Int} (ht2 : t2 = leAt p 8 8) (ht3 : t3 = leAt p 0 8) (ht4 : t4 = (port s (8 + j)).stampRx)
  (ht1 : t1 = ownStamp (port s (8 + j)) t2 t3 t4)
include ht2 ht3 ht4 ht1

/-- A stamp that is missing leaves the delay as it was. -/
theorem fxTimeFlit_of_missing (hzero : t1 = 0 ∨ t2 = 0 ∨ t3 = 0 ∨ t4 = 0) (arrival : Nat) : fxTimeFlit j p arrival s =
    setPort (8 + j) (fun q => { q with stampRx := arrival }) (takeCtrl (8 + j) 0x02 p s) := by
  subst ht1 ht2 ht3 ht4
  exact if_pos (by simpa [or_assoc] using hzero)

/-- Four stamps give the delay; in SEAM mode the parent's give the correction as well. -/
theorem fxTimeFlit_of_stamped (h1 : t1 ≠ 0) (h2 : t2 ≠ 0) (h3 : t3 ≠ 0) (h4 : t4 ≠ 0) {arrival : Nat} {u : State}
    (hu : u = wr (R.LINK_DELAY (8 + j)) (BitVec.ofNat 32 (min 0xFFFF (max 0 (((t4 - t1) - (t3 - t2)) / 2)).toNat))
      (setPort (8 + j) (fun q => { q with stampRx := arrival }) (takeCtrl (8 + j) 0x02 p s))) :
    fxTimeFlit j p arrival s =
      if seamMode u && timeParent u == some j then correctTime (((t1 - t2) + (t4 - t3)) / 2) u else u := by
  subst hu ht1 ht2 ht3 ht4
  refine if_neg ?_
  simp only [Bool.or_eq_true, decide_eq_true_eq, not_or]
  exact ⟨⟨⟨h1, h2⟩, h3⟩, h4⟩

end

theorem fxRouteCtrl_of_clear {v : W32} (h : bitAt v 0 = false) (s : State) :
    fxRouteCtrl v s = [0, 1, 2, 3].foldl (fun a j => ownLink j false a) (wr R.ROUTE_CTRL (v &&& 1) s) :=
  if_neg (ne_true_of_eq_false h)

theorem fxRouteCtrl_of_set {v : W32} (h : bitAt v 0 = true) (s : State) :
    fxRouteCtrl v s = [8, 9, 10, 11].foldl (fun a k =>
      if (port a k).st = .up then setPort k (fun p => { p with upSince := some (now a) }) a else a)
        (wr R.ROUTE_CTRL (v &&& 1) s) :=
  if_pos h

/-! Messages (R233, R235, R279 to R281) -/

section
variable {k : Nat} {h p : Bytes} {s t u : State} {m : Msg} {r : Remote}

theorem portUp_of_up (hup : (port s k).st = .up) : portUp k s = true := by simp [portUp, hup]

/-- A message of an UP port that is not held back is taken and acted on. -/
theorem done_onMsg_of_taken (hup : (port s k).st = .up) (hm : m = arrived k h p s) (hheld : msgHeld k m s = false)
    (ht : t = takeMsg k m s) {fx : Msg → State → State} (hfx : fx m t = u) :
    done (if portUp k s then onMsg k h p fx s else s) = .next (settled u) := by
  subst hm ht
  exact done_of_fits (portUp_of_up hup) ((if_neg (ne_true_of_eq_false hheld)).trans hfx)

/-- One that is held back stays where it is. -/
theorem done_onMsg_of_held (hm : m = arrived k h p s) (hheld : msgHeld k m s = true) (fx : Msg → State → State) :
    done (if portUp k s then onMsg k h p fx s else s) = .next (settled s) := by
  subst hm
  have hstays : onMsg k h p fx s = s := if_pos hheld
  rw [hstays, ite_self, done]

theorem fxRdData_of_remote (hr : remoteOf s k m.tag false = some r) :
    fxRdData k m s = endRemote r (answerData r.owner r.owner.base m.payload m.poison) s := by
  rw [fxRdData, hr]

theorem fxWrAck_of_remote (hr : remoteOf s k m.tag true = some r) : fxWrAck k m s = endRemote r (answerAck r.owner) s := by
  rw [fxWrAck, hr]

theorem fxErr_of_remote
    (hr : s.torus.remotes.find? (fun r => r.tag == m.tag && (if k < 8 then r.port == k else 8 ≤ r.port)) = some r) :
    fxErr k m s = pumpRemotes (failRemote r (leAt m.payload 0 1) s).torus.waiting (failRemote r (leAt m.payload 0 1) s) := by
  simp only [fxErr, hr]

/-- A message for this node; the port remembers where one of an accelerator came from. -/
theorem fxFwd_of_delivered (hloc : m.loc = true) (hu : deliverFwd m s = some u) :
    fxFwd k m s = if k < 8 then { u with torus.fwds := SMap.set none u.torus.fwds m.tag (some k) } else u := by
  rw [fxFwd, if_pos (by simp [hloc]), hu]

/-- An order over a seam goes into MBX14, or finds it BUSY. -/
theorem fxOrder_of_seam (hseam : 8 ≤ k) (m : Msg) (s : State) : fxOrder k m s =
    if (mbox s 14).st = .idle then fxSubmit 3 (m.src + 2048 * m.tag) 14 (setMb 14 (fun x => { x with req := m.payload }) s)
    else sendNodeOrCount true (orderReplyMsg m.src m.tag (replyV3 m.payload St.BUSY (detail noDetail 0))) s :=
  if_neg (Nat.not_lt.mpr hseam)

end

/-- Settles O8: in a state that its event fits, each command is the effect that its rules give. -/
theorem flitAndMessageCommandsComplete : Obligations.FlitAndMessageCommandsComplete := by
  unfold Obligations.FlitAndMessageCommandsComplete
  refine ⟨?bad, ?accepted, ?outOfSequence, ?idle, ?farLoop, ?nak, ?nakLimit, ?trayStatus, ?injected, ?unreachable,
    ?straight, ?refused, ?blocked, ?notice, ?declared, ?timeSent, ?timeTaken, ?timeMissing, ?routeOff, ?routeOn,
    ?requests, ?rdData, ?wrAck, ?err, ?fwd, ?fwdHeld, ?order, ?orderBusy, ?accStatus⟩
  case bad =>
    intro k bs s hup hfar hbad hall
    rw [exec_flitReceived_of_up hup, fxFlitReceived_of_bad hup hfar hbad]
    intro w hw x b he
    have hw' := List.all_eq_true.mp hall w hw
    rw [he] at hw'
    exact Bool.false_ne_true hw'
  case accepted =>
    intro k bs s f h hup hfar hclean hh hf htype hseq
    rw [exec_flitReceived_of_up hup, fxFlitReceived_of_clean hclean hh hf rfl]
    simp [hup, hfar, htype, hseq]
  case outOfSequence =>
    intro k bs s f h hup hfar hclean hh hf htype hseq
    rw [exec_flitReceived_of_up hup, fxFlitReceived_of_clean hclean hh hf rfl]
    simp [hup, hfar, htype, hseq]
  case idle =>
    intro k bs s f h t hup hfar hclean hh hf htype ht
    rw [exec_flitReceived_of_up hup, fxFlitReceived_of_clean hclean hh hf ht]
    simp [hup, hfar, htype]
  case farLoop =>
    intro k bs s htest hfar hclean
    rw [exec_flitReceived_of_farLoop htest hfar, fxFlitReceived_of_clean hclean rfl rfl rfl, if_pos hfar]
  case nak =>
    rintro k seq s t hup hfew rfl
    have hlimit : ¬ (replayFrom seq (port s k).txSeq (port s k).retry).any (fun x => 8 ≤ x.replays) = true := by
      simpa using hfew
    rw [exec_nak_of_up hup, fxNak_of_up hup, if_neg hlimit]
    rfl
  case nakLimit =>
    rintro k seq s t hup hlimit rfl
    rw [exec_nak_of_up hup, fxNak_of_up hup, if_pos hlimit]
    rfl
  case trayStatus => exact fun _ => rfl
  case injected => exact fun _ _ _ _ h => congrArg done (fxInject_of_sent h)
  case unreachable => exact fun _ _ _ h hremotes => congrArg done (fxInject_of_unreachable h hremotes)
  case straight =>
    intro k h p s f t g j hseam hf hup hdst hloc ht hg hen hhops hnew hj hgoes
    rw [exec_flitForward_of_up hseam hf hup hdst hloc, fxForward_of_first ht hg hen hhops hnew hj, if_pos hgoes]
  case refused =>
    intro k h p s f t g hseam hf hup hdst hloc ht hg hrefused
    rw [exec_flitForward_of_up hseam hf hup hdst hloc, fxForward_of_refused ht hg hrefused]
  case blocked =>
    intro k h p s f t g j hseam hf hup hdst hloc ht hg hen hhops hnew hj hgoes
    rw [exec_flitForward_of_up hseam hf hup hdst hloc, fxForward_of_first ht hg hen hhops hnew hj,
      if_neg (ne_true_of_eq_false hgoes)]
    rfl
  case notice =>
    rintro j p s t hup rfl
    exact done_of_fits hup rfl
  case declared => exact fun _ _ _ hown hup hen hsince hlong => exec_linkUpDeclare_of_stood hown hup hen hsince hlong
  case timeSent => exact fun _ _ hup => done_of_fits hup rfl
  case timeTaken =>
    exact fun _ _ _ _ _ _ _ _ _ hup ht2 ht3 ht4 ht1 h1 h2 h3 h4 hu =>
      done_of_fits hup (fxTimeFlit_of_stamped ht2 ht3 ht4 ht1 h1 h2 h3 h4 hu)
  case timeMissing =>
    intro j p arrival s hup hzero
    refine done_of_fits hup (fxTimeFlit_of_missing rfl rfl rfl rfl ?_ arrival)
    omega
  case routeOff => exact fun _ s h => congrArg done (fxRouteCtrl_of_clear h s)
  case routeOn => exact fun _ s h => congrArg done (fxRouteCtrl_of_set h s)
  case requests =>
    exact fun _ _ _ _ _ hup hm hheld =>
      ⟨done_onMsg_of_taken hup hm hheld rfl rfl, done_onMsg_of_taken hup hm hheld rfl rfl,
        done_onMsg_of_taken hup hm hheld rfl rfl⟩
  case rdData =>
    exact fun _ _ _ _ _ _ _ hup hm hheld ht hr => done_onMsg_of_taken hup hm hheld ht (fxRdData_of_remote hr)
  case wrAck =>
    exact fun _ _ _ _ _ _ _ hup hm hheld ht hr => done_onMsg_of_taken hup hm hheld ht (fxWrAck_of_remote hr)
  case err =>
    exact fun _ _ _ _ _ _ _ hup hm hheld ht hr => done_onMsg_of_taken hup hm hheld ht (fxErr_of_remote hr)
  case fwd =>
    exact fun _ _ _ _ _ _ _ hup hm hheld ht hloc hu => done_onMsg_of_taken hup hm hheld ht (fxFwd_of_delivered hloc hu)
  case fwdHeld => exact fun _ _ _ _ _ _ hm hheld => done_onMsg_of_held hm hheld _
  case order =>
    exact fun _ _ _ _ _ _ hseam hup hm hheld ht hidle =>
      done_onMsg_of_taken hup hm hheld ht ((fxOrder_of_seam hseam _ _).trans (if_pos hidle))
  case orderBusy =>
    exact fun _ _ _ _ _ _ hseam hup hm hheld ht hbusy =>
      done_onMsg_of_taken hup hm hheld ht ((fxOrder_of_seam hseam _ _).trans (if_neg hbusy))
  case accStatus => exact fun _ _ _ hup => done_of_fits (portUp_of_up hup) rfl

end Sys2Proof.Machine

end FlitAndMessageCommands

/-! The ports and the Suorta link, which is port 12: training, identity, failures and control flits (07, R251). -/

section LinkTrainingCommands

namespace Sys2Proof.Machine

/-! Port 12 is the Suorta link (R251) -/

section
variable {k : Nat} (hk : k ≠ 12) (s : State)
include hk

theorem linkSt_of_port : linkSt k s = (port s k).st := if_neg hk

theorem linkMode_of_port : linkMode k s = (port s k).mode := if_neg hk

theorem linkGo_of_port (st : PortSt) : linkGo k st s = portGo k st s := if_neg hk

end

/-! Enable and disable (R218) -/

section
variable {k : Nat} {s t : State} (ht : t = setBits (ctrlReg k) 1 s)
include ht

/-- A port whose island is shutting down is enabled again once that has ended. -/
theorem fxPortEnable_of_draining (hdrain : t.chip.draining.getLsbD (portIsland k) = true) :
    fxPortEnable k s = { t with chip.reenable := t.chip.reenable ||| (1#26 <<< portIsland k) } := by
  subst ht
  exact if_pos hdrain

/-- Otherwise a powered port leaves OFF, and any other stays where it is. -/
theorem fxPortEnable_of_standing (hstands : t.chip.draining.getLsbD (portIsland k) = false) :
    fxPortEnable k s = if linkPowered k t && linkSt k t == .off then linkStart k t else t := by
  subst ht
  exact if_neg (ne_true_of_eq_false hstands)

end

theorem fxPortDisable_of_port {k : Nat} (hk : k ≠ 12) (s : State) :
    fxPortDisable k s = portLose k (portGo k .off (seamFails k (clrBits (R.PORT_CTRL k) 1 s))) := by
  have hreg : ctrlReg k = R.PORT_CTRL k := if_neg hk
  rw [fxPortDisable, hreg, if_neg hk]

/-! Training (R216, R218, R225, R226) -/

/-- The state registers of `n` lanes show LOCK, a free signal-to-noise ratio, and the polarity that was corrected. -/
def lanesShown (reg : Nat → Nat) (n inv : Nat) (s : State) : State :=
  (List.range n).foldl (fun a l => wr (reg l)
    (BitVec.ofNat 32 (1 + 256 * (Config.unstated 7 (a.fresh + l) % 256) + 65536 * b2n (inv.testBit l))) a) s

theorem fxLanesTrained_of_port {k : Nat} (hk : k ≠ 12) (inv : Nat) (s : State) : fxLanesTrained k inv s =
    setPort k (fun p => { p with lanes := 0xF }) (portGo k .locked
      { lanesShown (R.GH_LANE_STAT k) 4 inv s with fresh := (lanesShown (R.GH_LANE_STAT k) 4 inv s).fresh + 4 }) := by
  simp only [fxLanesTrained, if_neg hk, linkGo_of_port hk]
  rfl

theorem fxLanesTrained_of_suorta (inv : Nat) (s : State) : fxLanesTrained 12 inv s =
    { suGo .locked { lanesShown R.SU_LANE_STAT 16 inv s with fresh := (lanesShown R.SU_LANE_STAT 16 inv s).fresh + 16 } with
      su.lanes := 0xFFFF } := by
  simp only [fxLanesTrained, if_true, linkGo]
  rfl

theorem fxRetrain_of_port {k : Nat} (hk : k ≠ 12) (s : State) : fxRetrain k s =
    bump (R.GH_CNT_RETRAIN k) (setPort k (fun p => { p with upSince := none }) (portGo k .retrain (seamFails k s))) :=
  if_neg hk

theorem fxRetrainComplete_of_port {k : Nat} (hk : k ≠ 12) (s : State) : fxRetrainComplete k true s =
    setPort k (fun p => portPump { p with st := .up, upSince := some (now s), naks := []
                                          retry := p.retry.map (fun x => { x with replays := 0 }) }) s :=
  if_neg hk

/-! Alignment (R218, R219, R223, R244) -/

section
variable {k : Nat} {s : State} {certs : Bytes × Bytes}

/-- In near-end loopback a port needs no partner. -/
theorem fxFlitAligned_of_nearLoop (hmode : linkMode k s = 1) : fxFlitAligned certs k s = linkGo k .test s := if_pos hmode

/-- An A port sends its LINK_ID. -/
theorem fxFlitAligned_of_acc (hk : k < 8) (hmode : linkMode k s ≠ 1) : fxFlitAligned certs k s =
    sendCtrl k 0x03 (linkIdBytes (portGo k .ident s) k) (portGo k .ident s) := by
  have hport : k ≠ 12 := by omega
  simp only [fxFlitAligned, if_neg hmode, if_neg hport, if_pos hk]

/-- A seam sends its link table and its certificates as well. -/
theorem fxFlitAligned_of_seam (hlo : 8 ≤ k) (hhi : k < 12) (hmode : linkMode k s ≠ 1) {t : State} {known : List Nat}
    (ht : t = sendCtrl k 0x03 (linkIdBytes (portGo k .ident s) k) (portGo k .ident s))
    (hknown : known = t.torus.links.map (fun e => e.1)) : fxFlitAligned certs k s =
      sendCtrl k 0x08 (leBytes 1 1 ++ zeros 7 ++ certs.2) (sendCtrl k 0x08 (leBytes 1 0 ++ zeros 7 ++ certs.1)
        (sendFlits k (linkMapFlits (known.length + 1) known t) t)) := by
  subst ht hknown
  have hport : k ≠ 12 := by omega
  simp only [fxFlitAligned, if_neg hmode, if_neg hport, if_neg (Nat.not_lt.mpr hlo)]

end

/-! Identity (R219, R220, R251) -/

section
variable {k : Nat} {p : Bytes} {s : State}

/-- What a port keeps of its partner's LINK_ID, whatever it says: the partner, its credits, and the payload itself. -/
def partnerKept (k : Nat) (p : Bytes) (s : State) : State :=
  wr (R.PARTNER k) (BitVec.ofNat 32 (leAt p 2 2 % 2048 + leAt p 1 1 * 65536 + leAt p 0 1 * 16777216))
    (setPort k (fun q => { q with credit := linkCredits p, linkId := p }) s)

/-- It changes registers and its port alone. -/
theorem partnerKept_frame (k : Nat) (p : Bytes) (s : State) : (partnerKept k p s).pending = s.pending ∧
    (partnerKept k p s).mem = s.mem ∧ (partnerKept k p s).su = s.su := by
  rw [partnerKept, wr_pending, wr_mem, wr_su, setPort_pending, setPort_mem, setPort_su]
  exact ⟨rfl, rfl, rfl⟩

theorem fxLinkId_of_port (hk : k ≠ 12) : fxLinkId k p s =
    if identMatches k p s then identGo k (setPort k (fun q => { q with identOk := true }) (partnerKept k p s))
    else identMismatch k (partnerKept k p s) := by
  simp only [fxLinkId, if_neg hk]
  rfl

/-- An A port in normal mode takes an accelerator of version 1 for its partner (R220). -/
theorem identMatches_of_acc (hk : k < 8) (hmode : linkMode k s = 0) (hkind : leAt p 0 1 = 1) (hver : leAt p 4 1 = 1) :
    identMatches k p s = true := by
  have hport : k ≠ 12 := by omega
  simp [identMatches, hport, hk, hmode, hkind, hver]

/-- Nothing but its partner's identity keeps an A port in normal mode from UP. -/
theorem identGo_of_acc (hk : k < 8) (hmode : linkMode k s = 0) : identGo k s = fxPortUp k s := by
  simp [identGo, hmode, Nat.not_le.mpr hk]

end

/-- A change that keeps its port's mode keeps every link's. -/
theorem linkMode_setPort {f : Port → Port} (h : ∀ p, (f p).mode = p.mode) (k j : Nat) (s : State) :
    linkMode k (setPort j f s) = linkMode k s := by
  have hport : (port (setPort j f s) k).mode = (port s k).mode := by
    rw [port_setPort]
    split
    · next e => rw [h, e]
    · rfl
  rw [linkMode, hport]
  rfl

theorem linkMode_wr (k off : Nat) (v : W32) (s : State) : linkMode k (wr off v s) = linkMode k s := rfl

theorem linkMode_partnerKept (k : Nat) (p : Bytes) (s : State) : linkMode k (partnerKept k p s) = linkMode k s := by
  rw [partnerKept, linkMode_wr]
  exact linkMode_setPort (by intro _; rfl) k k s

/-! A partner's link table and certificates (R237, R449) -/

/-- A link table of one entry. -/
theorem fxLinkMap_of_one {p : Bytes} (hcount : leAt p 0 1 = 1) (j : Nat) (s : State) : fxLinkMap j p s =
    (let t := takeCtrl (8 + j) 0x05 p s
     let l := leAt (slice p 1 5) 0 2
     let e : LinkEntry := ⟨leAt (slice p 1 5) 2 1 == 1, leAt (slice p 1 5) 3 2⟩
     if noticeApplies (linkOf t l) e then flood j l (setLink l e t) else t) := by
  rw [fxLinkMap, hcount]
  rfl

section
variable {j : Nat} {p : Bytes} {s t : State}

/-- The first certificate waits for the second. -/
theorem fxKeyCert_of_first (hpart : leAt p 0 1 = 0) : fxKeyCert j p s = { takeCtrl (8 + j) 0x08 p s with
    sec.certPart := SMap.set [] (takeCtrl (8 + j) 0x08 p s).sec.certPart j (slice p 8 136) } := if_pos hpart

/-- The second certificate of a partner in IDENT: the pair is the partner's own, and decides on its port. -/
theorem fxKeyCert_of_second (hpart : leAt p 0 1 ≠ 0)
    (ht : t = { takeCtrl (8 + j) 0x08 p s with
      sec.certPart := SMap.set [] (takeCtrl (8 + j) 0x08 p s).sec.certPart j [] })
    (hident : (port t (8 + j)).st = .ident) {first : Bytes} {u v : State}
    (hfirst : first = (takeCtrl (8 + j) 0x08 p s).sec.certPart.get [] j)
    (hu : u = enterKey (seamNeighbour t j) (slice p 8 136) t)
    (hv : v = setPort (8 + j) (fun q => { q with certOk := true })
      (if keyHeld t (slice p 8 136) then u else passKeys j first (slice p 8 136) u)) :
    fxKeyCert j p s = if certPairOk first (slice p 8 136) then
        (if (port v (8 + j)).identOk then identGo (8 + j) v else v)
      else identMismatch (8 + j) t := by
  have hdirect : ((port t (8 + j)).st == .ident) = true := by rw [hident]; rfl
  subst hfirst hu hv
  simp only [fxKeyCert, if_neg hpart, ← ht, hdirect, Bool.true_and, if_true]

end

section
variable {j : Nat} {s : State}

/-- A held seam whose partner passed already goes on. -/
theorem fxIdentRecheck_of_identified (hok : (port s (8 + j)).identOk = true) :
    fxIdentRecheck j s = identGo (8 + j) (sendCtrl (8 + j) 0x03 (linkIdBytes s (8 + j)) s) := if_pos hok

/-- One whose partner passes now goes on too. -/
theorem fxIdentRecheck_of_matching (hok : (port s (8 + j)).identOk = false) (hid : (port s (8 + j)).linkId ≠ [])
    (hmatch : identMatches (8 + j) (port s (8 + j)).linkId s = true) : fxIdentRecheck j s =
      identGo (8 + j) (setPort (8 + j) (fun q => { q with identOk := true })
        (sendCtrl (8 + j) 0x03 (linkIdBytes s (8 + j)) s)) := by
  simp [fxIdentRecheck, hok, hid, hmatch]

end

/-- A port that no partner loops sends its CTRL flit, and in TEST its generator's. -/
theorem fxCtrlSlot_of_port {k : Nat} {s t : State} (hk : k ≠ 12) (hfar : (port s k).farLoop = false)
    (ht : t = setPort k (fun p => { p with idles := idleFlits 16 p, owed := [] }) (generate k (sendCtrl k 0x07 [] s))) :
    fxCtrlSlot k s = if (port s k).st = .test ∧ linkMode k s = 1 then loopBack k t else t := by
  subst ht
  simp [fxCtrlSlot, hk, hfar]

/-- Settles O7: in a port state that its event fits, each command is the effect that its rules give. -/
theorem linkTrainingCommandsComplete : Obligations.LinkTrainingCommandsComplete := by
  unfold Obligations.LinkTrainingCommandsComplete
  refine ⟨?enabled, ?enabledStays, ?enabledLater, ?disabled, ?suDisabled, ?retrain, ?suRetrain, ?lanes, ?suLanes, ?nearLoop,
    ?accAligned, ?seamAligned, ?suAligned, ?accIdentified, ?mismatch, ?linkMap, ?firstCert, ?secondCert, ?nowMatches,
    ?stillMatches, ?timeout, ?downRetry, ?alignLost, ?silent, ?retrainFailed, ?retrained, ?suRetrained, ?slot, ?suSlot,
    ?loopReq, ?windows⟩
  case enabled =>
    intro k s t ht hstands hpower hoff
    exact congrArg done ((fxPortEnable_of_standing ht hstands).trans (if_pos (by simp [hpower, hoff])))
  case enabledStays =>
    intro k s t ht hstands hno
    have hstays : ¬ (linkPowered k t && linkSt k t == .off) = true := by simpa [Classical.or_iff_not_imp_left] using hno
    exact congrArg done ((fxPortEnable_of_standing ht hstands).trans (if_neg hstays))
  case enabledLater => exact fun _ _ _ ht hdrain => congrArg done (fxPortEnable_of_draining ht hdrain)
  case disabled => exact fun _ s hk => congrArg done (fxPortDisable_of_port hk s)
  case suDisabled => exact fun _ => rfl
  case retrain => exact fun _ s hk hup => done_of_fits ((linkSt_of_port hk s).trans hup) (fxRetrain_of_port hk s)
  case suRetrain => exact fun _ hup => done_of_fits hup rfl
  case lanes =>
    exact fun _ inv s hk htrain => done_of_fits ((linkSt_of_port hk s).trans htrain) (fxLanesTrained_of_port hk inv s)
  case suLanes => exact fun inv s htrain => done_of_fits htrain (fxLanesTrained_of_suorta inv s)
  case nearLoop => exact fun _ _ hmode hlock => done_of_fits hlock (fxFlitAligned_of_nearLoop hmode)
  case accAligned => exact fun _ _ hk hmode hlock => done_of_fits hlock (fxFlitAligned_of_acc hk hmode)
  case seamAligned => exact fun _ _ hlo hhi hmode hlock => done_of_fits hlock (fxFlitAligned_of_seam hlo hhi hmode rfl rfl)
  case suAligned => exact fun _ hmode hlock => done_of_fits hlock (if_neg hmode)
  case accIdentified =>
    intro k p s hk hident hmode hkind hver
    have hport : k.val ≠ 12 := by omega
    obtain ⟨hpending, hmem, hsu⟩ := partnerKept_frame k p s
    refine ⟨setPort k (fun q => { q with identOk := true }) (partnerKept k p s),
      done_of_fits ((linkSt_of_port hport s).trans hident) ?_, hpending, hmem, hsu⟩
    rw [fxLinkId_of_port hport, if_pos (identMatches_of_acc hk hmode hkind hver)]
    exact identGo_of_acc hk ((linkMode_setPort (by intro _; rfl) ..).trans ((linkMode_partnerKept ..).trans hmode))
  case mismatch =>
    intro k p s hk hident hno
    exact done_of_fits ((linkSt_of_port hk s).trans hident)
      ((fxLinkId_of_port hk).trans (if_neg (ne_true_of_eq_false hno)))
  case linkMap => exact fun _ _ _ hident hcount => done_of_fits hident (fxLinkMap_of_one hcount _ _)
  case firstCert => exact fun _ _ _ hst hpart => done_of_fits (by simpa using hst.symm) (fxKeyCert_of_first hpart)
  case secondCert =>
    intro j p s t hst hpart ht hident
    exact done_of_fits (by simp [hst]) (fxKeyCert_of_second hpart ht hident rfl rfl rfl)
  case nowMatches =>
    exact fun _ _ hident herr hok hid hmatch =>
      done_of_fits (by simp [hident, herr]) (fxIdentRecheck_of_matching hok hid hmatch)
  case stillMatches =>
    exact fun _ _ hident herr hok => done_of_fits (by simp [hident, herr]) (fxIdentRecheck_of_identified hok)
  case timeout => exact fun _ _ hst => done_of_fits (by simpa using hst) rfl
  case downRetry => exact fun _ _ hdown hpower => done_of_fits (by simp [hdown, hpower]) rfl
  case alignLost => exact fun _ _ hup => done_of_fits hup rfl
  case silent => exact fun _ _ hup => done_of_fits hup rfl
  case retrainFailed => exact fun _ _ hst => done_of_fits hst rfl
  case retrained =>
    exact fun _ s hk hst => done_of_fits ((linkSt_of_port hk s).trans hst) (fxRetrainComplete_of_port hk s)
  case suRetrained => exact fun _ hst => done_of_fits hst rfl
  case slot =>
    intro k s hk hst hfar
    have hlt : k.val < 12 := by omega
    exact done_of_fits (by simpa [linkSt_of_port hk, hlt] using hst) (fxCtrlSlot_of_port hk hfar rfl)
  case suSlot => exact fun _ hup => done_of_fits (by simp [linkSt, hup]) rfl
  case loopReq => exact fun _ _ _ hst => done_of_fits (by simpa using hst) rfl
  case windows => exact fun _ _ _ hup => done_of_fits hup rfl

end Sys2Proof.Machine

end LinkTrainingCommands

/-! The frames of the host, its requests and answers, and the resets of its link (08). -/

section HostLinkCommands

namespace Sys2Proof.Machine

theorem suUp_of_up {s : State} (hup : s.su.st = .up) : suUp s = true := by simp [suUp, hup]

/-- Every command of the link that needs it UP answers its effect. -/
theorem done_of_suUp {s a b : State} (hup : s.su.st = .up) (hab : a = b) :
    done (if suUp s then a else s) = .next (settled b) :=
  done_of_fits (suUp_of_up hup) hab

/-! A frame (R224, R252, R255) -/

section
variable {bs : Bytes} {s c t : State}

theorem exec_frameReceived_of_up (hup : s.su.st = .up) :
    exec (.frameReceived bs) s = .next (settled (fxFrameReceived bs s)) :=
  done_of_fits (by simp [suUp_of_up hup]) rfl

/-- A frame that is not what its CRC says is not looked at. -/
theorem fxFrameReceived_of_broken
    (hcrc : (crc32c ((fix 32 bs).take 28 ++ bs.drop 32)).toNat ≠ leAt (fix 32 bs) 28 4) :
    fxFrameReceived bs s = suNak (bump R.SU_CNT_CRC (setBits R.SU_ERR 8
      (countFec R.SU_CNT_FEC_CORR R.SU_CNT_FEC_UNCORR s))) := if_pos hcrc

/-- The link fields of another are taken before its SEQ is looked at. -/
theorem fxFrameReceived_of_whole
    (hcrc : (crc32c ((fix 32 bs).take 28 ++ bs.drop 32)).toNat = leAt (fix 32 bs) 28 4)
    (hc : c = countFec R.SU_CNT_FEC_CORR R.SU_CNT_FEC_UNCORR s)
    (ht : t = { c with su := suPump (suLinkFields (fix 32 bs) c.su) }) :
    fxFrameReceived bs s = sendPending [1, 2, 3, 4, 5, 6, 7, 8]
      (if leAt (fix 32 bs) 2 2 % 4096 = t.su.rxSeq then
        suAccept (frameOf (fix 32 bs) ((bs.drop 32).take (leAt (fix 32 bs) 10 2))) t else suNak t) := by
  subst hc ht
  exact if_neg (not_not.mpr hcrc)

end

/-! Requests of the host (R256, R262, R453) -/

section
variable {f : Frame} {n : Nat} {write : Bool} {go : State → State} {s : State}

theorem hostAdmits_of_admitted (hfw : fwAdmits s 35 f.addr n write = true)
    (hpin : pinnedOut s 35 (f.addr - regBase) = false) : hostAdmits f n write go s = go s := by
  simp [hostAdmits, hfw, hpin]

/-- The model's check of a request's length, passed. -/
theorem frame_holds_length (hlo : 1 ≤ n) (hhi : n ≤ 4096) : ¬ (decide (n = 0) || decide (4096 < n)) = true := by
  simp [Nat.one_le_iff_ne_zero.mp hlo, hhi]

/-- A read of no bytes, or of more than a frame holds. -/
theorem fxHRd_of_bad_length (hlen : f.len = 0 ∨ 4096 < f.len) :
    fxHRd f s = answerErr (.host f.tag f.addr f.len) 1 (hostTag f s) := if_pos (by simpa using hlen)

theorem fxHRd_of_length (hlo : 1 ≤ f.len) (hhi : f.len ≤ 4096) :
    fxHRd f s = hostAdmits f f.len false (serveRead false (.host f.tag f.addr f.len) f.addr f.len) (hostTag f s) :=
  if_neg (frame_holds_length hlo hhi)

/-- A write or a write-back of a length that a frame holds is refused for its POISON, or goes by the firewall. -/
theorem fxHWr_of_length (hlo : 1 ≤ f.data.length) (hhi : f.data.length ≤ 4096) : fxHWr f s =
    if f.poison ≠ 0 then answerErr (.host f.tag f.addr f.data.length) 5 (hostTag f s)
    else hostAdmits f f.data.length true
      (serveWrite false 35 (.host f.tag f.addr f.data.length) f.addr f.data) (hostTag f s) :=
  if_neg (frame_holds_length hlo hhi)

theorem fxHWb_of_length (hlo : 1 ≤ f.data.length) (hhi : f.data.length ≤ 4096) : fxHWb f s =
    if f.poison ≠ 0 then answerErr (.host f.tag f.addr f.data.length) 5 (hostTag f s)
    else hostAdmits f f.data.length true (writeBack f) (hostTag f s) :=
  if_neg (frame_holds_length hlo hhi)

end

/-! Answers of the host (R258, R261, R263) -/

section
variable {f : Frame} {r : HostReq} {s : State}

theorem fxData_of_request (hr : requestOf s (fun op => op == Op.RD_S || op == Op.RD_NC) f.tag = some r) :
    fxData f s = endRequest r (fun t => answerData r.owner (hostBase + r.addr) f.data f.badWords (fillLines r f t))
      (bumpBy R.SU_CNT_POISON f.badGroups s) := by
  rw [fxData, hr]

theorem fxGrant_of_request (hr : requestOf s isClaim f.tag = some r) : fxGrant f s = endRequest r (claimed r) s := by
  rw [fxGrant, hr]

theorem fxAck_of_request (hr : requestOf s (fun op => op == Op.WR_NC || op == Op.DROP) f.tag = some r) :
    fxAck f s = endRequest r (answerAck r.owner) s := by
  rw [fxAck, hr]

end

/-! Time (R328, R329) -/

/-- The host's TIME frame is answered with the time that stands. -/
def timeAnswered (p : Bytes) (s : State) : State :=
  sendFrame { ch := 5, op := 0x62, len := 32,
              data := leBytes 8 (taiNow s) ++ leBytes 8 (taiNow s) ++ leBytes 4 (leAt p 16 4) ++ zeros 12 } s

section
variable {p : Bytes} {s t u : State}

/-- A time that is not TRACEABLE is kept and not used. -/
theorem fxTimeFrame_of_untraceable (htrace : (leAt p 20 1).testBit 0 = false) (ht : t = timeAnswered p s) :
    fxTimeFrame p s =
      { t with time.hostT1 := leAt p 0 8, time.hostT2 := taiNow s, time.hostT3 := taiNow s, time.hostAny := false } := by
  subst ht
  simp only [fxTimeFrame, htrace]
  rfl

/-- A TRACEABLE one closes the exchange before it. -/
theorem fxTimeFrame_of_traceable (htrace : (leAt p 20 1).testBit 0 = true) (ht : t = timeAnswered p s)
    (hu : u = { t with time.hostT1 := leAt p 0 8, time.hostT2 := taiNow s, time.hostT3 := taiNow s, time.hostAny := true }) :
    fxTimeFrame p s =
      if t.time.hostAny && leAt p 8 8 != 0 && (!seamMode u || isTimeRoot u) then
        correctTime ((((t.time.hostT2 : Int) - t.time.hostT1) - ((leAt p 8 8 : Nat) - (t.time.hostT3 : Int))) / 2) u
      else u := by
  subst ht hu
  simp [fxTimeFrame, htrace, timeAnswered]

end

theorem exec_timeFrame_of_up {h p : Bytes} {s : State} (hup : s.su.st = .up) (hch : (frameOf h p).ch = 5) :
    exec (.timeFrame h p) s = .next (settled (fxTimeFrame p s)) :=
  done_of_fits (by simp [suUp_of_up hup, hch]) rfl

/-! Forwarded frames (R281) -/

section
variable {f : Frame} {m : Msg} {s t : State} (hm : m = fwdMsg f s)
include hm

/-- The node remembers that the host injected the message, wherever it goes. -/
theorem fxFwdFrame_of_remote (hdst : m.dst ≠ nodeId s) (ht : sendNode false m s = some t) :
    fxFwdFrame f s = { t with torus.fwds := SMap.set none t.torus.fwds m.tag (some 12) } := by
  subst hm
  simp only [fxFwdFrame, if_neg hdst, ht]

theorem fxFwdFrame_of_own (hdst : m.dst = nodeId s) (ht : deliverFwd m s = some t) :
    fxFwdFrame f s = { t with torus.fwds := SMap.set none t.torus.fwds m.tag (some 12) } := by
  subst hm
  simp only [fxFwdFrame, if_pos hdst, ht]

end

/-- Settles O9: with the link UP each command is the effect that its rules give. -/
theorem hostLinkCommandsComplete : Obligations.HostLinkCommandsComplete := by
  unfold Obligations.HostLinkCommandsComplete
  refine ⟨?broken, ?whole, ?readLength, ?read, ?write, ?poisoned, ?snoop, ?grant, ?data, ?ack, ?reset, ?down,
    ?timeKept, ?timeTaken, ?fwdRemote, ?fwdOwn⟩
  case broken => exact fun _ _ hup hcrc => (exec_frameReceived_of_up hup).trans (by rw [fxFrameReceived_of_broken hcrc])
  case whole =>
    intro bs s c t hup hc hcrc ht
    rw [exec_frameReceived_of_up hup, fxFrameReceived_of_whole hcrc hc ht]
  case readLength =>
    rintro h p s f hup rfl hlen
    exact done_of_suUp hup (fxHRd_of_bad_length hlen)
  case read =>
    rintro h p s f hup rfl hlo hhi hfw hpin
    exact done_of_suUp hup ((fxHRd_of_length hlo hhi).trans (hostAdmits_of_admitted hfw hpin))
  case write =>
    rintro h p s f hup rfl hlo hhi hclean hfw hpin
    have hadmits {go} := hostAdmits_of_admitted (go := go) hfw hpin
    exact ⟨done_of_suUp hup ((fxHWr_of_length hlo hhi).trans ((if_neg (not_not.mpr hclean)).trans hadmits)),
      done_of_suUp hup ((fxHWb_of_length hlo hhi).trans ((if_neg (not_not.mpr hclean)).trans hadmits))⟩
  case poisoned =>
    rintro h p s f hup rfl hlo hhi hpoison
    exact ⟨done_of_suUp hup ((fxHWr_of_length hlo hhi).trans (if_pos hpoison)),
      done_of_suUp hup ((fxHWb_of_length hlo hhi).trans (if_pos hpoison))⟩
  case snoop =>
    rintro h p s f hup rfl
    exact done_of_suUp hup rfl
  case grant =>
    rintro h p s f r hup rfl hr hopen
    have hstill : dramOpen { s with su.reqs := s.su.reqs.erase r } = true := hopen
    have hopens : ¬ (!dramOpen { s with su.reqs := s.su.reqs.erase r }) = true := by simp [hstill]
    exact done_of_suUp hup ((fxGrant_of_request hr).trans
      (congrArg (fun u : State => pumpHost u.su.waits u) (if_neg hopens)))
  case data =>
    rintro h p s f r hup rfl hr
    exact done_of_suUp hup (fxData_of_request hr)
  case ack =>
    rintro h p s f r hup rfl hr
    exact done_of_suUp hup (fxAck_of_request hr)
  case reset => exact fun _ hup => done_of_suUp hup rfl
  case down =>
    intro s hoff hdown
    exact congrArg done (if_neg (by simp [hoff, hdown]))
  case timeKept =>
    intro h p s hup hch htrace
    rw [exec_timeFrame_of_up hup hch, fxTimeFrame_of_untraceable htrace rfl]
    rfl
  case timeTaken =>
    intro h p s t u hup hch htrace ht hu
    rw [exec_timeFrame_of_up hup hch, fxTimeFrame_of_traceable htrace ht hu]
  case fwdRemote => exact fun _ _ _ _ _ hup hm hdst ht => done_of_suUp hup (fxFwdFrame_of_remote hm hdst ht)
  case fwdOwn => exact fun _ _ _ _ _ hup hm hdst ht => done_of_suUp hup (fxFwdFrame_of_own hm hdst ht)

end Sys2Proof.Machine

end HostLinkCommands

/-! Counter registers (R247, R370, R423, R493). -/

section Counters

namespace Sys2Proof.Machine

/-- Settles O47: a count is a write of one register word. -/
theorem countersSaturate : Obligations.CountersSaturate := by
  unfold Obligations.CountersSaturate
  exact fun off n s => ⟨rdN_bumpBy off n s, fun _ ho => rd_bumpBy_other ho n s, rfl⟩

end Sys2Proof.Machine

end Counters

/-! The commands on mailboxes and the messages of the rack (08). -/

section MailboxAndMctpCommands

namespace Sys2Proof.Machine

/-! SUBMIT, RELEASE and ABORT, by the mailbox's state (R266) -/

section
variable {n : Nat} {s : State}

theorem fxSubmit_of_idle (src back : Nat) (hidle : (mbox s n).st = .idle) : fxSubmit src back n s =
    answerUnknown n (setMb n (fun m => { m with
      st := .submitted, source := src, backTo := back, committed := false, req := sealed n m.req }) s) :=
  if_pos hidle

theorem fxSubmit_of_not_idle (src back : Nat) (hbusy : (mbox s n).st ≠ .idle) :
    fxSubmit src back n s = setBits (R.MB_ERR n) 2 s :=
  if_neg hbusy

theorem fxMbRelease_of_replied (h : (mbox s n).st = .replied) : fxMbRelease n s = mbIdle n s := if_pos h

theorem fxMbRelease_of_not_replied (h : (mbox s n).st ≠ .replied) : fxMbRelease n s = s := if_neg h

theorem fxMbAbort_of_submitted (h : (mbox s n).st = .submitted) : fxMbAbort n s = mbIdle n s := if_pos h

theorem fxMbAbort_of_not_submitted (h : (mbox s n).st ≠ .submitted) : fxMbAbort n s = s := if_neg h

/-- The hardware responder answers an order that a core serves (R267). -/
theorem fxTakeTimeout_of_core {k : Nat} (hst : (mbox s n).st = .submitted)
    (hcore : servingCore n (mbox s n).req = some k) :
    fxTakeTimeout n s = replyFail n St.HELD_RESTARTING noDetail 0 s :=
  if_pos (by simp [hst, hcore])

end

/-! Messages of the rack (R278, R279) -/

section
variable {p tag : Nat} {msg : Bytes} {s : State}

/-- With an endpoint ID set, a message of the TAL8's vendor is an order for the port's mailbox, or is answered BUSY. -/
theorem fxMctpOrder_of_vendor (heid : mctpEid p s ≠ 0) (htype : leAt msg 0 1 = 0x7F) (hiana : slice msg 1 4 = ianaBytes) :
    fxMctpOrder p tag msg s =
      if (mbox s (12 + p)).st = .idle then
        fxSubmit 1 tag (12 + p) (setMb (12 + p) (fun x => { x with req := msg.drop 5 }) s)
      else mctpSend p tag (mctpBody (replyBytes (msg.drop 5) St.BUSY (detail noDetail 0))) s :=
  if_neg (by simp [heid, htype, hiana])

/-- Set and force give the port the ID that the message names, unless that is a reserved one. -/
theorem fxSetEid_of_valid (hop : leAt msg 3 1 % 4 < 2) (hnull : leAt msg 4 1 ≠ 0) (hall : leAt msg 4 1 ≠ 255) :
    fxSetEid p tag msg s = mctpReply p tag msg 1 0 ([0#8] ++ leBytes 1 (leAt msg 4 1) ++ [0#8])
      (setMb (12 + p) (fun m => { m with major := 3, minor := 2 })
        (wrFld R.MCTP_EID (8 * p + 7) (8 * p) (leAt msg 4 1) s)) :=
  if_neg (by simp [hop, hnull, hall])

end

/-- Settles O10: while the standby part runs each command is the effect that the mailbox's state or the message gives. -/
theorem mailboxAndMctpCommandsComplete : Obligations.MailboxAndMctpCommandsComplete := by
  unfold Obligations.MailboxAndMctpCommandsComplete
  refine ⟨?submitted, ?collides, ?released, ?releaseIgnored, ?aborted, ?abortIgnored, ?takeTimeout, ?rackOrder, ?rackBusy,
    ?setEid, ?answers⟩
  case submitted =>
    exact fun _ _ hrun hreach hidle => done_of_fits (by simp [hrun, hreach]) (fxSubmit_of_idle 0 0 hidle)
  case collides =>
    exact fun _ _ hrun hreach hbusy => done_of_fits (by simp [hrun, hreach]) (fxSubmit_of_not_idle 0 0 hbusy)
  case released => exact fun _ _ hrun hst => done_of_fits hrun (fxMbRelease_of_replied hst)
  case releaseIgnored => exact fun _ _ hrun hst => done_of_fits hrun (fxMbRelease_of_not_replied hst)
  case aborted => exact fun _ _ hrun hst => done_of_fits hrun (fxMbAbort_of_submitted hst)
  case abortIgnored => exact fun _ _ hrun hst => done_of_fits hrun (fxMbAbort_of_not_submitted hst)
  case takeTimeout => exact fun _ _ _ hrun hst hcore => done_of_fits hrun (fxTakeTimeout_of_core hst hcore)
  case rackOrder =>
    exact fun _ _ _ _ hrun heid htype hiana hidle =>
      done_of_fits hrun ((fxMctpOrder_of_vendor heid htype hiana).trans (if_pos hidle))
  case rackBusy =>
    exact fun _ _ _ _ hrun heid htype hiana hbusy =>
      done_of_fits hrun ((fxMctpOrder_of_vendor heid htype hiana).trans (if_neg hbusy))
  case setEid => exact fun _ _ _ _ hrun hop hnull hall => done_of_fits hrun (fxSetEid_of_valid hop hnull hall)
  case answers =>
    intro p tag msg s hrun
    exact ⟨done_of_fits hrun rfl, done_of_fits hrun rfl, ⟨_, done_of_fits hrun rfl⟩, done_of_fits hrun rfl,
      ⟨_, done_of_fits hrun rfl⟩⟩

end Sys2Proof.Machine

end MailboxAndMctpCommands

/-! Chip and power orders, and their TAL2 commands (R275, 0x0101 to 0x0208; R277). -/

section ChipAndPowerOrders

namespace Sys2Proof.Machine

/-- A TAL2 command that has been taken answers the settling of what its own part makes of the begun state. -/
theorem done_onCommand_of_taken {s a : State} {n cmd : Nat} (h : takenV2 s n cmd = true) {body : Bytes → State → State}
    (hbody : body (payload s n) (begun n s) = a) : done (onCommand cmd n body s) = .next (settled a) := by
  rw [onCommand_taken h, hbody, done]

/-! Registers by order (R275) -/

/-- Where every word of a range is good, no word is the first that is not. -/
theorem firstWord_eq_none {a c : Nat} {good : Nat → Bool}
    (h : (List.range c).all (fun i => good (wordAddr a i)) = true) : firstWord a c (fun w => !good w) = none := by
  simpa [firstWord] using h

section
variable {n : Nat} {p : Bytes} {s : State}

theorem fxHello_of_version {a b : Nat} (h : helloVersion n (leAt p 0 1) (leAt p 1 1) (leAt p 2 1) = some (a, b)) :
    fxHello n p s = replyDone n (leBytes 1 a ++ leBytes 1 b ++ zeros 2 ++ leBytes 4 chipId ++ leBytes 4 (rdN s R.CHIP_CAP))
      (setMb n (fun m => { m with major := a, minor := b }) s) := by
  rw [fxHello, h]

/-- A range of registers that the requester may read, and that all answer. -/
theorem fxRegRead_of_registers
    (hfw : wordsAdmitted s (orderMaster s n) (leAt p 0 8) (min (leAt p 8 4) 1024) false = true)
    (halign : leAt p 0 8 % 4 = 0) (hlo : 1 ≤ leAt p 8 4) (hhi : leAt p 8 4 ≤ 1024)
    (hreg : (List.range (leAt p 8 4)).all (fun i => isRegWord s (wordAddr (leAt p 0 8) i)) = true)
    (hup : (List.range (leAt p 8 4)).all (fun i => regAnswers s (wordAddr (leAt p 0 8) i - regBase)) = true) :
    fxRegRead n p s = replyDone n (fetchWords (leAt p 8 4) (leAt p 0 8 - regBase) s).1
      (fetchWords (leAt p 8 4) (leAt p 0 8 - regBase) s).2 := by
  have hcount : ¬ (decide (leAt p 8 4 = 0) || decide (1024 < leAt p 8 4)) = true := by
    simp [Nat.one_le_iff_ne_zero.mp hlo, hhi]
  simp [fxRegRead, hfw, halign, hcount, firstWord_eq_none hreg,
    firstWord_eq_none (good := fun w => regAnswers s (w - regBase)) hup]

theorem fxRegWrite_of_register (hfw : fwAdmits s (orderMaster s n) (leAt p 0 8) 4 true = true)
    (halign : leAt p 0 8 % 4 = 0) (hreg : isRegWord s (leAt p 0 8) = true)
    (hup : regAnswers s (leAt p 0 8 - regBase) = true) :
    fxRegWrite n p s = replyDone n [] (writeReg (writeMaster s n (leAt p 0 8 - regBase)) true (leAt p 0 8 - regBase)
      (maskedWord s (leAt p 0 8 - regBase) (BitVec.ofNat 32 (leAt p 8 4)) (BitVec.ofNat 32 (leAt p 12 4))) s) := by
  simp [fxRegWrite, hfw, halign, hreg, hup]

theorem fxIdentitySet_of_unlocked (h : s.sec.lock.getLsbD 0 = false) : fxIdentitySet n p s = replyDone n []
    (releaseSeams (identityEvent (storeMasked R.TORUS_DIM (leAt p 4 4) (storeMasked R.NODE_ID (leAt p 0 4) s)))) :=
  if_neg (ne_true_of_eq_false h)

theorem fxPeerWinSet_of_window (h : leAt p 0 2 < 480) :
    fxPeerWinSet n p s = replyDone n [] (storeMasked (R.PEER_WIN (leAt p 0 2)) (leAt p 4 4) s) :=
  if_neg (Nat.not_le.mpr h)

/-! The host-line cache (R259, R260) -/

/-- Disabling ends with FAULT an enable that still waits, and is DONE once none does. -/
theorem fxHlcCtrl_of_disable {u : State} (hoff : leAt p 0 1 = 0) (hisland : islandOn 24 s = true)
    (hu : u = hlcDisable (acceptLong .hlcCtrl n (finishLong .hlcCtrl St.FAULT (detail noDetail 0) s))) :
    fxHlcCtrl n p s = if u.su.hlcEnableWaits then u else finishLong .hlcCtrl St.DONE [] u := by
  subst hu
  simp only [fxHlcCtrl, hoff, hisland]
  rfl

theorem fxHcrSet_of_range (hsize : leAt p 2 2 ≤ 64) (hend : leAt p 0 2 + leAt p 2 2 ≤ 384) (hmem : memReady s = false)
    (hisland : islandOn 24 s = true) :
    fxHcrSet n p s = replyDone n [] (storeMasked R.SU_HCR (leAt p 0 2 + 65536 * leAt p 2 2) s) := by
  have hbase : ¬ 384 < leAt p 0 2 := by omega
  have hrange : ¬ (decide (64 < leAt p 2 2) || decide (384 < leAt p 0 2 + leAt p 2 2)) = true := by
    simp [hsize, hend]
  simp only [fxHcrSet, if_neg hbase, if_neg hrange, hmem, hisland]
  rfl

/-! TRAY_ON and TRAY_OFF (R348, R519) -/

/-- Where neither debug nor a precedence is against it, TRAY_ON acts by the tray state, a rack's with TRAY_HOLD cleared. -/
theorem fxTrayOn_of_allowed {u : State} (hdebug : s.sec.debugUnlocked = false) (hallow : onDenied s n = false)
    (hu : u = if orderSource s n = 1 then { s with budget.trayHold := false } else s) :
    fxTrayOn n p s = trayOnActs n u := by
  subst hu
  exact (if_neg (ne_true_of_eq_false hdebug)).trans (if_neg (ne_true_of_eq_false hallow))

theorem fxTrayOn_of_denied (hdebug : s.sec.debugUnlocked = false) (hdeny : onDenied s n = true) :
    fxTrayOn n p s = replyFail n St.DENIED_PRECEDENCE noDetail 0 s :=
  (if_neg (ne_true_of_eq_false hdebug)).trans (if_pos hdeny)

theorem trayOnActs_of_running (h : s.chip.tray = .ready ∨ s.chip.tray = .degraded) :
    trayOnActs n s = replyDone n [] s := by
  rcases h with h | h <;> rw [trayOnActs, h]

/-- With no activation being applied, an on order in STANDBY is accepted (R484). -/
theorem trayOnActs_of_standby (h : s.chip.tray = .standby) (hcfg : cfgPend s = false) :
    trayOnActs n s = onGoes (loadControls (acceptLong .trayOn n s)) := by
  have happlied : ¬ (cfgPend s && emergLatches s == 0) = true := by simp [hcfg]
  simp only [trayOnActs, h, if_neg happlied, acceptOn]

theorem fxTrayOff_eq {u : State}
    (hu : u = acceptLong .trayOff n (if orderSource s n = 1 then { s with budget.trayHold := true } else s)) :
    fxTrayOff n p s = if u.chip.tray = .standby ∨ u.chip.tray = .off then
      finishLong .trayOff St.DONE [] (offRequest false u) else offRequest false u := by
  subst hu
  simp [fxTrayOff]

/-! ACC_POWER (R311, R348) -/

section
variable (hacc : leAt p 0 1 ≤ 7)
include hacc

theorem fxAccPower_of_on (hon : leAt p 1 1 = 1) : fxAccPower n p s = accPowerOn n (leAt p 0 1) s := by
  simp [fxAccPower, Nat.not_lt.mpr hacc, hon]

theorem fxAccPower_of_off (hoff : leAt p 1 1 = 0) : fxAccPower n p s = accPowerOff n (leAt p 0 1) s := by
  simp [fxAccPower, Nat.not_lt.mpr hacc, hoff]

end

section
variable {a : Nat}

/-- A group with an entry, free of a block and of a hold against this requester, waits to start while the tray runs and its
strand does not. -/
theorem accPowerOn_of_idle {u : State} (hblock : groupBlocked s (a + 1) = false)
    (hentry : slotMode s = true ∨ imgAccEntry s.st.image a ≠ 0xFFFF)
    (hhold : orderSource s n ≠ 0 ∨ s.budget.rackHold.getLsbD a = false) (htray : trayRuns s = true)
    (hstrand : (strand s (1 + a)).run = 0) (hwait : s.st.accWait.contains a = false)
    (hu : u = acceptLong (.accPower a true) n (if orderSource s n = 1 then setRackHold a false s else s)) :
    accPowerOn n a s = { u with st.accWait := u.st.accWait ++ [a] } := by
  subst hu
  have hnoEntry : ¬ (!slotMode s && decide (imgAccEntry s.st.image a = 0xFFFF)) = true := by
    simpa [Classical.or_iff_not_imp_left] using hentry
  have hheld : ¬ (decide (orderSource s n = 0) && s.budget.rackHold.getLsbD a) = true := by
    simpa [Classical.or_iff_not_imp_left] using hhold
  have hbusy : ¬ (!trayRuns s || decide ((strand s (1 + a)).run ≠ 0) || s.st.accWait.contains a) = true := by
    simpa [htray, hstrand] using hwait
  simp only [accPowerOn, if_neg (ne_true_of_eq_false hblock), if_neg hnoEntry, if_neg hheld, if_neg hbusy]

theorem accPowerOff_of_running (htray : trayRuns s = true) : accPowerOff n a s =
    beginAccOff a (acceptLong (.accPower a false) n (if orderSource s n = 1 then setRackHold a true s else s)) :=
  if_neg (by simp [htray])

end

/-! Queries (R277, R315) -/

theorem fxRailQuery_of_rails {rs : List Nat} (h : railsAsked p 256 = some rs) :
    fxRailQuery n p s = replyDone n (rs.flatMap (railRecord s)) s := by
  rw [fxRailQuery, h]

theorem fxReadRails_of_rails {rs : List Nat} (h : railsAsked p 64 = some rs) :
    fxReadRails n p s = replyDone n (rs.flatMap (railShort s)) s := by
  rw [fxReadRails, h]

theorem fxReadSlots_of_slotMode (h : slotMode s = true) : fxReadSlots n p s = replyDone n (slotTable s.st.image) s :=
  if_pos h

/-! STITCH_LOAD and SLOT_LOAD (R316) -/

section
variable {image : Bytes} {u : State} (hwin : inHostWindow s (leAt p 0 8) (leAt p 8 4) = true)
include hwin

/-- A program's length and place are good: its bytes are loaded, where something answers there. -/
theorem fxStitchLoad_of_window (hlen : leAt p 8 4 ≤ maxProgram) {r : Option Bytes}
    (hfetch : fetchImage (leAt p 0 8) (leAt p 8 4) image s = (u, r)) :
    fxStitchLoad n image p s = r.elim (replyFail n St.FAULT noDetail 0 u) (fun img => stitchLoaded n img u) := by
  simp only [fxStitchLoad, hwin, if_neg (Nat.not_lt.mpr hlen), hfetch]
  cases r <;> rfl

theorem fxSlotLoad_of_window (hlen : leAt p 8 4 ≤ 528) {b : Bytes}
    (hfetch : fetchImage (leAt p 0 8) (leAt p 8 4) image s = (u, some b)) :
    fxSlotLoad n image p s = slotsLoaded n (leAt p 8 4) b u := by
  simp only [fxSlotLoad, hwin, if_neg (Nat.not_lt.mpr hlen), hfetch]
  rfl

end

/-- In STANDBY a program is loaded unless R300 or a rail that is ON is against it. -/
theorem stitchLoaded_of_standby {img : Bytes} (h : s.chip.tray = .standby) : stitchLoaded n img s =
    if imageStatus (twClass s) img = St.BAD_LENGTH then replyFail n St.BAD_LENGTH (fieldOff s n 8) 0 s
    else if imageStatus (twClass s) img ≠ St.DONE || changesOnRail s img then replyFail n St.BAD_PARAM noDetail 0 s
    else replyDone n [] (runtimeLoad 0x0205 img (loadProgram img s)) := by
  simp only [stitchLoaded, if_neg (not_not.mpr h)]

/-- In STANDBY a valid slot table of the length that its count gives is loaded into a MODE 1 program. -/
theorem slotsLoaded_of_standby {len : Nat} {b : Bytes} (hmin : 16 ≤ len) (hlen : len = 16 + 8 * leAt b 3 1)
    (hmode : slotMode s = true) (hok : slotTableOk s.st.image b = true) (h : s.chip.tray = .standby) :
    slotsLoaded n len b s = replyDone n [] (runtimeLoad 0x0206 b (loadProgram (withSlots s.st.image b) s)) := by
  have hlength : ¬ (decide (len < 16) || decide (len ≠ 16 + 8 * leAt b 3 1)) = true := by simp [hmin, ← hlen]
  simp only [slotsLoaded, if_neg hlength, hmode, hok, if_neg (not_not.mpr h)]
  rfl

/-! MARGIN (R297) -/

/-- The step of a rail that is ON, has a PMBus path and stays below the starch limit. -/
theorem fxMargin_of_on {trim : W32} (hrail : leAt p 0 2 ≤ 255) (hon : (rail s (leAt p 0 2)).st = .on)
    (hpath : railHasPmbus s.st.image (leAt p 0 2) = true)
    (hstarch : aboveStarch s (leAt p 0 2) (clampStep (railMarginLim s.st.image (leAt p 0 2)) (signed16 (leAt p 2 2))) = false) :
    fxMargin n trim p s = replyDone n [] (applyMargin (leAt p 0 2) (signed16 (leAt p 2 2)) trim false s) := by
  have hbad : ¬ (decide (255 < leAt p 0 2) || decide ((rail s (leAt p 0 2)).st ≠ .on)
      || !railHasPmbus s.st.image (leAt p 0 2)) = true := by
    simp [hrail, hon, hpath]
  simp only [fxMargin, if_neg hbad, if_neg (ne_true_of_eq_false hstarch)]

end

/-- Settles O11: a taken order that its own rule admits is the effect of that rule, with its reply. -/
theorem chipAndPowerOrdersComplete : Obligations.ChipAndPowerOrdersComplete := by
  unfold Obligations.ChipAndPowerOrdersComplete
  rintro n s t p rfl rfl
  refine ⟨?hello, ?ping, ?trayQuery, ?getId, ?regRead, ?regWrite, ?identity, ?peerWin, ?hlcOff, ?hcr, ?onRunning, ?onStandby,
    ?powerOn, ?onDenied, ?trayOff, ?powerOff, ?accOn, ?accOff, ?railQuery, ?readRails, ?program, ?noProgram, ?slots,
    ?loadSlots, ?readSlots, ?failLog, ?readLog, ?margin⟩
  case hello => exact fun _ _ h hver => done_onOrder_of_taken h (fxHello_of_version hver)
  case ping => exact fun h => done_onOrder_of_taken h rfl
  case trayQuery => exact fun h => done_onOrder_of_taken h rfl
  case getId => exact fun h => done_onCommand_of_taken h rfl
  case regRead =>
    exact fun h hfw halign hlo hhi hreg hup =>
      done_onOrder_of_taken h (fxRegRead_of_registers hfw halign hlo hhi hreg hup)
  case regWrite =>
    exact fun h hfw halign hreg hup => done_onOrder_of_taken h (fxRegWrite_of_register hfw halign hreg hup)
  case identity => exact fun h hlock => done_onOrder_of_taken h (fxIdentitySet_of_unlocked hlock)
  case peerWin => exact fun h hwin => done_onOrder_of_taken h (fxPeerWinSet_of_window hwin)
  case hlcOff => exact fun h hoff hisland => done_onOrder_of_taken h (fxHlcCtrl_of_disable hoff hisland rfl)
  case hcr =>
    exact fun h hsize hend hmem hisland => done_onOrder_of_taken h (fxHcrSet_of_range hsize hend hmem hisland)
  case onRunning =>
    exact fun _ h hdebug hallow hu htray =>
      done_onOrder_of_taken h ((fxTrayOn_of_allowed hdebug hallow hu).trans (trayOnActs_of_running htray))
  case onStandby =>
    exact fun _ h hdebug hallow hu htray hcfg =>
      done_onOrder_of_taken h ((fxTrayOn_of_allowed hdebug hallow hu).trans (trayOnActs_of_standby htray hcfg))
  case powerOn =>
    exact fun _ h hdebug hallow hu htray hcfg =>
      done_onCommand_of_taken h ((fxTrayOn_of_allowed hdebug hallow hu).trans (trayOnActs_of_standby htray hcfg))
  case onDenied => exact fun h hdebug hdeny => done_onOrder_of_taken h (fxTrayOn_of_denied hdebug hdeny)
  case trayOff => exact fun _ h hu => done_onOrder_of_taken h (fxTrayOff_eq hu)
  case powerOff => exact fun _ h hu => done_onCommand_of_taken h (fxTrayOff_eq hu)
  case accOn =>
    exact fun _ h hacc hon hblock hentry hhold htray hstrand hwait hu =>
      done_onOrder_of_taken h ((fxAccPower_of_on hacc hon).trans
        (accPowerOn_of_idle hblock hentry hhold htray hstrand hwait hu))
  case accOff =>
    exact fun h hacc hoff htray =>
      done_onOrder_of_taken h ((fxAccPower_of_off hacc hoff).trans (accPowerOff_of_running htray))
  case railQuery => exact fun _ h hrs => done_onOrder_of_taken h (fxRailQuery_of_rails hrs)
  case readRails => exact fun _ h hrs => done_onCommand_of_taken h (fxReadRails_of_rails hrs)
  case program =>
    exact fun _ _ _ h hwin hlen hfetch htray =>
      done_onOrder_of_taken h ((fxStitchLoad_of_window hwin hlen hfetch).trans (stitchLoaded_of_standby htray))
  case noProgram =>
    exact fun _ _ h hwin hlen hfetch => done_onOrder_of_taken h (fxStitchLoad_of_window hwin hlen hfetch)
  case slots =>
    exact fun _ _ _ h hwin hlen hfetch hmin hcount hmode hok htray =>
      done_onOrder_of_taken h ((fxSlotLoad_of_window hwin hlen hfetch).trans
        (slotsLoaded_of_standby hmin hcount hmode hok htray))
  case loadSlots => exact fun h => done_onCommand_of_taken h rfl
  case readSlots => exact fun h hmode => done_onCommand_of_taken h (fxReadSlots_of_slotMode hmode)
  case failLog => exact fun h => done_onOrder_of_taken h rfl
  case readLog => exact fun h => done_onCommand_of_taken h rfl
  case margin =>
    exact fun _ h hrail hon hpath hstarch => done_onOrder_of_taken h (fxMargin_of_on hrail hon hpath hstarch)

end Sys2Proof.Machine

end ChipAndPowerOrders

/-! Metering, cooling and budget orders, and their TAL2 commands (R275, 0x0301 to 0x0505; R277). -/

section MeterCoolingAndBudgetOrders

namespace Sys2Proof.Machine

section
variable {n : Nat} {p : Bytes} {s : State}

/-! Metering (R325, R326, R330, R341, R342) -/

theorem fxMeterRead_of_rails {rs : List Nat} (h : railsAsked p 256 = some rs) :
    fxMeterRead n p s = replyDone n (rs.flatMap (fun r => leBytes 8 (energyNj s r))) s := by
  rw [fxMeterRead, h]

theorem fxReadEnergy_of_rails {rs : List Nat} (h : railsAsked p 256 = some rs) :
    fxReadEnergy n p s = replyDone n (rs.flatMap (fun r => leBytes 4 (energyNj s r / 1000000 % 2 ^ 32))) s := by
  rw [fxReadEnergy, h]

/-- Batches that fit at DEST in the host window are delivered over an open link. -/
theorem fxTicketFetch_of_window {bs : List Batch} (hbs : bs = deliverable (freeDelivered s) (leAt p 8 4))
    (hwin : inHostWindow s (leAt p 0 8) (bs.flatMap batchBytes).length = true) (hopen : suOpen s = true) :
    fxTicketFetch n p s = deliverBatches n (leAt p 0 8) bs (freeDelivered s) := by
  have hshut : ¬ (decide ((bs.flatMap batchBytes).length ≠ 0) && !suOpen s) = true := by simp [hopen]
  subst hbs
  simp only [fxTicketFetch, hwin, if_neg hshut]
  rfl

theorem fxBatchQuery_of_signed {b : Batch}
    (h : s.meter.batches.find? (fun b => b.idx == leAt p 0 8 && !b.record.isEmpty) = some b) :
    fxBatchQuery n p s = replyDone n b.record s := by
  rw [fxBatchQuery, h]

/-- Channels below 512 are swept once the standby part has run (R303, R325). -/
theorem fxCalibrate_of_channels {chs : List Nat} {u : State} (hfirst : leAt p 0 2 < 512) (hcount : leAt p 2 2 ≠ 0)
    (hend : leAt p 0 2 + leAt p 2 2 ≤ 512) (hup : standbyUp s = true)
    (hchs : chs = (List.range (leAt p 2 2)).map (fun i => leAt p 0 2 + i)) (hu : u = acceptLong .calibrate n s) :
    fxCalibrate n p s = startSweep chs
      { u with meter.calNamed := u.meter.calNamed ++ chs.filter (fun k => !u.meter.calNamed.contains k) } := by
  subst hchs hu
  have hbad : ¬ (decide (leAt p 2 2 = 0) || decide (512 < leAt p 0 2 + leAt p 2 2)) = true := by simp [hcount, hend]
  simp only [fxCalibrate, if_neg (Nat.not_le.mpr hfirst), if_neg hbad, hup]
  rfl

/-- A node that follows no parent over its seams takes the host's time. -/
theorem fxTimeSet_of_no_parent (h : (seamMode s && (timeParent s).isSome) = false) :
    fxTimeSet n p s = replyDone n [] (decideStep ((leAt p 0 8 : Int) - (taiNow s : Int)) s) :=
  if_neg (ne_true_of_eq_false h)

/-! Cooling and leaks (R394, R399) -/

/-- A duty that loop and curve leave room for is set on a channel whose valve no leak closes. -/
theorem coolOverride_of_allowed {c d : Nat} (ms : Nat) (hch : c ≤ 55) (hduty : d ≤ 100) (hreq : requiredDuty s c ≤ d)
    (hvalve : valveClosed s c = false) : coolOverride n c d ms s =
      replyDone n [] (setOutput (wr (R.CH_OVR c) (BitVec.ofNat 32 (256 * holdField ms + d)) s) c) := by
  have hbad : ¬ (decide (100 < d) || decide (d < requiredDuty s c)) = true := by simp [hduty, hreq]
  simp only [coolOverride, if_neg (Nat.not_lt.mpr hch), if_neg hbad, if_neg (ne_true_of_eq_false hvalve)]

/-- The loop that LEAK_RESET names, and that reads DRY, counts for the zone whose response it raised. -/
theorem fxLeakReset_of_dry (hloop : leAt p 0 1 ≤ 47) (hdry : (leakLoop s (leAt p 0 1)).cls = .dry) :
    fxLeakReset n p s = replyDone n [] ((leakLoop s (leAt p 0 1)).raised.elim s (fun z => endResponse z
      (raise 1 10 (leAt p 0 1) [] (setLoop (leAt p 0 1) (fun x => { x with named := true }) s)))) := by
  simp only [fxLeakReset, if_neg (Nat.not_lt.mpr hloop), if_neg (not_not.mpr hdry)]
  cases (leakLoop s (leAt p 0 1)).raised <;> rfl

/-! Budget and dispatch (R349, R363, R364) -/

/-- A cap of none, or one that its floor does not exceed. -/
theorem fxCapSet_of_floor (h : leAt p 0 4 = 0 ∨ leAt p 4 4 ≤ leAt p 0 4) :
    fxCapSet n p s = replyDone n [] (setCaps (orderSource s n == 1) (leAt p 0 4) (leAt p 4 4) s) := by
  refine if_neg ?_
  simp only [ne_eq, Bool.and_eq_true, decide_eq_true_eq]
  omega

theorem fxWorkSubmit_of_room {u : State} (hmask : leAt p 8 1 ≠ 0) (hroom : s.budget.items.length < 1024)
    (hu : u = { s with budget.items :=
      s.budget.items ++ [⟨leAt p 0 8, leAt p 8 1, leAt p 12 4, leAt p 16 4, leAt p 24 8, now s⟩] }) :
    fxWorkSubmit n p s = releaseGo u.budget.items 0 (replyDone n [] u) := by
  subst hu
  simp only [fxWorkSubmit, if_neg hmask, if_neg (Nat.not_le.mpr hroom)]

theorem fxWorkCancel_of_waiting {w : WorkItem} (h : s.budget.items.find? (fun w => w.id == leAt p 0 8) = some w) :
    fxWorkCancel n p s = replyDone n [] { s with budget.items := s.budget.items.erase w } := by
  simp only [fxWorkCancel, h]

end

/-- Settles O12: a taken order that its own rule admits is the effect of that rule, with its reply. -/
theorem meterCoolingAndBudgetOrdersComplete : Obligations.MeterCoolingAndBudgetOrdersComplete := by
  unfold Obligations.MeterCoolingAndBudgetOrdersComplete
  rintro n s t p rfl rfl
  refine ⟨?meterRead, ?readEnergy, ?ticketFetch, ?batchQuery, ?calibrate, ?timeSet, ?thermal, ?readTemps, ?coolQuery,
    ?override, ?setFan, ?leakQuery, ?leakResponse, ?leakNone, ?capSet, ?capQuery, ?workSubmit, ?workCancel, ?ledger⟩
  case meterRead => exact fun _ h hrs => done_onOrder_of_taken h (fxMeterRead_of_rails hrs)
  case readEnergy => exact fun _ h hrs => done_onCommand_of_taken h (fxReadEnergy_of_rails hrs)
  case ticketFetch =>
    exact fun _ h hbs hwin hopen => done_onOrder_of_taken h (fxTicketFetch_of_window hbs hwin hopen)
  case batchQuery => exact fun _ h hb => done_onOrder_of_taken h (fxBatchQuery_of_signed hb)
  case calibrate =>
    exact fun _ _ h hfirst hcount hend hup hchs hu =>
      done_onOrder_of_taken h (fxCalibrate_of_channels hfirst hcount hend hup hchs hu)
  case timeSet => exact fun h hfree => done_onOrder_of_taken h (fxTimeSet_of_no_parent hfree)
  case thermal => exact fun h => done_onOrder_of_taken h rfl
  case readTemps => exact fun h => done_onCommand_of_taken h rfl
  case coolQuery => exact fun h => done_onOrder_of_taken h rfl
  case override =>
    exact fun h hch hduty hreq hvalve =>
      done_onOrder_of_taken h (coolOverride_of_allowed _ hch hduty hreq hvalve)
  case setFan =>
    exact fun h hch hduty hreq hvalve =>
      done_onCommand_of_taken h (coolOverride_of_allowed 0 hch hduty hreq hvalve)
  case leakQuery => exact fun h => done_onOrder_of_taken h rfl
  case leakResponse =>
    intro z h hloop hdry hraised
    exact done_onOrder_of_taken h ((fxLeakReset_of_dry hloop hdry).trans (by rw [hraised]; rfl))
  case leakNone =>
    intro h hloop hdry hraised
    exact done_onOrder_of_taken h ((fxLeakReset_of_dry hloop hdry).trans (by rw [hraised]; rfl))
  case capSet => exact fun h hfloor => done_onOrder_of_taken h (fxCapSet_of_floor hfloor)
  case capQuery => exact fun h => done_onOrder_of_taken h rfl
  case workSubmit =>
    exact fun _ h hmask hroom hu => done_onOrder_of_taken h (fxWorkSubmit_of_room hmask hroom hu)
  case workCancel => exact fun _ h hw => done_onOrder_of_taken h (fxWorkCancel_of_waiting hw)
  case ledger => exact fun h => done_onOrder_of_taken h rfl

end Sys2Proof.Machine

end MeterCoolingAndBudgetOrders

/-! The enable journal (R303). -/

section EnableJournal

namespace Sys2Proof.Machine

/-! What leaves the stitch engine, or its journal, alone -/

@[simp] theorem raise_st (cls code inst : Nat) (data : Bytes) (s : State) : (raise cls code inst data s).st = s.st := by
  obtain ⟨_, _, h⟩ := raise_frame cls code inst data s
  rw [h]

@[simp] theorem twServe_st (n : Nat) (s : State) : (twServe n s).st = s.st := by
  unfold twServe
  extract_lets p
  split
  · split <;> rfl
  · rfl

@[simp] theorem twEngine_st (n : Nat) (q : TwReq) (s : State) : (twEngine n q s).st = s.st := twServe_st n _

@[simp] theorem setRail_journal (r : Nat) (f : Rail → Rail) (s : State) : (setRail r f s).st.journal = s.st.journal := rfl

@[simp] theorem driveRail_journal (r : Nat) (on : Bool) (s : State) : (driveRail r on s).st.journal = s.st.journal := by
  unfold driveRail
  extract_lets img s1
  split
  · rw [twEngine_st]
    rfl
  · rfl

@[simp] theorem freeLatch_journal (s : State) : (freeLatch s).st.journal = s.st.journal := by
  unfold freeLatch
  split <;> rfl

@[simp] theorem logFailure_journal (r cause : Nat) (a : FailAt) (s : State) :
    (logFailure r cause a s).st.journal = s.st.journal := by
  unfold logFailure
  extract_lets first t f t1
  have ht : t.st.journal = s.st.journal := by
    unfold t
    split
    · exact freeLatch_journal s
    · rfl
  have ht1 : t1.st.journal = t.st.journal := congrArg Stitch.journal (raise_st 2 1 r (failBytes f) t)
  rw [← ht, ← ht1]
  split <;> rfl

/-! What an enable, a disable and a failure's mark make of the journal -/

theorem enableRail_journal (r : Nat) (s : State) :
    (enableRail r s).st.journal = if r ∈ s.st.journal then s.st.journal else s.st.journal ++ [r] := by
  unfold enableRail
  extract_lets s1
  have hs1 : s1.st.journal = s.st.journal := by simp [s1]
  by_cases h : r ∈ s.st.journal
  · rw [if_pos (by simpa [hs1] using h), if_pos h, hs1]
  · rw [if_neg (by simpa [hs1] using h), if_neg h, hs1]

theorem disableRail_journal (r : Nat) (s : State) :
    (disableRail r s).st.journal = s.st.journal.filter (fun x => x != r) := by
  simp [disableRail]

theorem markFailed_journal (r cause : Nat) (a : FailAt) (s : State) :
    (markFailed r cause a s).st.journal = s.st.journal.filter (fun x => x != r) := by
  simp [markFailed]

theorem enableRail_journal_nodup {s : State} (h : s.st.journal.Nodup) (r : Nat) : (enableRail r s).st.journal.Nodup := by
  rw [enableRail_journal]
  split
  · exact h
  case isFalse hr => exact List.concat_eq_append ▸ h.concat hr

theorem journal_length_le {js : List Nat} (h : js.Nodup) (hlt : ∀ r ∈ js, r < 256) : js.length ≤ 256 := by
  have hsub : js ⊆ List.range 256 := fun r hr => List.mem_range.mpr (hlt r hr)
  simpa using (h.subperm hsub).length_le

/-! END of the standby part -/

@[simp] theorem strand_countStitch (n m : Nat) (s : State) :
    strand (countStitch n s) m = if m = n then { strand s n with exec := (strand s n).exec + 1 } else strand s m :=
  strand_setStrand n m _ s

/-- The end of strand 0's standby part sets STBY_MARK to the length of the journal (R303). -/
theorem fxEnd_of_standby {n : Nat} {s : State} (h : (strand s n).standby = true) : fxEnd n s =
    { setStrand n (fun t => { t with run := 0, wait := .none, standby := false }) s with
      st.stbyMark := s.st.journal.length, st.phase := 0 } := by
  rw [fxEnd, if_pos h]
  rfl

/-- END of a standby part, by a strand that has been counted the stitch. -/
theorem exec_stEnd_of_standby {n : Fin 16} {s : State} (hat : strandAt n 0x0 s = true)
    (h : (strand s n).standby = true) : exec (.stEnd n) s = .next (settled
      { setStrand n (fun t => { t with run := 0, wait := .none, standby := false }) (countStitch n s) with
        st.stbyMark := s.st.journal.length, st.phase := 0 }) :=
  done_of_fits hat (fxEnd_of_standby (by simpa using h))

/-- Settles O43, from what each of the three operations makes of the journal. -/
theorem journalKeepsEachRailOnce : Obligations.JournalKeepsEachRailOnce := by
  unfold Obligations.JournalKeepsEachRailOnce
  refine ⟨enableRail_journal, disableRail_journal, markFailed_journal, ?nodup, fun _ => journal_length_le, ?mark⟩
  case nodup =>
    intro r cause a s h
    rw [disableRail_journal, markFailed_journal]
    exact ⟨enableRail_journal_nodup h r, h.filter _, h.filter _⟩
  case mark => exact fun n s hat h => ⟨_, exec_stEnd_of_standby hat h, rfl⟩

end Sys2Proof.Machine

end EnableJournal

/-! The twelve stitches (R296). -/

section StitchCommands

namespace Sys2Proof.Machine

section
variable {n r : Nat} {s : State}

/-- END of a part that is neither the standby part nor that of a slot table. -/
theorem fxEnd_of_part (hpart : (strand s n).standby = false) (hslot : slotMode s = false) :
    fxEnd n s = setStrand n (fun t => { t with run := 0, wait := .none, standby := false }) s := by
  have hstart : ¬ (decide (n = 0) && slotMode s && decide (s.st.phase = 2) && !s.st.slotStarted) = true := by
    simp [hslot]
  rw [fxEnd, if_neg (ne_true_of_eq_false hpart)]
  exact if_neg hstart

/-! ENABLE, by what it finds (R301, R302, R306) -/

theorem fxEnable_of_issue (h : enableFinds s r = .issue) :
    fxEnable n r s = stitchWait n (.action r) (enableRail r s) := by
  rw [fxEnable, h]

theorem fxEnable_of_waits (h : enableFinds s r = .waits) : fxEnable n r s = stitchWait n (.parents r) s := by
  rw [fxEnable, h]

theorem fxEnable_of_complete (h : enableFinds s r = .complete) : fxEnable n r s = stitchDone n s := by
  rw [fxEnable, h]

theorem fxEnable_of_parentFailed (h : enableFinds s r = .parentFailed) :
    fxEnable n r s = stitchDone n (markFailed r Cause.PARENT { strand := n } s) := by
  rw [fxEnable, h]

/-! DISABLE (R304) -/

/-- The strand waits for a shut-down of the rail and its dependants, which is the last of those in progress. -/
theorem fxDisable_leaves (n r : Nat) (s : State) :
    (strand (fxDisable n r s) n).run = 2 ∧ (strand (fxDisable n r s) n).wait = .disable ∧
      (fxDisable n r s).st.downs =
        s.st.downs ++ [{ why := .strand n, rails := withDependants (stitchWait n .disable s) [r] }] := by
  have hstrand : strand (stitchWait n .disable s) n = { strand s n with run := 2, wait := .disable } := by
    simp [stitchWait]
  change (strand (stitchWait n .disable s) n).run = 2 ∧ (strand (stitchWait n .disable s) n).wait = .disable ∧ _
  rw [hstrand]
  exact ⟨rfl, rfl, rfl⟩

/-! CHECK (R296, R302) -/

theorem fxCheck_of_on {w mv da : Nat} (hfree : railBlocked s (stRail w) = false) (hon : (rail s (stRail w)).st = .on) :
    fxCheck n w mv da s = (
      let v := if (stMod w).testBit 0 then da else mv
      let s1 := setStrand n (fun t => { t with c := stA w ≤ v && v ≤ stB w % 65536 }) s
      stitchDone n (if !(stA w ≤ v && v ≤ stB w % 65536) && (stMod w).testBit 1
        then failRail (stRail w) Cause.CHECK { mv := mv, da := da, strand := n } s1 else s1)) := by
  have hsampled : ¬ (railBlocked s (stRail w) || (rail s (stRail w)).st != .on) = true := by simp [hfree, hon]
  exact if_neg hsampled

theorem fxCheck_of_not_on {w : Nat} (mv da : Nat) (hoff : (rail s (stRail w)).st ≠ .on) :
    fxCheck n w mv da s = stitchDone n (setStrand n (fun t => { t with c := false }) s) := by
  have hclears : (railBlocked s (stRail w) || (rail s (stRail w)).st != .on) = true := by simp [hoff]
  exact if_pos hclears

end

/-- Settles O15: a strand at a stitch of the operation, its stitch counted, does what the operation says. -/
theorem stitchesComplete : Obligations.StitchesComplete := by
  unfold Obligations.StitchesComplete
  refine ⟨?endStandby, ?endPart, ?enableIssues, ?enableWaits, ?enableComplete, ?enableParentFailed, ?disable, ?wait,
    ?waitpg, ?checkOn, ?checkOff, ?jump, ?jumpTaken, ?jumpPassed, ?signal, ?await, ?log, ?marginOn, ?marginOff⟩
  case endStandby =>
    intro n s hat h
    have hstrand := strand_setStrand n n (fun t => { t with run := 0, wait := .none, standby := false }) (countStitch n s)
    exact ⟨_, exec_stEnd_of_standby hat h, hstrand.trans (by simp), rfl, rfl, rfl, rfl⟩
  case endPart =>
    exact fun n s hat hpart hslot => done_of_fits hat (fxEnd_of_part (by simpa using hpart) hslot)
  case enableIssues => exact fun n s hat r hr h => done_of_fits hat (hr ▸ fxEnable_of_issue h)
  case enableWaits => exact fun n s hat r hr h => done_of_fits hat (hr ▸ fxEnable_of_waits h)
  case enableComplete => exact fun n s hat r hr h => done_of_fits hat (hr ▸ fxEnable_of_complete h)
  case enableParentFailed => exact fun n s hat r hr h => done_of_fits hat (hr ▸ fxEnable_of_parentFailed h)
  case disable => exact fun n s hat => ⟨_, done_of_fits hat rfl, fxDisable_leaves n _ (countStitch n s)⟩
  case wait => exact fun n s hat => done_of_fits hat rfl
  case waitpg => exact fun n s hat => done_of_fits hat rfl
  case checkOn =>
    rintro n mv da s hat w r v rfl rfl rfl hfree hon
    exact done_of_fits hat (fxCheck_of_on hfree hon)
  case checkOff => exact fun n mv da s hat hoff => done_of_fits hat (fxCheck_of_not_on mv da hoff)
  case jump => exact fun n s hat => done_of_fits hat rfl
  case jumpTaken => exact fun n s hat hcond => done_of_fits hat (if_pos hcond)
  case jumpPassed => exact fun n s hat hcond => done_of_fits hat (if_neg (ne_true_of_eq_false hcond))
  case signal => exact fun n s hat => done_of_fits hat rfl
  case await => exact fun n s hat => done_of_fits hat rfl
  case log => exact fun n s hat => done_of_fits hat rfl
  case marginOn =>
    rintro n trim s hat r rfl hon
    exact done_of_fits hat (if_pos hon)
  case marginOff => exact fun n trim s hat hoff => done_of_fits hat (if_neg hoff)

end Sys2Proof.Machine

end StitchCommands

/-! The events of rails, strands and slots (09). -/

section RailEventCommands

namespace Sys2Proof.Machine

section
variable {r : Nat} {s : State}

/-! Actions and their attempts (R287, R301, R417) -/

theorem fxParentsOn_of_issue {n : Nat} (h : enableFinds s r = .issue)
    (hn : (List.range 16).find? (fun n => (strand s n).run = 2 && (strand s n).wait == .parents r) = some n) :
    fxParentsOn r s = stitchWait n (.action r) (enableRail r s) := by
  rw [fxParentsOn, if_pos h, hn]

/-- The write of an action is sent again while it has had fewer than three attempts and its port is not STUCK. -/
theorem fxAttemptRetry_of_again {n : Nat} (hn : n = railEnIndex s.st.image r) (htries : (rail s r).tries < 3)
    (hstuck : twState n s ≠ 5) : fxAttemptRetry r s =
      twEngine n (operationReq s.st.image r (operationValue s.st.image r (rail s r).driven))
        (setRail r (fun x => { x with tries := x.tries + 1 }) (twRailDone r (setBits (R.TW_ERR n) 4 s))) := by
  subst hn
  have hfails : ¬ (decide (3 ≤ (rail s r).tries) || decide (twState (railEnIndex s.st.image r) s = 5)) = true := by
    simp [hstuck, htries]
  exact if_neg hfails

/-- The third attempt, or a STUCK port, fails the rail. -/
theorem fxAttemptRetry_of_last {u : State} (hlast : 3 ≤ (rail s r).tries ∨ twState (railEnIndex s.st.image r) s = 5)
    (hu : u = railIsDown r (failRail r Cause.EN_FAIL {} (twRailDone r (setBits (R.TW_ERR (railEnIndex s.st.image r)) 4 s)))) :
    fxAttemptRetry r s = if (rail s r).act = .enabling ∧ (rail u r).act = .disabling then u
      else setRail r (fun x => { x with act := .none }) u := by
  subst hu
  have hfails : (decide (3 ≤ (rail s r).tries) || decide (twState (railEnIndex s.st.image r) s = 5)) = true := by
    simpa using hlast
  rw [fxAttemptRetry, if_pos hfails]
  simp only [Bool.and_eq_true, decide_eq_true_eq]

/-- A margin write that is not the transaction in progress has waited for its next attempt (R297, R417). -/
theorem fxMarginRetry_of_waiting {n : Nat} {q : TwReq} {u : State} (hn : n = railPmPort s.st.image r)
    (hcur : (twPort s n).cur ≠ some q) (hu : u = setTw n (fun p => { p with again := p.again.erase q }) s) :
    fxMarginRetry r q s = if (rail s r).st ≠ .on then marginAck r u
      else if 3 ≤ q.tries then marginAck r (failRail r Cause.EN_FAIL {} u)
      else twEngine n { q with tries := q.tries + 1 } u := by
  subst hn hu
  have hwaits : ¬ ((twPort s (railPmPort s.st.image r)).cur == some q) = true := by simpa using hcur
  simp only [fxMarginRetry, if_neg hwaits]

/-! Polls (R288) -/

/-- A poll without a valid reading, fewer than ten in a row (R288). -/
theorem fxPoll_of_miss (b : Bool) (t : Nat) (h : (rail s r).misses < 9) :
    fxPoll r none b t s = setRail r (fun x => { x with misses := x.misses + 1 }) s := by
  have hten : ¬ 10 ≤ (rail s r).misses + 1 := by omega
  exact if_neg hten

/-- The last of DEB readings of good that differ from the present state (R288). -/
theorem fxPoll_of_good {w : W32} (b : Bool) (t : Nat) (hgood : bitAt w 11 = false) (hpg : (rail s r).pg = false)
    (hdeb : railDeb s.st.image r ≤ (rail s r).votes + 1) :
    fxPoll r (some w) b t s = pgReading r true b t (setRail r (fun x => { x with misses := 0, votes := 0 }) s) := by
  simp [fxPoll, hgood, hpg, hdeb]

/-! Slot timing (R313) -/

theorem fxSlotEnable_of_issue (h : enableFinds { s with st.slotUp := s.st.slotUp.erase r } r = .issue) :
    fxSlotEnable r s = enableRail r { s with st.slotUp := s.st.slotUp.erase r } := by
  simp only [fxSlotEnable, h]

end

/-! Commands by the case that they meet -/

/-- A rail whose enable or disable action is not complete has its own write sent again (R287, R417). -/
theorem execPmbusAttemptRetry_of_action {r : Fin 256} {s a : State} (hkind : railEnKind s.st.image r = 1)
    (hact : (rail s r).act ≠ .none) (ha : fxAttemptRetry r s = a) : execPmbusAttemptRetry r s = .next (settled a) := by
  have hfits : (decide (railEnKind s.st.image r = 1) && decide ((rail s r).act ≠ .none)) = true := by simp [hkind, hact]
  exact congrArg done ((if_pos hfits).trans ha)

/-- With no action of its own to send again, a rail's margin write is the one that was not acknowledged (R296, R417). -/
theorem execPmbusAttemptRetry_of_margin {r : Fin 256} {s a : State} {q : TwReq}
    (hnone : railEnKind s.st.image r ≠ 1 ∨ (rail s r).act = .none) (hq : marginRefused s r = some q)
    (ha : fxMarginRetry r q s = a) : execPmbusAttemptRetry r s = .next (settled a) := by
  have hidle : ¬ (decide (railEnKind s.st.image r = 1) && decide ((rail s r).act ≠ .none)) = true := by
    simpa [Decidable.imp_iff_not_or] using hnone
  rw [execPmbusAttemptRetry, if_neg hidle, hq]
  exact congrArg done ha

/-- UV, OV and OC leave the power-good state as it is (R291). -/
theorem execRailFailureDetected_of_measured {r : Fin 256} {k : Fin 4} {mv da : Nat} {s : State} (t : Nat)
    (hp : railPresent s.st.image r = true) (hk : failureHolds s r k mv da = true) (h3 : k ≠ 3) :
    execRailFailureDetected r k mv da t s = .next (settled
      (failRail r (k.val + 2) { mv := mv, da := da, tUs := t } (setRail r (fun x => x) s))) := by
  have hfits : (railPresent s.st.image r && failureHolds s r k mv da) = true := by rw [hp, hk]; rfl
  refine done_of_fits hfits ?_
  simp only [if_neg h3]

/-- PG_LOST is detected of a rail that is ON, and clears its power-good state (R291). -/
theorem execRailFailureDetected_of_lost {r : Fin 256} {s : State} (mv da t : Nat)
    (hp : railPresent s.st.image r = true) (hon : (rail s r).st = .on) :
    execRailFailureDetected r 3 mv da t s = .next (settled
      (failRail r Cause.PG_LOST { mv := mv, da := da, tUs := t } (setRail r (fun x => { x with pg := false }) s))) := by
  have hholds : failureHolds s r (3 : Fin 4).val mv da = true := beq_iff_eq.mpr hon
  have hfits : (railPresent s.st.image r && failureHolds s r (3 : Fin 4).val mv da) = true := by rw [hp, hholds]; rfl
  exact done_of_fits hfits rfl

/-- A STATUS_WORD poll of a rail that is RISING is taken once its enable action is complete. -/
theorem execStatusWordPoll_of_rising {r : Fin 256} {w : Option W32} {b : Bool} {t : Nat} {s a : State}
    (hkind : railPgKind s.st.image r = 2) (hact : (rail s r).act ≠ .enabling) (hst : (rail s r).st = .rising)
    (ha : fxPoll r w b t s = a) : execStatusWordPoll r w b t s = .next (settled a) := by
  have hfits : (decide (railPgKind s.st.image r = 2) && decide ((rail s r).act ≠ .enabling)
      && (decide ((rail s r).st = .rising) || decide ((rail s r).st = .on))) = true := by
    simp [hkind, hact, hst]
  exact done_of_fits hfits ha

/-- Settles O16: in a state that its event fits, each command is the effect that its rules give. -/
theorem railEventsComplete : Obligations.RailEventsComplete := by
  unfold Obligations.RailEventsComplete
  refine ⟨?parentsOn, ?acknowledged, ?retried, ?retryFails, ?marginRetry, ?powerGood, ?belowOff, ?gap, ?fallTimeout,
    ?failure, ?pgLost, ?pollMissed, ?pollGood, ?waitElapsed, ?waitpgTimeout, ?loopLimit, ?pfailCheck, ?slotEnable,
    ?slotDisable, ?slotTimeout, ?firstFailure, ?groupBlock⟩
  case parentsOn => exact fun r s n h hn => congrArg done (fxParentsOn_of_issue h hn)
  case acknowledged =>
    intro r s h
    have hfits : (decide ((rail s r).act ≠ .none)
        || (List.range 16).any (fun n => (strand s n).wait == .margin r.val)) = true := by simpa using h
    exact done_of_fits hfits rfl
  case retried =>
    exact fun _ _ _ hkind hact hn htries hstuck =>
      execPmbusAttemptRetry_of_action hkind hact (fxAttemptRetry_of_again hn htries hstuck)
  case retryFails =>
    exact fun _ _ _ hkind hact hlast hu => execPmbusAttemptRetry_of_action hkind hact (fxAttemptRetry_of_last hlast hu)
  case marginRetry =>
    exact fun _ _ _ _ _ hnone hq hn hcur hu =>
      execPmbusAttemptRetry_of_margin hnone hq (fxMarginRetry_of_waiting hn hcur hu)
  case powerGood => exact fun _ _ hst => done_of_fits hst rfl
  case belowOff =>
    intro r s hst
    have hfits : (decide ((rail s r).st = .falling) || decide ((rail s r).st = .failed) && !(rail s r).driven) = true := by
      simp [hst]
    exact done_of_fits hfits rfl
  case gap => exact fun _ _ => rfl
  case fallTimeout =>
    intro r mv da t s hhigh hcause hoff hpfail
    have hfits : (stillHigh s r && decide ((rail s r).cause ≠ Cause.NO_FALL) && decide (railOffMv s.st.image r ≤ mv)
        && !(reversing s && s.st.pfailMode)) = true := by
      simp [hhigh, hcause, hoff, hpfail]
    exact done_of_fits hfits rfl
  case failure => exact fun _ _ _ _ t _ hp hk h3 => execRailFailureDetected_of_measured t hp hk h3
  case pgLost => exact fun _ mv da t _ hp hon => execRailFailureDetected_of_lost mv da t hp hon
  case pollMissed =>
    exact fun _ b t _ hkind hact hst hmiss => execStatusWordPoll_of_rising hkind hact hst (fxPoll_of_miss b t hmiss)
  case pollGood =>
    exact fun _ _ b t _ hkind hact hst hgood hpg hdeb =>
      execStatusWordPoll_of_rising hkind hact hst (fxPoll_of_good b t hgood hpg hdeb)
  case waitElapsed =>
    intro n s hrun hwait
    have hfits : (decide ((strand s n).run = 2) && decide ((strand s n).wait = .time)) = true := by simp [hrun, hwait]
    exact done_of_fits hfits rfl
  case waitpgTimeout =>
    intro n mv da t s r hwait hrun hst
    have hfits : (decide ((strand s n).run = 2) && decide ((rail s r).st = .rising)) = true := by simp [hrun, hst]
    change execWaitpgTimeout n mv da t s = _
    rw [execWaitpgTimeout, hwait]
    exact done_of_fits hfits rfl
  case loopLimit =>
    intro n s hrun hexec
    have hfits : (decide ((strand s n).run ≠ 0) && decide (65536 ≤ (strand s n).exec)) = true := by simp [hrun, hexec]
    exact done_of_fits hfits rfl
  case pfailCheck =>
    intro mv t s hmode hover
    have hfits : (s.st.pfailMode && disablesOver s) = true := by rw [hmode, hover]; rfl
    exact done_of_fits hfits rfl
  case slotEnable =>
    intro r s hup hgo h
    have hfits : (s.st.slotUp.contains r.val && strandsGo s) = true := by rw [hup, hgo]; rfl
    exact done_of_fits hfits (fxSlotEnable_of_issue h)
  case slotDisable => exact fun _ _ => rfl
  case slotTimeout =>
    intro r mv da t s hmode hslot hst
    have hfits : (slotMode s && (slotRails s.st.image).contains r.val && decide ((rail s r).st = .rising)) = true := by
      rw [hmode, hslot, hst]; rfl
    exact done_of_fits hfits rfl
  case firstFailure =>
    intro torn s f hf
    change execFirstFailureWritten torn s = _
    rw [execFirstFailureWritten, hf]
    rfl
  case groupBlock => exact fun _ _ => rfl

end Sys2Proof.Machine

end RailEventCommands

/-! The energies of an interval and of a ticket (R333, R335, R337). -/

section EnergyAccounts

namespace Sys2Proof.Machine

/-- The direct and the allocated energy of an entry, together. -/
def OpenReq.energy (o : OpenReq) : Int := o.direct + o.alloc

/-- The energy that the open entries and the UNTICKETED account hold (R337). -/
def accounted (s : State) : Int := (s.meter.opens.map OpenReq.energy).sum + s.meter.unticketed

section
variable (iv : Interval) (d : Draw) (alloc : Int) (u : Frac)

/-! An entry takes a draw -/

/-- An entry takes a draw of its own request, and is as it was otherwise. -/
def OpenReq.takeOwn (t : Nat) (o : OpenReq) : OpenReq := if o.id = d.id then o.take iv d alloc u t else o

@[simp] theorem OpenReq.take_id (t : Nat) (o : OpenReq) : (o.take iv d alloc u t).id = o.id := rfl

@[simp] theorem OpenReq.takeOwn_id (t : Nat) (o : OpenReq) : (o.takeOwn iv d alloc u t).id = o.id := by
  unfold OpenReq.takeOwn
  split <;> rfl

theorem OpenReq.take_energy (t : Nat) (o : OpenReq) :
    (o.take iv d alloc u t).energy = o.energy + (d.direct + alloc) := by
  simp only [OpenReq.energy, OpenReq.take]
  omega

theorem OpenReq.takeOwn_energy (t : Nat) (o : OpenReq) :
    (o.takeOwn iv d alloc u t).energy = o.energy + if o.id = d.id then d.direct + alloc else 0 := by
  unfold OpenReq.takeOwn
  split
  · exact take_energy iv d alloc u t o
  · exact (add_zero _).symm

/-- Of entries with distinct requests exactly one takes a draw whose request is among them. -/
theorem sum_energy_map_takeOwn {os : List OpenReq} (hnodup : (os.map OpenReq.id).Nodup) (hmem : d.id ∈ os.map OpenReq.id)
    (t : Nat) : ((os.map (OpenReq.takeOwn iv d alloc u t)).map OpenReq.energy).sum =
      (os.map OpenReq.energy).sum + (d.direct + alloc) := by
  have hone : (os.map (fun o => if o.id = d.id then d.direct + alloc else 0)).sum = d.direct + alloc := by
    have hcount := List.sum_map_ite_eq (os.map OpenReq.id) (fun _ => d.direct + alloc) (fun _ => 0) d.id
    simpa [List.count_eq_one_of_mem hnodup hmem, Function.comp_def] using hcount
  calc ((os.map (OpenReq.takeOwn iv d alloc u t)).map OpenReq.energy).sum
      = (os.map (fun o => o.energy + if o.id = d.id then d.direct + alloc else 0)).sum := by
        simp only [List.map_map, Function.comp_def, OpenReq.takeOwn_energy]
    _ = (os.map OpenReq.energy).sum + (d.direct + alloc) := by rw [List.sum_map_add, hone]

/-! A draw is accounted: to its entry, to a new one, or to UNTICKETED (R335) -/

/-- The entry of a request that appears for the first time (R335). -/
def OpenReq.opened (t : Nat) : OpenReq :=
  OpenReq.take { id := d.id, start := iv.start, last := iv.start } iv d alloc u t

theorem OpenReq.opened_energy (t : Nat) : (OpenReq.opened iv d alloc u t).energy = d.direct + alloc :=
  (take_energy iv d alloc u t _).trans (zero_add _)

/-- Where a draw goes: to the entry of its request, to a new entry, or to UNTICKETED. -/
theorem account_cases (s : State) :
    (d.id ∈ s.meter.opens.map OpenReq.id ∧
      (account iv d alloc u s).meter.opens = s.meter.opens.map (OpenReq.takeOwn iv d alloc u (now s)) ∧
      (account iv d alloc u s).meter.unticketed = s.meter.unticketed) ∨
    (d.id ∉ s.meter.opens.map OpenReq.id ∧
      (account iv d alloc u s).meter.opens = s.meter.opens ++ [OpenReq.opened iv d alloc u (now s)] ∧
      (account iv d alloc u s).meter.unticketed = s.meter.unticketed) ∨
    ((account iv d alloc u s).meter.opens = s.meter.opens ∧
      (account iv d alloc u s).meter.unticketed = s.meter.unticketed + d.direct + alloc) := by
  unfold account
  extract_lets lose o
  split
  · exact .inr (.inr ⟨rfl, rfl⟩)
  split
  case isTrue hopen => exact .inl ⟨by simpa using hopen, rfl, rfl⟩
  case isFalse hnew =>
    split
    · exact .inr (.inl ⟨by simpa using hnew, rfl, rfl⟩)
    · split <;> exact .inr (.inr ⟨rfl, rfl⟩)

theorem account_accounted {s : State} (hnodup : (s.meter.opens.map OpenReq.id).Nodup) :
    accounted (account iv d alloc u s) = accounted s + (d.direct + alloc) := by
  unfold accounted
  obtain ⟨hmem, hopens, hun⟩ | ⟨-, hopens, hun⟩ | ⟨hopens, hun⟩ := account_cases iv d alloc u s <;> rw [hopens, hun]
  · rw [sum_energy_map_takeOwn iv d alloc u hnodup hmem]
    omega
  · rw [List.map_append, List.sum_append, List.map_singleton, List.sum_singleton, OpenReq.opened_energy]
    omega
  · omega

theorem account_nodup {s : State} (hnodup : (s.meter.opens.map OpenReq.id).Nodup) :
    ((account iv d alloc u s).meter.opens.map OpenReq.id).Nodup := by
  obtain ⟨-, hopens, -⟩ | ⟨hnew, hopens, -⟩ | ⟨hopens, -⟩ := account_cases iv d alloc u s <;> rw [hopens]
  · simpa [Function.comp_def] using hnodup
  · rw [List.map_append]
    exact hnodup.append (List.nodup_singleton _) (List.disjoint_singleton.mpr hnew)
  · exact hnodup

@[simp] theorem account_idle (s : State) : (account iv d alloc u s).meter.idle = s.meter.idle := by
  unfold account
  extract_lets lose o
  split
  · rfl
  split
  · rfl
  split
  · rfl
  split <;> rfl

end

/-- The draws of an interval, one after the other. -/
theorem foldl_account (iv : Interval) (ds : List Draw) (alloc : Draw → Int) (u : Draw → Frac) (s : State)
    (hnodup : (s.meter.opens.map OpenReq.id).Nodup) :
    accounted (ds.foldl (fun a d => account iv d (alloc d) (u d) a) s) =
      accounted s + (ds.map (fun d => d.direct + alloc d)).sum ∧
    (ds.foldl (fun a d => account iv d (alloc d) (u d) a) s).meter.idle = s.meter.idle ∧
    ((ds.foldl (fun a d => account iv d (alloc d) (u d) a) s).meter.opens.map OpenReq.id).Nodup := by
  induction ds generalizing s with
  | nil => exact ⟨(add_zero _).symm, rfl, hnodup⟩
  | cons d ds ih =>
    obtain ⟨hsum, hidle, hkept⟩ := ih (account iv d (alloc d) (u d) s) (account_nodup iv d (alloc d) (u d) hnodup)
    refine ⟨hsum.trans ?_, hidle.trans (account_idle iv d (alloc d) (u d) s), hkept⟩
    rw [account_accounted iv d (alloc d) (u d) hnodup, List.map_cons, List.sum_cons, add_assoc]

/-! A ticket is stored (R337, R338) -/

@[simp] theorem openBatch_idle (s : State) : (openBatch s).meter.idle = s.meter.idle := by
  unfold openBatch
  split <;> rfl

@[simp] theorem closeBatch_idle (byTime : Bool) (s : State) : (closeBatch byTime s).meter.idle = s.meter.idle := rfl

/-- What a ticket does not show of its energies, the part below 1 nJ of each, stays in IDLE. -/
theorem storeTicket_idle (o : OpenReq) (why : CloseWhy) (s : State) :
    (storeTicket o why s).meter.idle = s.meter.idle + o.direct % 1000000000 + o.alloc % 1000000000 := by
  unfold storeTicket
  extract_lets s1 t frac _ s2
  have hidle : s2.meter.idle = s.meter.idle + frac o.direct + frac o.alloc := by
    rw [← openBatch_idle s]
  split
  · rw [closeBatch_idle, hidle]
  · exact hidle

/-- Settles O46: each draw goes to one account in full, so the draws of an interval do, by induction on their list. -/
theorem everyAttojouleIsAccounted : Obligations.EveryAttojouleIsAccounted := by
  unfold Obligations.EveryAttojouleIsAccounted
  refine ⟨?draws, storeTicket_idle⟩
  rintro iv ds alloc u s t hnodup rfl
  exact foldl_account iv ds alloc u s hnodup

end Sys2Proof.Machine

end EnergyAccounts

/-! The commands of the metering back end (10). -/

section MeteringCommands

namespace Sys2Proof.Machine

section
variable {s : State}

/-! Steps of tray time and intervals (R330, R333) -/

/-- A step that is decided is applied at the first sample of a 10 µs of tray time (R330). -/
theorem execTimeStepApply_of_due {b : Int} {a : State} (hstep : s.time.stepBy = some b) (hdue : taiNow s % 10000 < 1000)
    (ha : fxTimeStep b s = a) : execTimeStepApply s = .next (settled a) := by
  rw [execTimeStepApply, hstep]
  exact done_of_fits hdue ha

/-- A step between two intervals moves the start of the next one, never back. -/
theorem fxTimeStep_of_no_samples (h : s.meter.samples = 0) {u : State} (b : Int)
    (hu : u = mapOpens (fun o => { o with step := true })
      { s with time.fifths := ((s.time.fifths : Int) + 5 * b).toNat, time.stepBy := none, time.slew := 0,
               time.valid := true, time.stepped := some (now s) }) :
    fxTimeStep b s = { u with meter.start := max (tenMicros (taiNow u)) s.meter.start } := by
  subst hu
  exact if_pos h

theorem fxTimeStep_of_samples (h : s.meter.samples ≠ 0) (b : Int) :
    fxTimeStep b s = closeInterval (mapOpens (fun o => { o with step := true })
      { s with time.fifths := ((s.time.fifths : Int) + 5 * b).toNat, time.stepBy := none, time.slew := 0,
               time.valid := true, time.stepped := some (now s) }) :=
  if_neg h

section
variable {t : State} {a : Nat} {p : Bytes} (ht : t = takeInbox a 3 1 p s)
include ht

theorem fxAttribInterval_of_late (hlate : leAt p 0 8 + 10000 + attribLag t ≤ taiNow t) :
    fxAttribInterval a p s = bump R.CNT_ATTRIB_LATE t := by
  subst ht
  exact if_pos hlate

theorem fxAttribInterval_of_bad (hintime : taiNow t < leAt p 0 8 + 10000 + attribLag t) (hbad : intervalOk t p = false) :
    fxAttribInterval a p s = bump R.CNT_ATTRIB_BAD t := by
  subst ht
  simp only [fxAttribInterval, if_neg (Nat.not_le.mpr hintime), hbad]
  rfl

theorem fxAttribInterval_of_usable (hintime : taiNow t < leAt p 0 8 + 10000 + attribLag t) (hok : intervalOk t p = true) :
    fxAttribInterval a p s = { t with
      meter.reports := t.meter.reports.filter (fun r => !(r.acc == a && r.start == leAt p 0 8)) ++
        [⟨a, leAt p 0 8, intervalEntries p⟩] } := by
  subst ht
  simp only [fxAttribInterval, if_neg (Nat.not_le.mpr hintime), hok]
  rfl

end

/-- The oldest waiting interval is divided once ATTRIB_LAG has passed since its end (R333). -/
theorem execIntervalAttribution_of_due {iv : Interval} {rest : List Interval} (hwait : s.meter.waiting = iv :: rest)
    (hdue : iv.start + 10000 + attribLag s ≤ taiNow s) :
    execIntervalAttribution s = .next (settled (divideInterval iv { s with meter.waiting := rest })) := by
  have hfits : intervalDue s iv = true := by simp [intervalDue, hdue]
  rw [execIntervalAttribution, hwait]
  exact done_of_fits hfits rfl

/-! Closes (R335, R338, R339) -/

section
variable {id : Nat} {o : OpenReq} (hopen : s.meter.opens.find? (fun o => o.id == id) = some o)
include hopen

theorem execTicketIdleClose_of_due (hdue : o.seenAt + max 1 (rdFld s R.TK_LIMITS 15 0) ≤ now s) :
    execTicketIdleClose id s = .next (settled (closeReq id .idle s)) := by
  rw [execTicketIdleClose, hopen]
  exact done_of_fits (decide_eq_true hdue) rfl

/-- An entry that waits to reopen has no interval, and is never overlong. -/
theorem execTicketMaxClose_of_due (hruns : o.reopens = false)
    (hdue : o.start + 1000000000 * max 1 (rdFld s R.TK_LIMITS 31 16) ≤ taiNow s) :
    execTicketMaxClose id s = .next (settled (closeReq id .max s)) := by
  have hfits : maxDue s o = true := by simp [maxDue, hruns, hdue]
  rw [execTicketMaxClose, hopen]
  exact done_of_fits hfits rfl

end

theorem batchDue_of_mem {b : Batch} (hmem : b ∈ s.meter.batches) (hopen : b.closed = false)
    (hdue : b.openAt + max 1 (min 1000 (rdFld s R.TK_CFG 15 0)) ≤ now s) : batchDue s = true :=
  List.any_eq_true.mpr ⟨b, hmem, by simp [hopen, hdue]⟩

/-- The oldest closed batch is signed while the security core runs and is OPERATIONAL (R339). -/
theorem execBatchSigned_of_unsigned {b : Batch} (hb : unsigned s = some b) (hcore : coreUp 0 s = true)
    (hsec : secOperational s = true) : execBatchSigned s = .next (settled (signBatch b s)) := by
  have hfits : (coreUp 0 s && secOperational s) = true := by rw [hcore, hsec]; rfl
  rw [execBatchSigned, hb]
  exact done_of_fits hfits rfl

/-! Calibration (R323, R324, R325) -/

theorem startSweep_of_none (h : s.meter.sweep = none) (chs : List Nat) :
    startSweep chs s = { s with meter.sweep := some { todo := chs } } := by
  rw [startSweep, h]

theorem startSweep_of_some {w : Sweep} (h : s.meter.sweep = some w) (chs : List Nat) : startSweep chs s =
    { s with meter.sweep := some { w with todo := w.todo ++ chs.filter (fun c => !w.todo.contains c) } } := by
  rw [startSweep, h]

@[simp] theorem raise_meter (cls code inst : Nat) (data : Bytes) (s : State) :
    (raise cls code inst data s).meter = s.meter := by
  obtain ⟨_, _, h⟩ := raise_frame cls code inst data s
  rw [h]

/-- The check of the DACs touches none of the channels that CALIBRATE orders wait for. -/
@[simp] theorem markDacs_calNamed (dac : BitVec 16) (s : State) : (markDacs dac s).meter.calNamed = s.meter.calNamed := by
  refine List.foldlRecOn (motive := fun a : State => a.meter.calNamed = s.meter.calNamed) _ _ rfl ?_
  intro a ha p _
  split
  · rw [raise_meter, ha]
  · exact ha

section
variable {w : Sweep} {ch : Nat} {g o : W32} {dac : Nat} {t : State}
  (hnamed : s.meter.calNamed.contains ch = false) (ht : t = markDacs (BitVec.ofNat 16 dac) s)
include hnamed ht

/-- A pair within its limits becomes the channel's coefficients; no CALIBRATE waits for the channel. -/
theorem fxChannelCal_of_accepted (hok : pairOkFor t ch g o = true) : fxChannelCal w ch g o dac s =
    { t with meter.sweep := some ⟨w.todo.erase ch, w.changed || coefOf t ch != (g, o)⟩,
             meter.coef := SMap.set none t.meter.coef ch (some (g, o)) } := by
  subst ht
  simp only [fxChannelCal, hok, markDacs_calNamed, hnamed, Bool.true_and, Bool.false_eq_true, ↓reduceIte]

/-- A pair beyond its limits is counted and recorded, and changes no coefficient. -/
theorem fxChannelCal_of_refused (hok : pairOkFor t ch g o = false) : fxChannelCal w ch g o dac s =
    raise 3 2 ch (leBytes 2 ch) (bump R.CNT_CAL_SUSPECT { t with meter.sweep := some ⟨w.todo.erase ch, w.changed⟩ }) := by
  subst ht
  simp only [fxChannelCal, hok, raise_meter, bump_meter, markDacs_calNamed, hnamed, Bool.false_and, Bool.or_false,
    Bool.false_eq_true, ↓reduceIte]

end

/-- A channel that the sweep still has to do ends its calibration. -/
theorem execChannelCalComplete_of_todo {w : Sweep} {ch : Fin 512} {g o : W32} {dac : Nat} {a : State}
    (hsweep : s.meter.sweep = some w) (htodo : w.todo.contains ch.val = true) (ha : fxChannelCal w ch g o dac s = a) :
    execChannelCalComplete ch g o dac s = .next (settled a) := by
  rw [execChannelCalComplete, hsweep]
  exact done_of_fits htodo ha

/-- A sweep with no channel left ends. -/
theorem execCalSweepEnd_of_done {w : Sweep} {a : State} (hsweep : s.meter.sweep = some w) (hdone : w.todo.isEmpty = true)
    (ha : fxSweepEnd w s = a) : execCalSweepEnd s = .next (settled a) := by
  rw [execCalSweepEnd, hsweep]
  exact done_of_fits hdone ha

end

/-- Settles O17: in a state that it fits, each command is the effect that its rules give. -/
theorem meteringCommandsComplete : Obligations.MeteringCommandsComplete := by
  unfold Obligations.MeteringCommandsComplete
  refine ⟨?sample, ?stepBetween, ?stepWithin, ?usable, ?late, ?bad, ?divide, ?idle, ?overlong, ?batchTime, ?signed,
    ?sweepStart, ?sweepMore, ?channel, ?sweepSame, ?sweepChanged⟩
  case sample => exact fun _ _ _ h => done_of_fits h rfl
  case stepBetween =>
    exact fun _ b hstep hdue hnone => execTimeStepApply_of_due hstep hdue (fxTimeStep_of_no_samples hnone b rfl)
  case stepWithin =>
    exact fun _ b hstep hdue hsome => execTimeStepApply_of_due hstep hdue (fxTimeStep_of_samples hsome b)
  case usable => exact fun _ _ _ _ h ht hintime hok => done_of_fits h (fxAttribInterval_of_usable ht hintime hok)
  case late => exact fun _ _ _ _ h ht hlate => done_of_fits h (fxAttribInterval_of_late ht hlate)
  case bad => exact fun _ _ _ _ h ht hintime hbad => done_of_fits h (fxAttribInterval_of_bad ht hintime hbad)
  case divide => exact fun _ _ _ hwait hdue => execIntervalAttribution_of_due hwait hdue
  case idle => exact fun _ _ _ hopen hdue => execTicketIdleClose_of_due hopen hdue
  case overlong => exact fun _ _ _ hopen hruns hdue => execTicketMaxClose_of_due hopen hruns hdue
  case batchTime => exact fun _ _ hmem hopen hdue => done_of_fits (batchDue_of_mem hmem hopen hdue) rfl
  case signed =>
    rintro s b r hb hcore hsec rfl
    exact execBatchSigned_of_unsigned hb hcore hsec
  case sweepStart => exact fun _ hup hnone => done_of_fits hup (startSweep_of_none hnone _)
  case sweepMore => exact fun _ _ hup hsome => done_of_fits hup (startSweep_of_some hsome _)
  case channel =>
    intro ch g o dac s w hsweep htodo hnamed
    refine execChannelCalComplete_of_todo hsweep htodo ?_
    extract_lets t
    split
    · next hok => exact fxChannelCal_of_accepted hnamed rfl hok
    · next hok => exact fxChannelCal_of_refused hnamed rfl (Bool.eq_false_of_not_eq_true hok)
  case sweepSame => exact fun _ hsweep => execCalSweepEnd_of_done hsweep rfl rfl
  case sweepChanged =>
    rintro s t hsweep rfl
    exact execCalSweepEnd_of_done hsweep rfl rfl

end Sys2Proof.Machine

end MeteringCommands

/-! The split of allocatable power among the active participants (R352, R353). -/

section SplitOfPower

namespace Sys2Proof.Machine

/-! The number that a fraction stands for -/

/-- The rational number that a fraction stands for. -/
def Frac.val (a : Frac) : ℚ := a.n / a.d

section
variable {a b : Frac}

/-- Lowest terms change no value; a zero denominator stays one, and stands for 0. -/
theorem mkFrac_val (n : Int) (d : Nat) : (mkFrac n d).val = n / d := by
  unfold mkFrac Frac.val
  extract_lets g
  split
  · rfl
  · next hg =>
    have hne : (g : ℚ) ≠ 0 := by
      simp only [ne_eq, Nat.cast_eq_zero]
      omega
    have hn : (g : Int) ∣ n := Int.natCast_dvd.mpr (Nat.gcd_dvd_left n.natAbs d)
    have hd : g ∣ d := Nat.gcd_dvd_right n.natAbs d
    simp only
    rw [Int.cast_div hn (by simpa using hne), Nat.cast_div hd hne, Int.cast_natCast, div_div_div_cancel_right₀ hne]

theorem mkFrac_d_pos {n : Int} {d : Nat} (hd : 0 < d) : 0 < (mkFrac n d).d := by
  unfold mkFrac
  extract_lets g
  split
  · exact hd
  · exact Nat.div_pos (Nat.gcd_le_right _ hd) (Nat.gcd_pos_of_pos_right _ hd)

@[simp] theorem Frac.ofNat_val (n : Nat) : (Frac.ofNat n).val = n := by
  simp [Frac.val, Frac.ofNat]

theorem Frac.ofNat_d_pos (n : Nat) : 0 < (Frac.ofNat n).d := Nat.one_pos

theorem Frac.add_d_pos (ha : 0 < a.d) (hb : 0 < b.d) : 0 < (a.add b).d := mkFrac_d_pos (Nat.mul_pos ha hb)

theorem Frac.add_val (ha : 0 < a.d) (hb : 0 < b.d) : (a.add b).val = a.val + b.val := by
  have hane : (a.d : ℚ) ≠ 0 := Nat.cast_ne_zero.mpr ha.ne'
  have hbne : (b.d : ℚ) ≠ 0 := Nat.cast_ne_zero.mpr hb.ne'
  rw [Frac.add, mkFrac_val, Frac.val, Frac.val, div_add_div _ _ hane hbne]
  push_cast
  ring

theorem Frac.neg_val : a.neg.val = -a.val := by
  simp [Frac.val, Frac.neg, neg_div]

theorem Frac.sub_d_pos (ha : 0 < a.d) (hb : 0 < b.d) : 0 < (a.sub b).d := Frac.add_d_pos (b := b.neg) ha hb

theorem Frac.sub_val (ha : 0 < a.d) (hb : 0 < b.d) : (a.sub b).val = a.val - b.val := by
  rw [Frac.sub, Frac.add_val (b := b.neg) ha hb, Frac.neg_val, sub_eq_add_neg]

theorem Frac.scale_d_pos {n d : Nat} (ha : 0 < a.d) (hd : 0 < d) : 0 < (a.scale n d).d := mkFrac_d_pos (Nat.mul_pos ha hd)

theorem Frac.scale_val (n d : Nat) : (a.scale n d).val = a.val * n / d := by
  rw [Frac.scale, mkFrac_val, Frac.val]
  push_cast
  rw [div_mul_eq_mul_div, div_div]

theorem Frac.le_iff (ha : 0 < a.d) (hb : 0 < b.d) : a.le b = true ↔ a.val ≤ b.val := by
  rw [Frac.le, decide_eq_true_iff, Frac.val, Frac.val, div_le_div_iff₀ (Nat.cast_pos.mpr ha) (Nat.cast_pos.mpr hb)]
  exact_mod_cast Iff.rfl

theorem Frac.max_d_pos (ha : 0 < a.d) (hb : 0 < b.d) : 0 < (a.max b).d := by
  unfold Frac.max
  split <;> assumption

theorem Frac.min_d_pos (ha : 0 < a.d) (hb : 0 < b.d) : 0 < (a.min b).d := by
  unfold Frac.min
  split <;> assumption

theorem Frac.max_val (ha : 0 < a.d) (hb : 0 < b.d) : (a.max b).val = Max.max a.val b.val := by
  unfold Frac.max
  split
  · next h => exact (max_eq_right ((Frac.le_iff ha hb).mp h)).symm
  · next h => exact (max_eq_left (le_of_not_ge (mt (Frac.le_iff ha hb).mpr h))).symm

/-- The numerator has the sign of the value. -/
theorem Frac.n_nonpos_iff (ha : 0 < a.d) : a.n ≤ 0 ↔ a.val ≤ 0 := by
  rw [Frac.val, div_le_iff₀ (Nat.cast_pos.mpr ha), zero_mul, Int.cast_nonpos]

/-- A fraction's whole part, as a natural number. -/
theorem Frac.floor_toNat (a : Frac) : a.floor.toNat = ⌊a.val⌋₊ := by
  rw [Frac.floor, Frac.val, ← Int.floor_toNat, Rat.floor_intCast_div_natCast]

end

/-- A sum of fractions is a fraction of the sum of their values. -/
theorem foldl_add_val {xs : List Frac} (hxs : ∀ x ∈ xs, 0 < x.d) {a : Frac} (ha : 0 < a.d) :
    0 < (xs.foldl Frac.add a).d ∧ (xs.foldl Frac.add a).val = a.val + (xs.map Frac.val).sum := by
  induction xs generalizing a with
  | nil => simp [ha]
  | cons x xs ih =>
    have hx := hxs x List.mem_cons_self
    obtain ⟨hpos, hval⟩ := ih (fun y hy => hxs y (List.mem_cons_of_mem x hy)) (Frac.add_d_pos ha hx)
    refine ⟨hpos, ?_⟩
    rw [List.foldl_cons, hval, Frac.add_val ha hx, List.map_cons, List.sum_cons, add_assoc]

theorem sumFrac_d_pos {xs : List Frac} (hxs : ∀ x ∈ xs, 0 < x.d) : 0 < (sumFrac xs).d :=
  (foldl_add_val hxs Nat.one_pos).1

theorem sumFrac_val {xs : List Frac} (hxs : ∀ x ∈ xs, 0 < x.d) : (sumFrac xs).val = (xs.map Frac.val).sum := by
  rw [sumFrac, (foldl_add_val hxs Nat.one_pos).2]
  simp [Frac.val]

/-! A round of the split (R352) -/

section
variable (rest : Frac) (w : Nat) (ps : List Part)

/-- The weights of the lines that are still open. -/
def openWeight : Nat := ps.foldl (fun a p => if p.isOpen then a + p.weight else a) 0

/-- What a line gets of the rest by its weight. -/
def Part.share (p : Part) : Frac := rest.scale p.weight w

/-- The room of an open line is within its share. -/
def Part.full (p : Part) : Bool := p.isOpen && (p.hi.sub p.got).le (p.share rest w)

/-- An open line gets its share. -/
def Part.give (p : Part) : Part := if p.isOpen then { p with got := p.got.add (p.share rest w) } else p

/-- A line whose room is within its share is filled and closed. -/
def Part.fill (p : Part) : Part := if p.full rest w then { p with got := p.hi, isOpen := false } else p

/-- What the filled lines of a round take of the rest. -/
def usedBy : Frac := sumFrac ((ps.filter (Part.full rest w)).map (fun p => p.hi.sub p.got))

/-- A round leaves the lines, gives every open line its share, or fills the full ones and goes on with what is left. -/
theorem splitGo_succ (n : Nat) : splitGo (n + 1) rest ps =
    if rest.n ≤ 0 || openWeight ps = 0 then ps
    else if !ps.any (Part.full rest (openWeight ps)) then ps.map (Part.give rest (openWeight ps))
    else splitGo n (rest.sub (usedBy rest (openWeight ps) ps)) (ps.map (Part.fill rest (openWeight ps))) := rfl

@[simp] theorem Part.give_i (p : Part) : (p.give rest w).i = p.i := by
  unfold Part.give
  split <;> rfl

@[simp] theorem Part.fill_i (p : Part) : (p.fill rest w).i = p.i := by
  unfold Part.fill
  split <;> rfl

end

/-- A line's weight while it is open, and 0 after. -/
def Part.openWt (p : Part) : Nat := if p.isOpen then p.weight else 0

theorem openWeight_eq_sum (ps : List Part) : openWeight ps = (ps.map Part.openWt).sum := by
  have hstep (a : Nat) (p : Part) : (if p.isOpen then a + p.weight else a) = a + p.openWt := by
    unfold Part.openWt
    split <;> rfl
  simp only [openWeight, hstep]
  rw [List.sum_eq_foldl, List.foldl_map]

/-- A line is well formed for given floors: its fractions are proper ones, and neither its limit nor what it has got is
below its floor. -/
structure Part.Sound (m : Nat → Nat) (p : Part) : Prop where
  hi_pos : 0 < p.hi.d
  got_pos : 0 < p.got.d
  floor_le_hi : (m p.i : ℚ) ≤ p.hi.val
  floor_le_got : (m p.i : ℚ) ≤ p.got.val

/-- What the lines have got together. -/
def gotSum (ps : List Part) : ℚ := (ps.map (fun p => p.got.val)).sum

section
variable {m : Nat → Nat} {rest : Frac} {w : Nat} {p : Part} {ps : List Part}

theorem Part.Sound.give (h : p.Sound m) (hrest : 0 < rest.d) (hnonneg : 0 ≤ rest.val) (hw : 0 < w) :
    (p.give rest w).Sound m := by
  unfold Part.give
  split
  · have hshare : 0 < (p.share rest w).d := Frac.scale_d_pos hrest hw
    refine ⟨h.hi_pos, Frac.add_d_pos h.got_pos hshare, h.floor_le_hi, ?_⟩
    have hgain : 0 ≤ (p.share rest w).val := by
      rw [Part.share, Frac.scale_val]
      positivity
    calc (m p.i : ℚ) ≤ p.got.val := h.floor_le_got
      _ ≤ p.got.val + (p.share rest w).val := le_add_of_nonneg_right hgain
      _ = (p.got.add (p.share rest w)).val := (Frac.add_val h.got_pos hshare).symm
  · exact h

theorem Part.Sound.fill (h : p.Sound m) : (p.fill rest w).Sound m := by
  unfold Part.fill
  split
  · exact ⟨h.hi_pos, h.hi_pos, h.floor_le_hi, h.floor_le_hi⟩
  · exact h

/-- What an open line gets is the part of the rest that its weight is of all open weights. -/
theorem Part.Sound.give_got (h : p.Sound m) (hrest : 0 < rest.d) (hw : 0 < w) :
    (p.give rest w).got.val = p.got.val + rest.val / w * p.openWt := by
  unfold Part.give Part.openWt
  split
  · have hshare : 0 < (p.share rest w).d := Frac.scale_d_pos hrest hw
    rw [Frac.add_val h.got_pos hshare, Part.share, Frac.scale_val, div_mul_eq_mul_div]
  · simp

/-- What a round takes of the rest for a line. -/
def Part.used (rest : Frac) (w : Nat) (p : Part) : ℚ := if p.full rest w then p.hi.val - p.got.val else 0

theorem Part.fill_got : (p.fill rest w).got.val = p.got.val + p.used rest w := by
  unfold Part.fill Part.used
  split
  · exact (add_sub_cancel _ _).symm
  · exact (add_zero _).symm

/-- A line is filled only from its share. -/
theorem Part.Sound.used_le (h : p.Sound m) (hrest : 0 < rest.d) (hnonneg : 0 ≤ rest.val) (hw : 0 < w) :
    p.used rest w ≤ rest.val / w * p.openWt := by
  unfold Part.used
  split
  · next hfull =>
    obtain ⟨hopen, hroom⟩ := Bool.and_eq_true_iff.mp hfull
    have hshare : 0 < (p.share rest w).d := Frac.scale_d_pos hrest hw
    rw [Frac.le_iff (Frac.sub_d_pos h.hi_pos h.got_pos) hshare, Frac.sub_val h.hi_pos h.got_pos, Part.share,
      Frac.scale_val, ← div_mul_eq_mul_div] at hroom
    rwa [Part.openWt, if_pos hopen]
  · positivity

theorem sum_shares (hw : 0 < openWeight ps) :
    (ps.map (fun p => rest.val / openWeight ps * p.openWt)).sum = rest.val := by
  rw [List.sum_map_mul_left]
  have hcast : (ps.map (fun p => (p.openWt : ℚ))).sum = openWeight ps := by
    rw [openWeight_eq_sum, Nat.cast_list_sum, List.map_map]
    rfl
  rw [hcast, div_mul_cancel₀ _ (Nat.cast_ne_zero.mpr hw.ne')]

theorem gotSum_map_give (hps : ∀ p ∈ ps, p.Sound m) (hrest : 0 < rest.d) (hw : 0 < openWeight ps) :
    gotSum (ps.map (Part.give rest (openWeight ps))) = gotSum ps + rest.val := by
  have hgot := List.map_congr_left (fun p hp => (hps p hp).give_got hrest hw)
  rw [gotSum, List.map_map]
  exact (congrArg List.sum hgot).trans (by rw [List.sum_map_add, sum_shares hw, gotSum])

theorem usedBy_terms_pos (hps : ∀ p ∈ ps, p.Sound m) :
    ∀ x ∈ (ps.filter (Part.full rest w)).map (fun p => p.hi.sub p.got), 0 < x.d := by
  intro x hx
  obtain ⟨p, hp, rfl⟩ := List.mem_map.mp hx
  have hsound := hps p (List.mem_of_mem_filter hp)
  exact Frac.sub_d_pos hsound.hi_pos hsound.got_pos

theorem usedBy_val (hps : ∀ p ∈ ps, p.Sound m) : (usedBy rest w ps).val = (ps.map (Part.used rest w)).sum := by
  have hroom : ∀ p ∈ ps.filter (Part.full rest w), (p.hi.sub p.got).val = p.hi.val - p.got.val := by
    intro p hp
    have hsound := hps p (List.mem_of_mem_filter hp)
    exact Frac.sub_val hsound.hi_pos hsound.got_pos
  have hsplit := List.sum_map_ite (fun p => Part.full rest w p = true) (fun p => p.hi.val - p.got.val) (fun _ => 0) ps
  rw [usedBy, sumFrac_val (usedBy_terms_pos hps), List.map_map]
  refine (congrArg List.sum (List.map_congr_left hroom)).trans ?_
  have hused : Part.used rest w = fun p => if p.full rest w = true then p.hi.val - p.got.val else 0 := rfl
  rw [hused, hsplit, List.map_const', List.sum_replicate, smul_zero, add_zero]
  simp

theorem gotSum_map_fill (hps : ∀ p ∈ ps, p.Sound m) :
    gotSum (ps.map (Part.fill rest w)) = gotSum ps + (usedBy rest w ps).val := by
  rw [usedBy_val hps, gotSum, List.map_map, gotSum, ← List.sum_map_add]
  exact congrArg List.sum (List.map_congr_left (fun _ _ => Part.fill_got))

/-- The filled lines take no more than there is to divide. -/
theorem usedBy_le (hps : ∀ p ∈ ps, p.Sound m) (hrest : 0 < rest.d) (hnonneg : 0 ≤ rest.val) (hw : 0 < openWeight ps) :
    (usedBy rest (openWeight ps) ps).val ≤ rest.val := by
  rw [usedBy_val hps]
  calc (ps.map (Part.used rest (openWeight ps))).sum
      ≤ (ps.map (fun p => rest.val / openWeight ps * p.openWt)).sum :=
        List.sum_le_sum (fun p hp => (hps p hp).used_le hrest hnonneg hw)
    _ = rest.val := sum_shares hw

/-! The rounds together -/

/-- The rounds keep the participants and their order. -/
theorem splitGo_map_i (fuel : Nat) (rest : Frac) (ps : List Part) :
    (splitGo fuel rest ps).map Part.i = ps.map Part.i := by
  induction fuel generalizing rest ps with
  | zero => rfl
  | succ n ih =>
    rw [splitGo_succ]
    split
    · rfl
    · split
      · rw [List.map_map]
        exact List.map_congr_left (fun p _ => p.give_i rest _)
      · rw [ih, List.map_map]
        exact List.map_congr_left (fun p _ => p.fill_i rest _)

/-- The rounds keep every line well formed and give out no more than the rest. -/
theorem splitGo_sound (fuel : Nat) {rest : Frac} {ps : List Part} (hrest : 0 < rest.d) (hnonneg : 0 ≤ rest.val)
    (hps : ∀ p ∈ ps, p.Sound m) :
    (∀ p ∈ splitGo fuel rest ps, p.Sound m) ∧ gotSum (splitGo fuel rest ps) ≤ gotSum ps + rest.val := by
  induction fuel generalizing rest ps with
  | zero => exact ⟨hps, le_add_of_nonneg_right hnonneg⟩
  | succ n ih =>
    rw [splitGo_succ]
    split
    · exact ⟨hps, le_add_of_nonneg_right hnonneg⟩
    · next hgoes =>
      have hw : 0 < openWeight ps := by
        simp only [Bool.or_eq_true, decide_eq_true_eq, not_or] at hgoes
        exact Nat.pos_of_ne_zero hgoes.2
      split
      · refine ⟨List.forall_mem_map.mpr (fun p hp => (hps p hp).give hrest hnonneg hw), ?_⟩
        exact (gotSum_map_give hps hrest hw).le
      · have hused : 0 < (usedBy rest (openWeight ps) ps).d := sumFrac_d_pos (usedBy_terms_pos hps)
        have hleft : (rest.sub (usedBy rest (openWeight ps) ps)).val = rest.val - (usedBy rest (openWeight ps) ps).val :=
          Frac.sub_val hrest hused
        obtain ⟨hsound, hsum⟩ := ih (Frac.sub_d_pos hrest hused)
          (hleft.symm ▸ sub_nonneg.mpr (usedBy_le hps hrest hnonneg hw))
          (List.forall_mem_map.mpr (fun p hp => (hps p hp).fill))
        refine ⟨hsound, hsum.trans_eq ?_⟩
        rw [gotSum_map_fill hps, hleft]
        ring

end

/-! The split of allocatable power (R352, R353) -/

section
variable (s : State) (c : Frac) (demand : Nat → Nat)

/-- A participant's line before the first round: it has its MIN_W. -/
def partOf (i : Nat) : Part :=
  let lo := Frac.ofNat (minW s i)
  let hi := lo.max (((Frac.ofNat (maxW s i)).min ⟨thW s i, 100⟩).min (Frac.ofNat (demand i)))
  let w := rdFld s (R.PART_WT i) 7 0
  ⟨i, lo, hi, w, lo, lo.lt hi && w != 0⟩

def partsOf : List Part := (actives s).map (partOf s demand)

/-- What the active participants have at least. -/
def floorSum : Frac := sumFrac ((partsOf s demand).map Part.lo)

/-- A MIN_W reduced to the part that the allocatable power is of all of them (R353). -/
def reducedFloor (c sum : Frac) (p : Part) : Nat :=
  if sum.n ≤ 0 then 0 else (mkFrac (p.lo.n * c.n * sum.d) (p.lo.d * c.d * sum.n.toNat)).floor.toNat

theorem split_eq : split s c demand =
    if (c.max {}).le (floorSum s demand) then
      (partsOf s demand).map (fun p => (p.i, reducedFloor (c.max {}) (floorSum s demand) p))
    else (splitGo 10 ((c.max {}).sub (floorSum s demand)) (partsOf s demand)).map (fun p => (p.i, p.got.floor.toNat)) := rfl

theorem partOf_sound (i : Nat) : (partOf s demand i).Sound (minW s) := by
  have hlo := Frac.ofNat_d_pos (minW s i)
  have hlimit : 0 < (((Frac.ofNat (maxW s i)).min ⟨thW s i, 100⟩).min (Frac.ofNat (demand i))).d :=
    Frac.min_d_pos (Frac.min_d_pos (Frac.ofNat_d_pos _) (by decide : 0 < 100)) (Frac.ofNat_d_pos _)
  refine ⟨Frac.max_d_pos hlo hlimit, hlo, ?_, (Frac.ofNat_val _).ge⟩
  calc (minW s i : ℚ) = (Frac.ofNat (minW s i)).val := (Frac.ofNat_val _).symm
    _ ≤ (partOf s demand i).hi.val := (le_max_left _ _).trans_eq (Frac.max_val hlo hlimit).symm

theorem partsOf_sound : ∀ p ∈ partsOf s demand, p.Sound (minW s) :=
  List.forall_mem_map.mpr (fun i _ => partOf_sound s demand i)

theorem partsOf_map_i : (partsOf s demand).map Part.i = actives s := by
  rw [partsOf, List.map_map]
  exact List.map_id _

theorem floorSum_terms_pos : ∀ x ∈ (partsOf s demand).map Part.lo, 0 < x.d := by
  intro x hx
  rw [partsOf, List.map_map] at hx
  obtain ⟨i, -, rfl⟩ := List.mem_map.mp hx
  exact Frac.ofNat_d_pos _

theorem floorSum_d_pos : 0 < (floorSum s demand).d := sumFrac_d_pos (floorSum_terms_pos s demand)

theorem floorSum_val : (floorSum s demand).val = (((actives s).map (minW s)).sum : Nat) := by
  rw [floorSum, sumFrac_val (floorSum_terms_pos s demand), partsOf, List.map_map, List.map_map, Nat.cast_list_sum,
    List.map_map]
  exact congrArg List.sum (List.map_congr_left (fun i _ => Frac.ofNat_val _))

/-- Before the first round the lines have got their floors. -/
theorem gotSum_partsOf : gotSum (partsOf s demand) = (floorSum s demand).val := by
  rw [floorSum, sumFrac_val (floorSum_terms_pos s demand), gotSum, partsOf, List.map_map, List.map_map, List.map_map]
  rfl

end

section
variable {s : State} {c : Frac} {demand : Nat → Nat}

/-- An open line's reduced floor is the whole part of its exact share of the allocatable power. -/
theorem reducedFloor_partOf {sum : Frac} (hpos : 0 < sum.d) (hnonneg : 0 ≤ sum.val) (i : Nat) :
    reducedFloor c sum (partOf s demand i) = ⌊minW s i * c.val / sum.val⌋₊ := by
  unfold reducedFloor
  split
  · next hn =>
    rw [le_antisymm ((Frac.n_nonpos_iff hpos).mp hn) hnonneg, div_zero, Nat.floor_zero]
  · next hn =>
    have hcast : ((sum.n.toNat : Nat) : ℚ) = sum.n := by exact_mod_cast Int.toNat_of_nonneg (not_le.mp hn).le
    rw [Frac.floor_toNat, mkFrac_val]
    congr 1
    simp only [Frac.val, partOf, Frac.ofNat]
    push_cast
    rw [hcast, one_mul, ← mul_div_assoc, div_div_div_eq]

theorem max_zero_d_pos (hc : 0 < c.d) : 0 < (c.max {}).d := Frac.max_d_pos hc Nat.one_pos

theorem max_zero_val (hc : 0 < c.d) : (c.max {}).val = max c.val 0 := by
  rw [Frac.max_val hc Nat.one_pos]
  simp [Frac.val]

theorem floorSum_nonneg (s : State) (demand : Nat → Nat) : 0 ≤ (floorSum s demand).val :=
  (floorSum_val s demand).symm ▸ Nat.cast_nonneg _

/-- The floors leave something to divide, or nothing. -/
theorem rest_val (hc : 0 < c.d) :
    ((c.max {}).sub (floorSum s demand)).val = max c.val 0 - (floorSum s demand).val := by
  rw [Frac.sub_val (max_zero_d_pos hc) (floorSum_d_pos s demand), max_zero_val hc]

/-- The rounds of a split that covers the floors. -/
theorem rounds_sound (hc : 0 < c.d) (hcovers : ¬ (c.max {}).le (floorSum s demand) = true) :
    (∀ p ∈ splitGo 10 ((c.max {}).sub (floorSum s demand)) (partsOf s demand), p.Sound (minW s)) ∧
    gotSum (splitGo 10 ((c.max {}).sub (floorSum s demand)) (partsOf s demand)) ≤ max c.val 0 := by
  have hsum := floorSum_d_pos s demand
  have hnonneg : 0 ≤ ((c.max {}).sub (floorSum s demand)).val := by
    rw [Frac.le_iff (max_zero_d_pos hc) hsum, max_zero_val hc, not_le] at hcovers
    rw [rest_val hc]
    exact sub_nonneg.mpr hcovers.le
  obtain ⟨hsound, hgot⟩ := splitGo_sound 10 (Frac.sub_d_pos (max_zero_d_pos hc) hsum) hnonneg (partsOf_sound s demand)
  refine ⟨hsound, hgot.trans_eq ?_⟩
  rw [gotSum_partsOf, rest_val hc, add_sub_cancel]

/-- Where the power does not exceed the floors each participant has its MIN_W reduced alike, in whole watts (R353). -/
theorem split_of_le_floors (hc : 0 < c.d) (hle : (c.max {}).le (floorSum s demand) = true) :
    split s c demand = (actives s).map (fun i => (i, ⌊minW s i * (max c.val 0 / (floorSum s demand).val)⌋₊)) := by
  rw [split_eq, if_pos hle, partsOf, List.map_map]
  refine List.map_congr_left (fun i _ => congrArg (Prod.mk i) ?_)
  rw [reducedFloor_partOf (floorSum_d_pos s demand) (floorSum_nonneg s demand), max_zero_val hc, mul_div_assoc]

/-- Otherwise each has the whole watts of what its line got in the rounds (R352). -/
theorem split_of_rounds (hcovers : ¬ (c.max {}).le (floorSum s demand) = true) :
    split s c demand = (splitGo 10 ((c.max {}).sub (floorSum s demand)) (partsOf s demand)).map
      (fun p => (p.i, ⌊p.got.val⌋₊)) := by
  rw [split_eq, if_neg hcovers]
  exact List.map_congr_left (fun p _ => congrArg (Prod.mk p.i) (Frac.floor_toNat p.got))

/-- The participants of a split are the active ones. -/
theorem split_map_fst (hc : 0 < c.d) : (split s c demand).map Prod.fst = actives s := by
  by_cases hle : (c.max {}).le (floorSum s demand) = true
  · rw [split_of_le_floors hc hle, List.map_map]
    exact List.map_id _
  · rw [split_of_rounds hle, List.map_map]
    exact (splitGo_map_i _ _ _).trans (partsOf_map_i s demand)

/-- Whole watts are no more than the exact ones. -/
theorem sum_floor_le {α : Type} (f : α → ℚ) {xs : List α} (hf : ∀ x ∈ xs, 0 ≤ f x) :
    (((xs.map (fun x => ⌊f x⌋₊)).sum : Nat) : ℚ) ≤ (xs.map f).sum := by
  rw [Nat.cast_list_sum, List.map_map]
  exact List.sum_le_sum (fun x hx => Nat.floor_le (hf x hx))

/-- The whole watts of a split sum to no more than what it divides. -/
theorem split_sum_le (hc : 0 < c.d) : ((((split s c demand).map (fun x => x.2)).sum : Nat) : ℚ) ≤ max c.val 0 := by
  by_cases hle : (c.max {}).le (floorSum s demand) = true
  · have hpart : 0 ≤ max c.val 0 / (floorSum s demand).val := div_nonneg (le_max_right _ _) (floorSum_nonneg s demand)
    have hmin : ((actives s).map (fun i => (minW s i : ℚ))).sum = (floorSum s demand).val := by
      rw [floorSum_val, Nat.cast_list_sum, List.map_map]
      rfl
    rw [split_of_le_floors hc hle, List.map_map]
    calc _ ≤ ((actives s).map (fun i => minW s i * (max c.val 0 / (floorSum s demand).val))).sum :=
          sum_floor_le _ (fun i _ => mul_nonneg (Nat.cast_nonneg _) hpart)
      _ = (floorSum s demand).val * (max c.val 0 / (floorSum s demand).val) := by rw [List.sum_map_mul_right, hmin]
      _ ≤ max c.val 0 := by
          rcases eq_or_ne (floorSum s demand).val 0 with hzero | hne
          · rw [hzero, zero_mul]
            exact le_max_right _ _
          · exact (mul_div_cancel₀ _ hne).le
  · obtain ⟨hsound, hgot⟩ := rounds_sound hc hle
    rw [split_of_rounds hle, List.map_map]
    exact (sum_floor_le _ (fun p hp => (Nat.cast_nonneg _).trans (hsound p hp).floor_le_got)).trans hgot

/-- Where the power covers all floors, every line of a split has its floor. -/
theorem minW_le_of_mem_split (hc : 0 < c.d) (hcovers : (floorSum s demand).val ≤ c.val) {x : Nat × Nat}
    (hx : x ∈ split s c demand) : minW s x.1 ≤ x.2 := by
  by_cases hle : (c.max {}).le (floorSum s demand) = true
  · rw [split_of_le_floors hc hle] at hx
    obtain ⟨i, hi, rfl⟩ := List.mem_map.mp hx
    have hmax : (floorSum s demand).val ≤ max c.val 0 := hcovers.trans (le_max_left _ _)
    refine Nat.le_floor ?_
    rcases eq_or_ne (floorSum s demand).val 0 with hzero | hne
    · rw [floorSum_val, Nat.cast_eq_zero] at hzero
      have hmin : minW s i = 0 := List.sum_eq_zero_iff.mp hzero _ (List.mem_map_of_mem hi)
      simp [hmin]
    · have hpos : 0 < (floorSum s demand).val := lt_of_le_of_ne (floorSum_nonneg s demand) hne.symm
      exact le_mul_of_one_le_right (Nat.cast_nonneg _) ((one_le_div hpos).mpr hmax)
  · rw [split_of_rounds hle] at hx
    obtain ⟨p, hp, rfl⟩ := List.mem_map.mp hx
    exact Nat.le_floor ((rounds_sound hc hle).1 p hp).floor_le_got

/-- A bound of every line of a split is one of each participant's share. -/
theorem le_shareOf {xs : List (Nat × Nat)} {f : Nat → Nat} (hf : ∀ x ∈ xs, f x.1 ≤ x.2) {i : Nat}
    (hi : i ∈ xs.map Prod.fst) : f i ≤ shareOf xs i := by
  unfold shareOf
  split
  · next x hx =>
    have hxi : x.1 = i := by simpa using List.find?_some hx
    exact hxi ▸ hf x (List.mem_of_find?_eq_some hx)
  · next hnone =>
    obtain ⟨x, hx, rfl⟩ := List.mem_map.mp hi
    exact absurd (List.find?_eq_none.mp hnone x hx) (by simp)

/-- A number is within a fraction as its product with the denominator is within the numerator. -/
theorem Frac.cast_le_val_iff (hc : 0 < c.d) (n : Nat) : (n : ℚ) ≤ c.val ↔ (n : Int) * c.d ≤ c.n := by
  rw [Frac.val, le_div_iff₀ (Nat.cast_pos.mpr hc)]
  exact_mod_cast Iff.rfl

end

/-- Settles O45: each round of the split gives out what it takes from the rest, to open lines by their weights, and takes
nothing from a line. -/
theorem grantsStayWithinTheCap : Obligations.GrantsStayWithinTheCap := by
  unfold Obligations.GrantsStayWithinTheCap
  intro s c demand hc
  refine ⟨?within, ?floors⟩
  case within =>
    rcases le_max_iff.mp (split_sum_le (s := s) (demand := demand) hc) with hcap | hzero
    · exact le_max_of_le_left ((Frac.cast_le_val_iff hc _).mp hcap)
    · rw [Nat.cast_nonpos.mp hzero, Nat.cast_zero, zero_mul]
      exact le_max_right _ _
  case floors =>
    intro hcovers i hi
    have hval : (floorSum s demand).val ≤ c.val := by rwa [floorSum_val, Frac.cast_le_val_iff hc]
    exact le_shareOf (fun x hx => minW_le_of_mem_split hc hval hx) ((split_map_fst hc).symm ▸ hi)

end Sys2Proof.Machine

end SplitOfPower

/-! The commands of power budget and dispatch (11). -/

section BudgetAndDispatchCommands

namespace Sys2Proof.Machine

/-- With the power-management core down the held grants are repeated (R361). -/
theorem execHeldGrantRepeat_of_down {s : State} (h : coreUp 1 s = false) :
    execHeldGrantRepeat s = .next (settled (fxHeldGrants s)) := by
  rw [execHeldGrantRepeat, h]
  rfl

/-! Guards (R359) -/

section
variable {a w : Nat} {s : State}

/-- A mean above the guard level opens an episode. -/
theorem fxGuardCompare_of_over (hguard : (accB s a).guard = false) (hen : rdBit s R.BG_CTRL 31 = true)
    (hover : rdN s (R.GUARD a) * (100 + guardPct s) < 100 * w) :
    fxGuardCompare a w s = raise 4 2 a (regData (rd s (R.GUARD a)))
      (bump (R.CNT_GUARD a) (setAcc a (fun x => { x with guard := true, guardFell := false }) s)) := by
  have hlevel : guardOver s a w = true := by simp [guardOver, hen, hover]
  simp [fxGuardCompare, hguard, hlevel]

/-- In an episode, a mean at or below THR_W starts the clearance. -/
theorem fxGuardCompare_of_fallen (hguard : (accB s a).guard = true) (hw : w ≤ rdFld s (R.GRANT a) 31 16) :
    fxGuardCompare a w s = setAcc a (fun x => { x with guardFell := true }) s := by
  simp [fxGuardCompare, hguard, hw]

theorem fxGuardLevel_of_cons {g : Nat} {rest : List Nat} (h : (accB s a).guardNext = g :: rest) :
    fxGuardLevel a s = wr (R.GUARD a) (BitVec.ofNat 32 g) (setAcc a (fun b => { b with guardNext := rest }) s) := by
  rw [fxGuardLevel, h]

end

/-! The clearing of causes (R358) -/

section
variable {α : Type}

theorem SMap.insert_insert_same (m : SMap α) (k : Nat) (v w : α) :
    SMap.insert (SMap.insert m k v) k w = SMap.insert m k w := by
  induction m with
  | nil => simp [SMap.insert]
  | cons e t ih =>
    obtain ⟨k', v'⟩ := e
    by_cases hsame : k' = k
    · simp [SMap.insert, hsame]
    · by_cases hlow : k < k'
      · simp [SMap.insert, hsame, hlow]
      · simp [SMap.insert, hsame, hlow, ih]

theorem SMap.erase_insert_same (m : SMap α) (k : Nat) (v : α) : SMap.erase (SMap.insert m k v) k = SMap.erase m k := by
  unfold SMap.erase
  induction m with
  | nil => simp [SMap.insert]
  | cons e t ih =>
    obtain ⟨k', v'⟩ := e
    by_cases hsame : k' = k
    · simp [SMap.insert, hsame]
    · by_cases hlow : k < k'
      · simp [SMap.insert, hsame, hlow]
      · simp [SMap.insert, hsame, hlow, ih]

/-- Of two writes of one key the second stands, where the first wrote no default. -/
theorem SMap.set_set_same [DecidableEq α] {d : α} {m : SMap α} {k : Nat} {v : α} (hv : v ≠ d) (w : α) :
    SMap.set d (SMap.set d m k v) k w = SMap.set d m k w := by
  unfold SMap.set
  rw [if_neg hv]
  split
  · exact SMap.erase_insert_same m k v
  · exact SMap.insert_insert_same m k v w

end

section
variable {a : Nat} {s : State}

/-- Two changes of an accelerator are one, where the first does not leave it as after reset. -/
theorem setAcc_setAcc_same {f : AccB → AccB} (hf : f (accB s a) ≠ {}) (g : AccB → AccB) :
    setAcc a g (setAcc a f s) = setAcc a (fun b => g (f b)) s := by
  have hget : (SMap.set {} s.budget.accs a (f (accB s a))).get {} a = f (accB s a) := by simp
  have hset := SMap.set_set_same (m := s.budget.accs) (k := a) hf (g (f (accB s a)))
  unfold accB at hget hset
  simp only [setAcc, SMap.upd, hget, hset]

/-- A change of an accelerator's budget state that keeps `drained` does not change whether a GRANT is due. -/
theorem grantDue_setAcc {f : AccB → AccB} (hf : ∀ b, (f b).drained = b.drained) :
    grantDue (setAcc a f s) a = grantDue s a := by
  have hactive : accActive (setAcc a f s) a = accActive s a := by
    simp only [accActive, accB_setAcc, if_true, hf]
    rfl
  rw [grantDue, hactive]
  rfl

/-- Nor does one that keeps `freed` as well change whether the RACK cause may clear. -/
theorem rackMayClear_setAcc {f : AccB → AccB} (hdrained : ∀ b, (f b).drained = b.drained)
    (hfreed : ∀ b, (f b).freed = b.freed) : rackMayClear (setAcc a f s) a = rackMayClear s a := by
  rw [rackMayClear, grantDue_setAcc hdrained, accB_setAcc, if_pos rfl, hfreed]
  rfl

theorem rackMayClear_iff : rackMayClear s a = true ↔
    s.chip.rackThrottle = false ∧ ((accB s a).freed = true ∨ grantDue s a = false) := by
  simp [rackMayClear]

theorem fxCauseClear_of_guardFell (h : (accB s a).guardFell = true) :
    fxCauseClear a true s = setAcc a (fun b => { b with guard := false, guardFell := false }) s := by
  simp [fxCauseClear, h]

theorem fxCauseClear_of_rackThrottle (h : s.chip.rackThrottle = true) : fxCauseClear a false s = s := by
  simp [fxCauseClear, h]

/-- With the line high the RACK cause clears, where a GRANT without RACK_THROTTLE has been sent or none is due. -/
theorem fxCauseClear_of_rack (hline : s.chip.rackThrottle = false) (hrack : (accB s a).rack = true)
    (hgrant : (accB s a).freed = true ∨ grantDue s a = false) :
    fxCauseClear a false s = setAcc a (fun b => { b with rack := false, rackMs := false }) s := by
  have hmay : rackMayClear (setAcc a (fun b => { b with rackMs := b.rack }) s) a = true :=
    (rackMayClear_setAcc (f := fun b => { b with rackMs := b.rack }) (fun _ => rfl) (fun _ => rfl)).trans
      (rackMayClear_iff.mpr ⟨hline, hgrant⟩)
  have hmarked : { accB s a with rackMs := (accB s a).rack } ≠ ({} : AccB) :=
    fun h => by simpa [hrack] using congrArg AccB.rack h
  have hms : (accB (setAcc a (fun b => { b with rackMs := b.rack }) s) a).rackMs = true := by simp [hrack]
  rw [fxCauseClear, if_neg Bool.false_ne_true, if_neg (by simp [hline]), clearRack, hms, hmay]
  exact setAcc_setAcc_same hmarked _

end

/-- Settles O18: in a state that it fits, each command is the effect that its rules give. -/
theorem budgetAndDispatchCommandsComplete : Obligations.BudgetAndDispatchCommandsComplete := by
  unfold Obligations.BudgetAndDispatchCommandsComplete
  refine ⟨?period, ?held, ?demand, ?guardOpens, ?guardFalls, ?guardLevel, ?guardClears, ?rackClears, ?rackStays, ?ledger,
    ?summary⟩
  case period => exact fun _ hcore => done_of_fits hcore rfl
  case held => exact fun _ hdown => execHeldGrantRepeat_of_down hdown
  case demand => exact fun _ _ _ => rfl
  case guardOpens => exact fun _ _ _ hguard hen hover => congrArg done (fxGuardCompare_of_over hguard hen hover)
  case guardFalls => exact fun _ _ _ hguard hw => congrArg done (fxGuardCompare_of_fallen hguard hw)
  case guardLevel => exact fun _ _ _ _ hnext => congrArg done (fxGuardLevel_of_cons hnext)
  case guardClears => exact fun _ _ hfell => congrArg done (fxCauseClear_of_guardFell hfell)
  case rackClears =>
    exact fun _ _ hline hrack hgrant => ⟨_, congrArg done (fxCauseClear_of_rack hline hrack hgrant), fun _ _ => rfl⟩
  case rackStays => exact fun _ _ hlow => congrArg done (fxCauseClear_of_rackThrottle hlow)
  case ledger => exact fun _ hcore => done_of_fits hcore rfl
  case summary => exact fun _ hen => done_of_fits hen rfl

end Sys2Proof.Machine

end BudgetAndDispatchCommands

/-! What every step keeps: the limits, floors and counters that move one way (R441, R442, R447, R457, R464). -/

section LastingValues

namespace Sys2Proof.Machine

/-! One step -/

/-- Settles O25: it is how a step is defined. -/
theorem aStepRunsTheFrontCommand : Obligations.AStepRunsTheFrontCommand := by
  unfold Obligations.AStepRunsTheFrontCommand
  refine ⟨?front, ?empty⟩
  case front => exact fun _ _ _ => rfl
  case empty =>
    intro s h
    rw [step, h]

theorem next_settled_of_done {u t : State} (h : done u = .next t) : t = settled u := by
  rw [done] at h
  injection h with h
  exact h.symm

/-! The commands that move no lasting value -/

/-- The commands whose effect can move a lasting value: the cold resets and the start of the AON island, the loading of a
configuration, the tick of operating time, and the orders and events of R441, R442 and R457. -/
def movesLasting (c : Instr) : Bool :=
  match c with
  | .sysrstNLow .. | .vaonLeavesWindow | .vaonRestored .. | .secFirmwareRunning | .configActivationApply | .rollbackApply
  | .rollback .. | .optimeTick | .probationPass .. | .starchTighten .. | .debugUnlock .. => true
  | _ => false

/-- Every other command leaves the lasting values alone. -/
theorem exec_lasts {c : Instr} (h : movesLasting c = false) (s : State) :
    ∃ u, exec c s = done u ∧ lasting u = lasting s := by
  cases c with
  | sysrstNLow | vaonLeavesWindow | vaonRestored | secFirmwareRunning | configActivationApply | rollbackApply | rollback
  | optimeTick | probationPass | starchTighten | debugUnlock => cases h
  | _ =>
    refine ⟨_, rfl, ?_⟩
    -- Where the command fits, its effect leaves them alone; where it does not, nothing happens.
    repeat' split
    all_goals simp

theorem lasting_of_exec {c : Instr} {s t : State} (hc : movesLasting c = false) (h : exec c s = .next t) :
    lasting t = lasting s := by
  obtain ⟨u, hu, hlasts⟩ := exec_lasts hc s
  rw [hu] at h
  rw [next_settled_of_done h, settled_lasts, hlasts]

/-! Outside a cold reset (R441, R442, R447, R457) -/

theorem Tightens.refl (s : State) : Tightens s s := tightens_of_lasting rfl

/-- The effect of a command where it fits, and none where it does not. -/
theorem tightens_ite {p : Prop} [Decidable p] {s u : State} (h : Tightens s u) : Tightens s (if p then u else s) := by
  split
  · exact h
  · exact .refl s

theorem stallTick_optime_tightens (s : State) (n : Nat) : Tightens s (stallTick { s with aon.optime := n }) :=
  Tightens.of_eq (t := { s with aon.optime := n }) ⟨rfl, Nat.le_refl _, Nat.le_refl _, Nat.le_refl _, fun _ => Nat.le_refl _, Nat.le_refl _, id⟩ (stallTick_lasts _)

theorem exec_tightens {c : Instr} {s t : State} (hc : coldResets c = false) (h : exec c s = .next t) : Tightens s t := by
  by_cases hmove : movesLasting c = false
  · exact tightens_of_lasting (lasting_of_exec hmove h)
  cases c with
  | sysrstNLow | vaonLeavesWindow => cases hc
  | vaonRestored x y =>
    refine done_tightens h ?_
    split
    · exact .refl s
    · exact fxVaonRestored_tightens _ _ s
  | secFirmwareRunning => exact done_tightens h (tightens_ite (fxSecRunning_tightens s))
  | configActivationApply =>
    refine done_tightens h ?_
    split
    · exact tightens_ite (fxActivate_tightens _ _ s)
    · exact .refl s
  | rollbackApply => exact done_tightens h (tightens_ite (fxRollback_tightens s))
  | rollback n => exact done_tightens h (onOrder_tightens _ _ _ s (fxRollbackOrder_tightens n))
  | optimeTick => exact done_tightens h (tightens_ite (stallTick_optime_tightens s _))
  | probationPass k => exact done_tightens h (tightens_ite (fxProbationPass_tightens k s))
  | starchTighten n => exact done_tightens h (onOrder_tightens _ _ _ s (fxStarchTighten_tightens n))
  | debugUnlock n => exact done_tightens h (onOrder_tightens _ _ _ s (fxDebugUnlock_tightens n))
  | _ => exact absurd rfl hmove

/-- Settles O28: the commands that move a lasting value only tighten, and every other one keeps them all. -/
theorem limitsOnlyTighten : Obligations.LimitsOnlyTighten := by
  unfold Obligations.LimitsOnlyTighten
  exact fun _ _ _ hc h => exec_tightens hc h

/-! Cold resets (R26, R442) -/

/-- A cold reset brings the effective limits back to their manufacture values, locks the debug port, and keeps the rest. -/
theorem coldReset_lasting (s : State) : lasting (coldReset s) =
    { lasting s with vcoreEff := 900, iclkEff := 1600, tjEff := 120, unlocked := false } := by
  simp only [coldReset, lasting_ite, raise_lasts, ite_self]
  rfl

theorem limitsHold_congr {s t : State} (h : LimitsHold s) (hl : lasting t = lasting s) : LimitsHold t :=
  ⟨(congrArg Lasting.vcoreEff hl).trans_le h.vcore, (congrArg Lasting.iclkEff hl).trans_le h.iclk,
    (congrArg Lasting.tjEff hl).trans_le h.tj⟩

theorem coldReset_limitsHold (s : State) : LimitsHold (coldReset s) :=
  ⟨(congrArg Lasting.vcoreEff (coldReset_lasting s)).le, (congrArg Lasting.iclkEff (coldReset_lasting s)).le,
    (congrArg Lasting.tjEff (coldReset_lasting s)).le⟩

theorem LimitsHold.tightens {s t : State} (h : LimitsHold s) (k : Tightens s t) : LimitsHold t :=
  ⟨k.vcore.trans h.vcore, k.iclk.trans h.iclk, k.tj.trans h.tj⟩

/-- A reset that is taken sets the manufacture values; one that is not leaves the limits that held. -/
theorem limitsHold_of_done_ite {p : Prop} [Decidable p] {s u t : State} (hs : LimitsHold s) (hu : LimitsHold u)
    (h : done (if p then u else s) = .next t) : LimitsHold t := by
  rw [next_settled_of_done h]
  refine limitsHold_congr ?_ (settled_lasts _)
  split
  · exact hu
  · exact hs

theorem exec_limitsHold {c : Instr} {s t : State} (hs : LimitsHold s) (h : exec c s = .next t) : LimitsHold t := by
  by_cases hc : coldResets c = false
  · exact hs.tightens (exec_tightens hc h)
  cases c with
  | sysrstNLow _ _ board => exact limitsHold_of_done_ite (u := fxSysrstLow board s) hs (coldReset_limitsHold _) h
  | vaonLeavesWindow => exact limitsHold_of_done_ite (u := fxVaonLost s) hs (coldReset_limitsHold _) h
  | _ => exact absurd rfl hc

/-- Settles O29: a cold reset sets the manufacture values, and every other command only tightens. -/
theorem limitsHoldThroughEveryStep : Obligations.LimitsHoldThroughEveryStep := by
  unfold Obligations.LimitsHoldThroughEveryStep
  intro s t hs h
  cases hq : s.pending with
  | nil =>
    rw [step, hq] at h
    injection h with h
    exact h ▸ hs
  | cons c rest =>
    rw [step, hq] at h
    have hrest : LimitsHold { s with pending := rest } := ⟨hs.vcore, hs.iclk, hs.tj⟩
    exact exec_limitsHold hrest h

/-! Operating time and power cycles (R464) -/

/-- The two counters of R464 among the lasting values. -/
def Lasting.counts (l : Lasting) : Nat × Nat := (l.optime, l.powerCycles)

theorem counts_eq_iff {s : State} {n k : Nat} : (lasting s).counts = (n, k) ↔ s.aon.optime = n ∧ s.aon.powerCycles = k :=
  Prod.mk_inj

theorem counts_ite {p : Prop} [Decidable p] (a b : Lasting) :
    (if p then a else b).counts = if p then a.counts else b.counts := by
  split <;> rfl

theorem tighten_counts (v i t : Nat) (s : State) : (lasting (tighten v i t s)).counts = (lasting s).counts := by
  unfold tighten
  extract_lets _ _ s1 s2
  have hs1 : (lasting s1).counts = (lasting s).counts := rfl
  have hs2 : (lasting s2).counts = (lasting s).counts := by rw [raise_lasts, hs1]
  split
  · rfl
  split
  · rw [writeVcoreLimit_lasts]
    exact hs2
  · exact hs2

theorem bootConfig_counts (s : State) : (lasting (bootConfig s)).counts = (lasting s).counts := by
  unfold bootConfig
  split
  · rfl
  · simp [tighten_counts]

theorem fxSecRunning_counts (s : State) : (lasting (fxSecRunning s)).counts = (lasting s).counts := by
  simp [fxSecRunning, bootConfig_counts]

theorem fxActivate_counts (slot : Nat) (rb : Bool) (s : State) :
    (lasting (fxActivate slot rb s)).counts = (lasting s).counts := by
  simp [fxActivate, counts_ite, tighten_counts]

theorem fxRollback_counts (s : State) : (lasting (fxRollback s)).counts = (lasting s).counts := by
  unfold fxRollback
  dsimp only
  split <;> simp [tighten_counts]

theorem fxRollbackOrder_counts (n : Nat) (p : Bytes) (s : State) :
    (lasting (fxRollbackOrder n p s)).counts = (lasting s).counts := by
  unfold fxRollbackOrder
  split
  · simp
  · simp [counts_ite, fxActivate_counts]

theorem fxStarchTighten_counts (n : Nat) (p : Bytes) (s : State) :
    (lasting (fxStarchTighten n p s)).counts = (lasting s).counts := by
  unfold fxStarchTighten
  dsimp only
  split <;> simp [badParam, tighten_counts]

theorem unlock_counts (s : State) : (lasting (unlock s)).counts = (lasting s).counts := by
  unfold unlock
  dsimp only
  rw [raise_lasts]
  split
  · exact (congrArg Lasting.counts (signWaiting_lasts s.meter.batches.length s) :)
  · rfl

theorem fxDebugUnlock_counts (n : Nat) (p : Bytes) (s : State) :
    (lasting (fxDebugUnlock n p s)).counts = (lasting s).counts := by
  simp [fxDebugUnlock, counts_ite, unlock_counts]

theorem fxProbationPass_counts (k : Nat) (s : State) :
    (lasting (fxProbationPass k s)).counts = (lasting s).counts := by
  rw [fxProbationPass, setCore_lasts]
  rfl

theorem coldReset_counts (s : State) : (lasting (coldReset s)).counts = (lasting s).counts := by
  rw [coldReset_lasting]
  rfl

theorem fxSysrstLow_counts (board : List (Nat × Bytes)) (s : State) :
    (lasting (fxSysrstLow board s)).counts = (lasting s).counts := by
  rw [fxSysrstLow, coldReset_counts]
  simp

theorem fxVaonLost_counts (s : State) : (lasting (fxVaonLost s)).counts = (lasting s).counts := by
  rw [fxVaonLost, coldReset_counts]
  rfl

theorem onOrder_counts (op n : Nat) (body : Bytes → State → State) (s : State)
    (h : ∀ p a, (lasting (body p a)).counts = (lasting a).counts) :
    (lasting (onOrder op n body s)).counts = (lasting s).counts := by
  unfold onOrder takeOrder
  dsimp only
  split
  · split
    · simp
    split
    · simp
    · simp [h]
  · rfl

/-- The effect of a command where it fits, and none where it does not. -/
theorem counts_of_done_ite {p : Prop} [Decidable p] {s u t : State} (hu : (lasting u).counts = (lasting s).counts)
    (h : done (if p then u else s) = .next t) : (lasting t).counts = (lasting s).counts := by
  rw [next_settled_of_done h, settled_lasts]
  split
  · exact hu
  · rfl

/-- Every command but the tick of operating time and the return of VAON keeps both counters. -/
theorem counts_of_exec {c : Instr} {s t : State} (hback : ∀ x y, c ≠ .vaonRestored x y) (htick : c ≠ .optimeTick)
    (h : exec c s = .next t) : (lasting t).counts = (lasting s).counts := by
  by_cases hmove : movesLasting c = false
  · rw [lasting_of_exec hmove h]
  cases c with
  | vaonRestored x y => exact absurd rfl (hback x y)
  | optimeTick => exact absurd rfl htick
  | sysrstNLow _ _ board => exact counts_of_done_ite (fxSysrstLow_counts board s) h
  | vaonLeavesWindow => exact counts_of_done_ite (fxVaonLost_counts s) h
  | secFirmwareRunning => exact counts_of_done_ite (fxSecRunning_counts s) h
  | configActivationApply =>
    rw [next_settled_of_done h, settled_lasts]
    split
    · rw [lasting_ite, counts_ite, fxActivate_counts, ite_self]
    · rfl
  | rollbackApply => exact counts_of_done_ite (fxRollback_counts s) h
  | rollback n =>
    rw [next_settled_of_done h, settled_lasts]
    exact onOrder_counts _ _ _ s (fxRollbackOrder_counts n)
  | probationPass k => exact counts_of_done_ite (fxProbationPass_counts k s) h
  | starchTighten n =>
    rw [next_settled_of_done h, settled_lasts]
    exact onOrder_counts _ _ _ s (fxStarchTighten_counts n)
  | debugUnlock n =>
    rw [next_settled_of_done h, settled_lasts]
    exact onOrder_counts _ _ _ s (fxDebugUnlock_counts n)
  | _ => exact absurd rfl hmove

/-- The tick moves operating time while VAON stands, and no power cycle. -/
theorem counts_of_optimeTick {s t : State} (h : exec .optimeTick s = .next t) : (lasting t).counts =
    (if s.chip.vaonOk then (s.aon.optime + 1) % 2 ^ 48 else s.aon.optime, s.aon.powerCycles) := by
  rw [next_settled_of_done h, settled_lasts]
  split
  · rw [stallTick_lasts]
    rfl
  · rfl

/-- VAON that returns counts a power cycle, and no operating time; while it stands nothing returns. -/
theorem counts_of_vaonRestored {x : Nat} {y : Bool} {s t : State} (h : exec (.vaonRestored x y) s = .next t) :
    (lasting t).counts =
      (s.aon.optime, if s.chip.vaonOk then s.aon.powerCycles else (s.aon.powerCycles + 1) % 2 ^ 32) := by
  rw [next_settled_of_done h, settled_lasts]
  split
  · rfl
  · rw [fxVaonRestored, lasting_ite, aonStarts_lasts, ite_self]
    rfl

theorem shownWord_optimeLo (s : State) : shownWord s R.OPTIME_LO = BitVec.ofNat 32 s.aon.optime := by
  change BitVec.ofNat 32 (loWord s.aon.optime) = _
  apply BitVec.eq_of_toNat_eq
  simp [loWord]

theorem shownWord_optimeHi (s : State) :
    shownWord s R.OPTIME_HI = BitVec.ofNat 32 (s.aon.optime / 2 ^ 32 % 65536) := by
  change BitVec.ofNat 32 (hiWord s.aon.optime % 65536) = _
  rw [hiWord, Nat.mod_mod_of_dvd _ (by decide)]

/-- Settles O30: the tick and the return of VAON move the counters, and no other command does. -/
theorem operatingTimeAndPowerCycles : Obligations.OperatingTimeAndPowerCycles := by
  unfold Obligations.OperatingTimeAndPowerCycles
  refine ⟨?moves, fun s => ⟨shownWord_optimeLo s, shownWord_optimeHi s, rfl⟩⟩
  case moves =>
    intro c s t h
    by_cases htick : c = .optimeTick
    · subst htick
      obtain ⟨htime, hcycles⟩ := counts_eq_iff.mp (counts_of_optimeTick h)
      exact ⟨by simpa using htime, fun _ _ hc => Instr.noConfusion hc, fun _ => hcycles⟩
    by_cases hback : ∃ x y, c = .vaonRestored x y
    · obtain ⟨x, y, rfl⟩ := hback
      obtain ⟨htime, hcycles⟩ := counts_eq_iff.mp (counts_of_vaonRestored h)
      refine ⟨by simpa using htime, fun _ _ _ hlost => by simpa [hlost] using hcycles, ?_⟩
      rintro (hstands | hother)
      · simpa [hstands] using hcycles
      · exact absurd rfl (hother x y)
    · have hother : ∀ x y, c ≠ .vaonRestored x y := fun x y hc => hback ⟨x, y, hc⟩
      obtain ⟨htime, hcycles⟩ : t.aon.optime = s.aon.optime ∧ t.aon.powerCycles = s.aon.powerCycles :=
        counts_eq_iff.mp (counts_of_exec hother htick h)
      exact ⟨by simpa [htick] using htime, fun x y hc => absurd hc (hother x y), fun _ => hcycles⟩

end Sys2Proof.Machine

end LastingValues

/-! Temperatures, headroom and the duty of the cooling outputs (12). -/

section TemperaturesAndDuty

namespace Sys2Proof.Machine

/-! Readings of a zone, and headroom (R375, R377) -/

theorem maxInt_spec {xs : List Int} (h : xs ≠ []) (d : Int) : maxInt d xs ∈ xs ∧ ∀ x ∈ xs, x ≤ maxInt d xs := by
  cases xs with
  | nil => exact absurd rfl h
  | cons x t => exact List.max?_eq_some_iff.mp List.max?_cons'

theorem foldl_min_spec (x : Int) (t : List Int) : t.foldl min x ∈ x :: t ∧ ∀ y ∈ x :: t, t.foldl min x ≤ y :=
  List.min?_eq_some_iff.mp List.min?_cons'

theorem zoneSensors_ne_nil (z : Nat) : zoneSensors z ≠ [] := by
  unfold zoneSensors
  dsimp only
  repeat' split
  all_goals simp

theorem zoneT_spec (s : State) (z : Nat) :
    (∃ n ∈ zoneSensors z, roRead s n = zoneT s z) ∧ ∀ n ∈ zoneSensors z, roRead s n ≤ zoneT s z := by
  obtain ⟨hmem, hmax⟩ := maxInt_spec (mt List.map_eq_nil_iff.mp (zoneSensors_ne_nil z) : (zoneSensors z).map (roRead s) ≠ []) 0
  exact ⟨List.mem_map.mp hmem, fun n hn => hmax _ (List.mem_map_of_mem hn)⟩

/-- THR_EFF less the headroom is the temperature of the hottest zone. -/
theorem headroom8_spec (s : State) :
    (∃ z < 16, headroom8 s = thrEff s - zoneT s z) ∧ ∀ z < 16, headroom8 s ≤ thrEff s - zoneT s z := by
  obtain ⟨hmem, hmax⟩ := maxInt_spec (by simp : (List.range 16).map (zoneT s) ≠ []) 0
  obtain ⟨z, hz, hzone⟩ := List.mem_map.mp hmem
  refine ⟨⟨z, List.mem_range.mp hz, by rw [headroom8, hzone]⟩, fun y hy => ?_⟩
  exact Int.sub_le_sub_left (hmax _ (List.mem_map_of_mem (List.mem_range.mpr hy))) _

theorem mem_diodesOf {s : State} {a d : Nat} :
    d ∈ diodesOf s a ↔ d < 16 ∧ rdBit s (R.RD_CFG d) 31 = true ∧ rdFld s (R.RD_CFG d) 27 24 = a := by
  simp [diodesOf]

/-- The accelerator's own term of H_a: 0 without an ACC_STATUS in the last 10 ms. -/
def ownHeadroom (s : State) (a : Nat) : Int :=
  match (accB s a).statusAt with
  | some t => if now s ≤ t + 10 then 10 * ((rdFld s (R.ACC_TLIM a) 7 0 : Int) - (accB s a).hotC) else 0
  | none => 0

/-- H_a is the smallest of the own term and the terms of the enabled diodes. -/
theorem headroomAcc_spec (s : State) (a : Nat) :
    headroomAcc s a ≤ ownHeadroom s a ∧
    (∀ d ∈ diodesOf s a, headroomAcc s a ≤ 10 * (rdFld s (R.RD_CFG d) 23 16 : Int) - diodeRead s d) ∧
    (headroomAcc s a = ownHeadroom s a ∨
      ∃ d ∈ diodesOf s a, headroomAcc s a = 10 * (rdFld s (R.RD_CFG d) 23 16 : Int) - diodeRead s d) := by
  have hfold : headroomAcc s a =
      ((diodesOf s a).map (fun d => 10 * (rdFld s (R.RD_CFG d) 23 16 : Int) - diodeRead s d)).foldl min (ownHeadroom s a) := rfl
  obtain ⟨hmem, hmin⟩ := foldl_min_spec (ownHeadroom s a)
    ((diodesOf s a).map (fun d => 10 * (rdFld s (R.RD_CFG d) 23 16 : Int) - diodeRead s d))
  rw [← hfold] at hmem hmin
  refine ⟨hmin _ (by simp), fun d hd => hmin _ (List.mem_cons_of_mem _ (List.mem_map.mpr ⟨d, hd, rfl⟩)), ?_⟩
  rcases List.mem_cons.mp hmem with hown | hdiode
  · exact .inl hown
  · obtain ⟨d, hd, hterm⟩ := List.mem_map.mp hdiode
    exact .inr ⟨d, hd, hterm.symm⟩

/-- Settles O39: a zone's temperature is the maximum of a list of readings, and headroom a maximum or a minimum of terms. -/
theorem zoneTemperatureAndHeadroom : Obligations.ZoneTemperatureAndHeadroom := by
  unfold Obligations.ZoneTemperatureAndHeadroom
  refine ⟨?zone, ?broken, headroom8_spec, ?acc⟩
  case zone =>
    intro s z
    obtain ⟨⟨n, hn, hread⟩, hmax⟩ := zoneT_spec s z
    exact ⟨⟨n, hn, hread.symm⟩, hmax⟩
  case broken => exact fun _ _ hcause => if_pos hcause
  case acc =>
    intro s a own hown
    have hterm : own = ownHeadroom s a := hown
    subst hterm
    obtain ⟨hle, hdiodes, heq⟩ := headroomAcc_spec s a
    refine ⟨hle, fun d hlt hen ha => hdiodes d (mem_diodesOf.mpr ⟨hlt, hen, ha⟩), heq.imp_right ?_⟩
    rintro ⟨d, hd, hat⟩
    obtain ⟨hlt, hen, ha⟩ := mem_diodesOf.mp hd
    exact ⟨d, hlt, hen, ha, hat⟩

/-! The fallback curve (R391) -/

section
variable {a b : Int × Nat} {t : Int}

/-- Between two points the curve is the least whole percent at or above the interpolation. -/
theorem curveBetween_spec (hab : a.1 < b.1) (hlo : a.1 ≤ t) (hhi : t ≤ b.1) :
    (a.2 : Int) * (b.1 - t) + b.2 * (t - a.1) ≤ (curveBetween a b t : Int) * (b.1 - a.1) ∧
    ((curveBetween a b t : Int) - 1) * (b.1 - a.1) < (a.2 : Int) * (b.1 - t) + b.2 * (t - a.1) := by
  have hwidth : 0 < b.1 - a.1 := by omega
  have hnonneg : 0 ≤ (a.2 : Int) * (b.1 - t) + b.2 * (t - a.1) :=
    add_nonneg (mul_nonneg (by positivity) (by omega)) (mul_nonneg (by positivity) (by omega))
  unfold curveBetween
  generalize (a.2 : Int) * (b.1 - t) + b.2 * (t - a.1) = n at hnonneg ⊢
  have hfloor : -n / (b.1 - a.1) * (b.1 - a.1) ≤ -n := Int.ediv_mul_le _ hwidth.ne'
  have hnext : -n < (-n / (b.1 - a.1) + 1) * (b.1 - a.1) := Int.lt_ediv_add_one_mul_self _ hwidth
  have hquot : -n / (b.1 - a.1) ≤ 0 := Int.ediv_nonpos_of_nonpos_of_neg (by omega) hwidth
  rw [Int.toNat_of_nonneg (by omega)]
  constructor <;> linarith

/-- At its lower point a segment gives that point's duty. -/
theorem curveBetween_left (hab : a.1 < b.1) : curveBetween a b a.1 = a.2 := by
  have hwidth : b.1 - a.1 ≠ 0 := by omega
  simp [curveBetween, ← neg_mul, hwidth]

end

section
variable {s : State} {c : Nat} {t : Int} (hsource : curveSource s c = some t)
  (h01 : (curvePoint s c 0).1 < (curvePoint s c 1).1) (h12 : (curvePoint s c 1).1 < (curvePoint s c 2).1)
  (h23 : (curvePoint s c 2).1 < (curvePoint s c 3).1)
include hsource h01 h12 h23

theorem curveDuty_of_ascending : curveDuty s c =
    if t < (curvePoint s c 0).1 then (curvePoint s c 0).2
    else if t < (curvePoint s c 1).1 then curveBetween (curvePoint s c 0) (curvePoint s c 1) t
    else if t < (curvePoint s c 2).1 then curveBetween (curvePoint s c 1) (curvePoint s c 2) t
    else if t < (curvePoint s c 3).1 then curveBetween (curvePoint s c 2) (curvePoint s c 3) t
    else (curvePoint s c 3).2 := by
  simp [curveDuty, hsource, h01, h12, h23]

theorem curveDuty_below (h : t < (curvePoint s c 0).1) : curveDuty s c = (curvePoint s c 0).2 := by
  rw [curveDuty_of_ascending hsource h01 h12 h23, if_pos h]

theorem curveDuty_from_last (h : (curvePoint s c 3).1 ≤ t) : curveDuty s c = (curvePoint s c 3).2 := by
  rw [curveDuty_of_ascending hsource h01 h12 h23, if_neg (by omega), if_neg (by omega), if_neg (by omega), if_neg (by omega)]

/-- Within a segment, its upper point left out, the curve is the interpolation. -/
theorem curveDuty_within {i : Nat} (hi : i < 3) (hlo : (curvePoint s c i).1 ≤ t) (hhi : t < (curvePoint s c (i + 1)).1) :
    curveDuty s c = curveBetween (curvePoint s c i) (curvePoint s c (i + 1)) t := by
  rw [curveDuty_of_ascending hsource h01 h12 h23]
  match i, hi with
  | 0, _ => rw [if_neg (by omega), if_pos hhi]
  | 1, _ => rw [if_neg (by omega), if_neg (by omega), if_pos hhi]
  | 2, _ => rw [if_neg (by omega), if_neg (by omega), if_neg (by omega), if_pos hhi]

/-- At the upper point of a segment the curve gives that point's duty. -/
theorem curveDuty_at_upper {i : Nat} (hi : i < 3) (hat : t = (curvePoint s c (i + 1)).1) :
    curveDuty s c = (curvePoint s c (i + 1)).2 := by
  match i, hi with
  | 0, _ =>
    rw [curveDuty_within hsource h01 h12 h23 (i := 1) (by omega) hat.ge (hat.trans_lt h12), hat]
    exact curveBetween_left h12
  | 1, _ =>
    rw [curveDuty_within hsource h01 h12 h23 (i := 2) (by omega) hat.ge (hat.trans_lt h23), hat]
    exact curveBetween_left h23
  | 2, _ => exact curveDuty_from_last hsource h01 h12 h23 hat.ge

end

/-- Settles O40: the curve is cut into its segments; at a point where two meet both give the same duty. -/
theorem fallbackCurve : Obligations.FallbackCurve := by
  unfold Obligations.FallbackCurve
  refine ⟨?noSource, ?notAscending, ?ascending⟩
  case noSource =>
    intro s c h
    rw [curveDuty, h]
  case notAscending =>
    rintro s c p rfl h
    unfold curveDuty
    split
    · rfl
    · refine if_pos ?_
      rw [Bool.not_eq_true', ← Bool.not_eq_true]
      simpa [and_assoc] using h
  case ascending =>
    rintro s c t p hsource rfl h01 h12 h23
    refine ⟨curveDuty_below hsource h01 h12 h23, fun h => curveDuty_from_last hsource h01 h12 h23 h.le, ?_⟩
    intro i hi hlo hhi
    have hab : (curvePoint s c i).1 < (curvePoint s c (i + 1)).1 := by
      match i, hi with
      | 0, _ => exact h01
      | 1, _ => exact h12
      | 2, _ => exact h23
    rcases hhi.lt_or_eq with hwithin | hat
    · rw [curveDuty_within hsource h01 h12 h23 hi hlo hwithin]
      exact curveBetween_spec hab hlo hhi
    · rw [curveDuty_at_upper hsource h01 h12 h23 hi hat, hat]
      have hwidth : 0 < (curvePoint s c (i + 1)).1 - (curvePoint s c i).1 := by omega
      constructor <;> linarith

/-! Outputs at full (R384, R390) -/

theorem outputDuty_of_closed {s : State} {c : Nat} (h : (isValve c && valveClosed s c) = true) : outputDuty s c = (0, 6) :=
  if_pos h

theorem outputDuty_of_full {s : State} {c : Nat} (hopen : (isValve c && valveClosed s c) = false)
    (h : s.chip.tripForce = true ∨ s.heat.cfgLoaded = false ∨ s.heat.wdgFired = true) : outputDuty s c = (100, 4) := by
  have hfull : (coolFull s || s.heat.wdgFired) = true := by simpa [coolFull, or_assoc] using h
  rw [outputDuty, if_neg (ne_true_of_eq_false hopen), if_pos hfull]

theorem outputDuty_le (s : State) (c : Nat) : (outputDuty s c).1 ≤ 100 := by
  unfold outputDuty
  dsimp only
  repeat' split
  all_goals simp

/-- Settles O50: the two cases stand before every other in the choice of a duty. -/
theorem fullCoolingWhileATripIsInForce : Obligations.FullCoolingWhileATripIsInForce := by
  unfold Obligations.FullCoolingWhileATripIsInForce
  refine ⟨?closed, ?full, outputDuty_le⟩
  case closed => exact fun _ _ h => congrArg Prod.fst (outputDuty_of_closed h)
  case full => exact fun _ _ hopen h => congrArg Prod.fst (outputDuty_of_full hopen h)

end Sys2Proof.Machine

end TemperaturesAndDuty

/-! The commands of sensors, cooling outputs and leak loops (12). -/

section ThermalCommands

namespace Sys2Proof.Machine

section
variable {s : State}

/-! Sensors (R371, R376, R382) -/

/-- A conversion of all sensors ends in the trip of zone 12's own vote, in that of the lowest zone that votes, or in none. -/
theorem fxRingConversion_eq {counts : List Nat} {temps : List Int} {a b c : State} {vs : List Nat}
    (ha : a = (List.range 96).foldl neighbours (convertAll counts temps s)) (hb : b = (List.range 96).foldl breakSensor a)
    (hvs : vs = (List.range 16).filter (fun z => votes s b z (10 * (tripC b : Int))))
    (hc : c = countCool { b with heat.voting := BitVec.ofNat 16 (bitsOf 16 vs.contains),
                                 heat.zoneLast := vs.getLast?.getD b.heat.zoneLast }) :
    fxRingConversion counts temps s =
      if votes s b 12 1300 then aonTrip 12 c else if vs = [] then c else hwTrip (vs.headD 0) c := by
  unfold fxRingConversion
  rw [← ha]
  dsimp only
  rw [← hb, ← hvs, ← hc]
  cases vs <;> rfl

/-! Diodes and thermistors (R372, R373, R378, R386) -/

@[simp] theorem diode_setDiode (d : Nat) (f : Sens → Sens) (s : State) :
    (setDiode d f s).heat.diodes.get {} d = f (s.heat.diodes.get {} d) := by
  simp [setDiode, SMap.upd]

/-- A healthy diode's reading is taken, and at or above its limit it sets SAFETY for its accelerator. -/
theorem fxDiode_of_reading {d : Nat} {t : Int} (h : (s.heat.diodes.get {} d).fault = false) {u : State}
    (hu : u = setDiode d (fun x => { x with temp := t, ok := true }) s) :
    fxDiode d (some t) s =
      if rdFld s (R.RD_CFG d) 27 24 < 8 ∧ 10 * (rdFld s (R.RD_CFG d) 23 16 : Int) ≤ t then
        { u with heat.diodeHot := u.heat.diodeHot ||| (1#8 <<< rdFld s (R.RD_CFG d) 27 24) }
      else u := by
  subst hu
  simp [fxDiode, Sens.takes, h]

theorem fxDiode_of_fault {d : Nat} (h : (s.heat.diodes.get {} d).fault = false) {u : State}
    (hu : u = setDiode d (fun x => { x with fault := true, ok := false }) s) :
    fxDiode d none s = raise 1 5 d (regData (sensWord (diodeRead u d) true)) u := by
  subst hu
  simp [fxDiode, Sens.takes, h]

theorem fxTherm_of_within {i ohms : Nat} (hlo : 100 ≤ ohms) (hhi : ohms ≤ 1000000) :
    fxTherm i ohms s = setTherm i (fun x => { x with temp := thermTemp s i ohms, ok := true }) s := by
  simp [fxTherm, Sens.takes, Nat.not_lt.mpr hlo, Nat.not_lt.mpr hhi]

theorem fxTherm_of_outside {i ohms : Nat} (hout : ohms < 100 ∨ 1000000 < ohms) (h : (s.heat.therms.get {} i).fault = false)
    {u : State} (hu : u = setTherm i (fun x => { x with fault := true, ok := false }) s) :
    fxTherm i ohms s = raise 1 5 i (regData (sensWord (thermRead u i) true)) u := by
  subst hu
  simp [fxTherm, Sens.takes, hout, h]

/-! Trims (R379) -/

theorem fxTrim_eq (a : State) (n : Nat) : fxTrim a n = (trimTemp a n).elim a (fun t =>
    { a with heat.oscTrim := SMap.set none a.heat.oscTrim n (some (trimAt (Config.oscTrim n) t)),
             heat.gapTrim := SMap.set none a.heat.gapTrim n (some (trimAt (Config.gapTrim n) t)) }) := by
  unfold fxTrim
  cases trimTemp a n <;> rfl

end

/-- Settles O19: in a state that its event fits, each command is the effect that its rules give. -/
theorem sensorsAndThrottleCommandsComplete : Obligations.SensorsAndThrottleCommandsComplete := by
  unfold Obligations.SensorsAndThrottleCommandsComplete
  refine ⟨?ring, ?diode, ?diodeFault, ?safetyClear, ?therm, ?thermFault, ?thermClear, ?diodeClear, ?trims, ?limit⟩
  case ring => exact fun _ _ _ _ _ _ _ haon ha hb hvs hc => done_of_fits haon (fxRingConversion_eq ha hb hvs hc)
  case diode => exact fun _ _ _ hen h => done_of_fits hen (fxDiode_of_reading h rfl)
  case diodeFault => exact fun _ _ _ hen h hu => done_of_fits hen (fxDiode_of_fault h hu)
  case safetyClear =>
    intro a s hcool
    have hfits : diodesCool s a = true := by simpa [diodesCool] using hcool
    exact done_of_fits hfits rfl
  case therm => exact fun _ _ _ hen hlo hhi => done_of_fits hen (fxTherm_of_within hlo hhi)
  case thermFault => exact fun _ _ _ _ hen hout h hu => done_of_fits hen (fxTherm_of_outside hout h hu)
  case thermClear => exact fun _ _ => rfl
  case diodeClear =>
    intro i s hi
    have hfits : (false || decide (i.val < 16)) = true := by simpa using hi
    exact done_of_fits hfits rfl
  case trims =>
    intro s haon
    refine done_of_fits haon ?_
    simp only [← fxTrim_eq]
  case limit => exact fun _ haon => done_of_fits haon rfl

section
variable {s : State}

/-! Cooling (R389 to R395) -/

theorem ageOverride_eq (a : State) (c : Nat) : ageOverride a c =
    let n := rdFld a (R.CH_OVR c) 31 8
    if n = 0 ∨ n = 0xFFFFFF then a else wrFld (R.CH_OVR c) 31 8 (n - 1) a := by
  simp [ageOverride]

/-- A write of WDG_CTRL with KICK alone. -/
theorem fxWdgWrite_of_kick {v : W32} (hkick : bitAt v 31 = true) (hrel : bitAt v 30 = false) : fxWdgWrite v s =
    (let t := wrFld R.WDG_CTRL 7 0 (fld v 7 0) s
     { t with heat.lastKick := some (now t) }) := by
  simp [fxWdgWrite, hkick, hrel]

theorem fxRelease_of_kicked {k : Nat} (hk : s.heat.lastKick = some k) (h : now s ≤ k + coolWdg s) :
    fxRelease s = setOutputs { s with heat.wdgFired := false } := by
  simp [fxRelease, hk, h]

/-- A loop below its MIN marks all its inputs, and drives its group to full. -/
theorem execFlowLow_of_low {f : Fin 16} {rate k : Nat} {a t : State} (ha : a = setRate f rate s)
    (hk : k = rdFld s (R.FLOW_CFG f) 26 24) (hen : rdBit s (R.FLOW_CFG f) 31 = true) (hrate : loopRate a k < loopMin a k)
    (hlow : loopLow s k = false)
    (ht : t = (loopFlows a (rdFld a (R.FLOW_CFG f) 26 24)).foldl (fun b g => setBits (R.FLOW_STAT g) 3 b) a) :
    execFlowLow f rate s = .next (settled (setOutputs (raise 1 7 f (regData (rd t (R.FLOW_STAT f))) t))) := by
  subst ha hk ht
  have hfits : (rdBit s (R.FLOW_CFG f) 31
      && decide (loopRate (setRate f rate s) (rdFld s (R.FLOW_CFG f) 26 24)
        < loopMin (setRate f rate s) (rdFld s (R.FLOW_CFG f) 26 24))
      && !loopLow s (rdFld s (R.FLOW_CFG f) 26 24)) = true := by
    simp [hen, hrate, hlow]
  exact done_of_fits hfits rfl

theorem fxRecover_of_channel {i speed : Nat} (h : 100 * rdFld s (R.CH_CFG i) 15 8 < speed) :
    fxRecover false i speed s = setOutputs (clrBits (R.CH_STAT i) 2 (wrFld (R.CH_SPEED i) 15 0 speed s)) := by
  simp [fxRecover, h]

theorem fxRecover_of_loop {i speed k : Nat} {a : State} (ha : a = setRate i speed s)
    (hk : k = rdFld s (R.FLOW_CFG i) 26 24) (h : loopMin a k ≤ loopRate a k) :
    fxRecover true i speed s = setOutputs ((loopFlows a k).foldl (fun b g => clrBits (R.FLOW_STAT g) 2 b) a) := by
  subst ha hk
  simp [fxRecover, h]

end

/-! Leak loops (R396) -/

/-- Two changes of a loop that agree on the loop as it stands are the same change. -/
theorem setLoop_congr {l : Nat} {f g : LeakLoop → LeakLoop} {s : State} (h : f (leakLoop s l) = g (leakLoop s l)) :
    setLoop l f s = setLoop l g s := by
  unfold leakLoop at h
  rw [setLoop, setLoop, SMap.upd, SMap.upd, h]

/-- Settles O20: in a state that its event fits, each command is the effect that its rules give. -/
theorem coolingAndLeakCommandsComplete : Obligations.CoolingAndLeakCommandsComplete := by
  unfold Obligations.CoolingAndLeakCommandsComplete
  refine ⟨?update, ?kick, ?release, ?fire, ?fanFails, ?flowLow, ?fanBack, ?flowBack, ?tach, ?qcap, ?expiry, ?leak, ?relaxed⟩
  case update =>
    intro s haon
    refine done_of_fits haon ?_
    simp only [← ageOverride_eq]
    rfl
  case kick => exact fun _ _ hkick hrel => congrArg done (fxWdgWrite_of_kick hkick hrel)
  case release => exact fun _ _ hk h => congrArg done (fxRelease_of_kicked hk h)
  case fire =>
    intro s hloaded hfired hdue
    have hfits : wdgDue s = true := by simp [wdgDue, coolWdg, hloaded, hfired, hdue]
    exact done_of_fits hfits rfl
  case fanFails =>
    rintro c rpm s t hc hduty hrpm hstat rfl
    have hfits : chFails s c rpm = true := by simp [chFails, chFailing, hc, hduty, hrpm, hstat]
    exact done_of_fits hfits rfl
  case flowLow => exact fun _ _ _ _ _ _ ha hk hen hrate hlow ht => execFlowLow_of_low ha hk hen hrate hlow ht
  case fanBack =>
    intro i speed s hi h
    exact done_of_fits (p := i.val < 40) hi (fxRecover_of_channel h)
  case flowBack =>
    intro i speed s a k hi ha hk h
    exact done_of_fits (p := i.val < 16) hi (fxRecover_of_loop ha hk h)
  case tach =>
    intro rpm rates s haon hrpm hrates
    refine done_of_fits haon ?_
    rw [fxTach, hrpm, hrates]
    rfl
  case qcap => exact fun _ hcore => done_of_fits hcore rfl
  case expiry =>
    intro c s htime hduty
    have hfits : overrideOver s c = true := by simp [overrideOver, htime, hduty]
    exact done_of_fits hfits rfl
  case leak =>
    rintro l ins cont s c n haon rfl rfl
    exact done_of_fits haon (congrArg (leakRespond l) (setLoop_congr rfl))
  case relaxed => exact fun _ _ hdry => done_of_fits hdry rfl

end Sys2Proof.Machine

end ThermalCommands

/-! The events of the two-wire ports (13). -/

section TwoWireCommands

namespace Sys2Proof.Machine

section
variable {n : Nat} {v : W32} {s : State}

/-! GO (R405, R414, R420, R423) -/

/-- TW_XFER as a write of GO leaves it. -/
def goWritten (n : Nat) (v : W32) (s : State) : State :=
  wr (R.TW_XFER n) ((v ||| 0x80000000#32) &&& 0xE0FFFF7F#32) s

/-- A port that is OFF, or no controller, ends the transaction with RESULT OFF. -/
theorem fxGo_of_off (h : twState n s = 0 ∨ twController n s = false) : fxGo n v s = twCoreEnd n 7 0 (goWritten n v s) := by
  have hoff : (decide (twState n s = 0) || !twController n s) = true := by simpa using h
  rw [fxGo, if_pos hoff]
  rfl

section
variable (hon : twState n s ≠ 0) (hctl : twController n s = true)
include hon hctl

theorem not_off_of_controller : ¬ (decide (twState n s = 0) || !twController n s) = true := by
  simp [hon, hctl]

theorem fxGo_of_running (hstuck : twState n s ≠ 5) : fxGo n v s =
    if portPolls s n && decide (4 < fld v 15 8 + fld v 23 16) then twCoreEnd n 8 0 (goWritten n v s)
    else queueCore n (coreReq n v (goWritten n v s)) (wr (R.TW_XSTAT n) 0x80000000#32 (goWritten n v s)) := by
  rw [fxGo, if_neg (not_off_of_controller hon hctl), if_neg hstuck]
  rfl

end

theorem fxGo_of_stuck (h : twState n s = 5) (hctl : twController n s = true) :
    fxGo n v s = twCoreEnd n 5 0 (goWritten n v s) := by
  rw [fxGo, if_neg (not_off_of_controller (by omega) hctl), if_pos h]
  rfl

/-! Recovery (R412, R413) -/

theorem fxSclTimeout_of_own {q : TwReq} (h : (twPort s n).cur = some q) :
    fxSclTimeout n s = twRecover n (endTransaction n 4 [] q s) := by
  rw [fxSclTimeout, h]

theorem fxSclTimeout_of_other (h : (twPort s n).cur = none) : fxSclTimeout n s = twGo n 1 s := by
  rw [fxSclTimeout, h]

/-- A line that is still low after the RST_N pulse leaves the port STUCK. -/
theorem fxResetRelease_of_low {a b : Bool} (h : (a && b) = false) : fxResetRelease n a b s =
    goStuck n (twLines n a b false (bump (R.TW_CNT_RESET n) (setBits (R.TW_ERR n) 0x20 s))) := by
  rw [fxResetRelease, h]
  rfl

/-! Writes of TW_CTRL (R404, R413) -/

theorem fxTwCtrl_of_enable (hmode : fld v 1 0 ≠ 0) (hoff : twState n s = 0) (hfree : (twPort s n).releasing = false)
    (hisland : islandOn 1 s = true) : fxTwCtrl n v s = twRecover n (wr (R.TW_CTRL n) (v &&& 0xEF#32) s) := by
  simp [fxTwCtrl, hmode, hoff, hfree, hisland]

theorem fxTwCtrl_of_waiting (hmode : fld v 1 0 ≠ 0) (hrel : (twPort s n).releasing = true) : fxTwCtrl n v s =
    setTw n (fun p => { p with enableWaits := true }) (wr (R.TW_CTRL n) (v &&& 0xEF#32) s) := by
  simp [fxTwCtrl, hmode, hrel]

/-- MODE 0 waits for the transaction in progress, and releases an idle bus at once. -/
theorem fxTwCtrl_of_disable (hmode : fld v 1 0 = 0) (hon : twState n s ≠ 0) : fxTwCtrl n v s =
    if (twPort s n).cur.isSome then
      setTw n (fun p => { p with releasing := true, enableWaits := false }) (wr (R.TW_CTRL n) (v &&& 0xEF#32) s)
    else offRequests n (twLines n true true false (twGo n 0 (wr (R.TW_CTRL n) (v &&& 0xEF#32) s))) := by
  simp [fxTwCtrl, hmode, hon]

end

section
variable {n : Fin 32} {s : State}

/-! Commands by the case that they meet -/

/-- A write of GO acts unless a core's transaction is in progress. -/
theorem execGo_of_go {v : W32} {a : State} (hgo : bitAt v 31 = true) (hfree : rdBit s (R.TW_XSTAT n) 31 = false)
    (ha : fxGo n v s = a) : execGo n v s = .next (settled a) := by
  have hfits : (bitAt v 31 && !rdBit s (R.TW_XSTAT n) 31) = true := by rw [hgo, hfree]; rfl
  exact done_of_fits hfits ha

/-- The target function of ports 0 to 29 takes writes and serves reads unless the port is OFF or asleep (R405, R416). -/
theorem target_answers (hn : n.val < 30) (htarget : twTarget n s = true) (hon : twState n s ≠ 0) (hwake : twState n s ≠ 6) :
    (decide (n.val < 30) && twTarget n s && decide (twState n s ≠ 0) && decide (twState n s ≠ 6)) = true := by
  simp [hn, htarget, hon, hwake]

end

/-- Settles O21: in a state that its event fits, each command is the effect that its rules give. -/
theorem twoWirePortEventsComplete : Obligations.TwoWirePortEventsComplete := by
  unfold Obligations.TwoWirePortEventsComplete
  refine ⟨?go, ?goOff, ?goStuck, ?goPolls, ?goBusy, ?transactionEnd, ?idle, ?start, ?stop, ?timeoutOwn, ?timeoutOther,
    ?stuckSda, ?resetHigh, ?resetLow, ?retryHigh, ?retryLow, ?standby, ?wake, ?protocol, ?pec, ?targetWrite, ?targetRead,
    ?testPasses, ?testFails, ?enable, ?disableWaits, ?enableWaits, ?disable⟩
  case go =>
    intro n v s hgo hfree hon hstuck hctl hlen
    have hfits : ¬ (portPolls s n && decide (4 < fld v 15 8 + fld v 23 16)) = true := by
      simpa [Classical.or_iff_not_imp_left] using hlen
    exact execGo_of_go hgo hfree ((fxGo_of_running hon hctl hstuck).trans (if_neg hfits))
  case goOff => exact fun _ _ _ hgo hfree hoff => execGo_of_go hgo hfree (fxGo_of_off hoff)
  case goStuck => exact fun _ _ _ hgo hfree hstuck hctl => execGo_of_go hgo hfree (fxGo_of_stuck hstuck hctl)
  case goPolls =>
    intro n v s hgo hfree hon hstuck hctl hpolls hlen
    have hlong : (portPolls s n && decide (4 < fld v 15 8 + fld v 23 16)) = true := by simp [hpolls, hlen]
    exact execGo_of_go hgo hfree ((fxGo_of_running hon hctl hstuck).trans (if_pos hlong))
  case goBusy =>
    intro n v s _ hbusy
    have hignored : ¬ (bitAt v 31 && !rdBit s (R.TW_XSTAT n) 31) = true := by simp [hbusy]
    exact congrArg done (if_neg hignored)
  case transactionEnd =>
    intro n r d s q hcur
    change execTwTransactionEnd n r d s = _
    rw [execTwTransactionEnd, hcur]
    rfl
  case idle =>
    intro n s h
    have hfits : (decide (twState n s = 1) || decide (twState n s = 3) || decide (twState n s = 4)) = true := by
      simpa [or_assoc] using h
    exact done_of_fits hfits rfl
  case start => exact fun _ _ h => done_of_fits h rfl
  case stop => exact fun _ _ h => done_of_fits h rfl
  case timeoutOwn =>
    intro n s q h hcur
    have hfits : (decide (twState n s = 2) || decide (twState n s = 3)) = true := by simp [h]
    exact done_of_fits hfits (fxSclTimeout_of_own hcur)
  case timeoutOther =>
    intro n s h hcur
    have hfits : (decide (twState n s = 2) || decide (twState n s = 3)) = true := by simp [h]
    exact done_of_fits hfits (fxSclTimeout_of_other hcur)
  case stuckSda =>
    intro n s h
    have hfits : (decide (twState n s = 1) || decide (twState n s = 3)) = true := by simpa using h
    exact done_of_fits hfits rfl
  case resetHigh => exact fun _ _ h => done_of_fits h rfl
  case resetLow => exact fun _ _ _ _ h hlow => done_of_fits h (fxResetRelease_of_low hlow)
  case retryHigh => exact fun _ _ h => done_of_fits h rfl
  case retryLow => exact fun _ _ _ _ h hlow => done_of_fits h (if_neg (ne_true_of_eq_false hlow))
  case standby =>
    intro n s h htarget htime
    have hfits : (decide (twState n s = 1) && twTarget n s && decide (rdFld s (R.TW_TMO n) 31 16 ≠ 0)) = true := by
      simp [h, htarget, htime]
    exact done_of_fits hfits rfl
  case wake => exact fun _ _ h => done_of_fits h rfl
  case protocol =>
    intro n s htarget
    have hfits : (twTarget n s && (!false || rdBit s (R.TW_CTRL n) 6)) = true := by simp [htarget]
    exact done_of_fits hfits rfl
  case pec =>
    intro n s htarget hpec
    have hfits : (twTarget n s && (!true || rdBit s (R.TW_CTRL n) 6)) = true := by simp [htarget, hpec]
    exact done_of_fits hfits rfl
  case targetWrite =>
    exact fun _ _ _ hn htarget hon hwake => done_of_fits (target_answers hn htarget hon hwake) rfl
  case targetRead =>
    exact fun _ _ _ hn htarget hon hwake => done_of_fits (target_answers hn htarget hon hwake) rfl
  case testPasses => exact fun _ _ h => done_of_fits h rfl
  case testFails => exact fun _ _ h => done_of_fits h rfl
  case enable =>
    exact fun _ _ _ hmode hoff hfree hisland => congrArg done (fxTwCtrl_of_enable hmode hoff hfree hisland)
  case disableWaits =>
    intro n v s q hmode hon hcur
    exact congrArg done ((fxTwCtrl_of_disable hmode hon).trans (if_pos (by rw [hcur]; rfl)))
  case enableWaits => exact fun _ _ _ hmode hrel => congrArg done (fxTwCtrl_of_waiting hmode hrel)
  case disable =>
    intro n v s hmode hon hcur
    exact congrArg done ((fxTwCtrl_of_disable hmode hon).trans (if_neg (by simp [hcur])))

end Sys2Proof.Machine

end TwoWireCommands

/-! The commands of cores, firmware, refused accesses and the backstop (14). -/

section CoreAndFirmwareCommands

namespace Sys2Proof.Machine

section
variable {k : Nat} {s : State}

/-! Cores (R425, R427, R429, R441) -/

theorem coreAlive_of_up (haon : aonRuns s = true) (hup : coreUp k s = true) : coreAlive k s = true := by
  rw [coreAlive, haon, hup]
  rfl

/-- A core with its image, the security core apart, restarts from it. -/
theorem fxRestart_of_image (hk : k ≠ 0) (himage : (coreSt s k).image ≠ []) :
    fxRestart k s = activationStep k (coreRuns k s) := by
  have hkept : reloadCore k s = s := if_neg (by simp [hk, himage])
  have hruns : ¬ (coreSt s k).image.isEmpty = true := by simpa using himage
  rw [fxRestart, hkept]
  exact if_neg hruns

/-- A core that loads again runs where an image verifies; where none does, an activation goes on without it. -/
theorem fxRestart_of_reload (h : k = 0 ∨ (coreSt s k).image = []) {t : State} (ht : t = loadCore k s) : fxRestart k s =
    if (coreSt t k).image = [] then
      t.aon.acting.elim t (fun a => if a.mask.testBit k then activationGoes { a with mask := a.mask - 2 ^ k } t else t)
    else activationStep k (coreRuns k t) := by
  have hload : reloadCore k s = t := ht ▸ if_pos (by simpa using h)
  rw [fxRestart, hload]
  simp only [List.isEmpty_iff]
  cases t.aon.acting <;> rfl

/-- Ten minutes since the activation without a stop. -/
theorem probationOver_of_quiet {n : Nat} (hat : (coreSt s k).activatedAt = some n) (hover : n + 600000 ≤ now s)
    (hstops : (coreSt s k).probStops = 0) : probationOver k s = true := by
  simp [probationOver, hat, hover, hstops]

end

section
variable {s : State}

/-! Activations and staged images (R438, R440) -/

theorem execDeferredActivationStart_of_pending {a : Activation} (h : s.aon.pendAct = some a) (hclear : emergLatches s = 0)
    (haon : aonRuns s = true) (hup : coreUp 0 s = true) :
    execDeferredActivationStart s = .next (settled (startActivation a s)) := by
  have hfits : (decide (emergLatches s = 0) && coreAlive 0 s) = true := by simp [hclear, coreAlive_of_up haon hup]
  rw [execDeferredActivationStart, h]
  exact done_of_fits hfits rfl

theorem execFwStageComplete_of_staging {c k : Nat} {img : Bytes} (h : stagingFw s.longs = some (c, k, img))
    (haon : aonRuns s = true) (hup : coreUp 0 s = true) :
    execFwStageComplete s = .next (settled (fxFwStaged c k img s)) := by
  rw [execFwStageComplete, h]
  exact done_of_fits (coreAlive_of_up haon hup) rfl

/-! Refused accesses (R453, R454) -/

theorem refuseAccess_eq (m a n : Nat) (w : Bool) (s : State) : refuseAccess m a n w s =
    let t := violate m a n w s
    if m ≤ 10 ∧ isPinned s m = false ∧ isPinned t m then stopCore m Stop.PIN false t else t := by
  simp [refuseAccess, and_assoc]

end

/-- Settles O22: in a state that its event fits, each command is the effect that its rules give. -/
theorem coreAndFirmwareCommandsComplete : Obligations.CoreAndFirmwareCommandsComplete := by
  unfold Obligations.CoreAndFirmwareCommandsComplete
  refine ⟨?watchdog, ?kick, ?exception, ?restart, ?reload, ?probation, ?deferred, ?staged, ?refused, ?backstop, ?release⟩
  case watchdog =>
    intro k s haon hup hlate
    have hdue : watchdogDue k s = true := by simp [watchdogDue, coreAlive_of_up haon hup, coreWdgMs, hlate]
    exact done_of_fits hdue rfl
  case kick => exact fun _ _ haon hup => done_of_fits (coreAlive_of_up haon hup) rfl
  case exception => exact fun _ _ _ haon hup => done_of_fits (coreAlive_of_up haon hup) rfl
  case restart =>
    intro k s haon hmay hk himage
    have hfits : (aonRuns s && mayRestart s k) = true := by rw [haon, hmay]; rfl
    exact done_of_fits hfits (fxRestart_of_image hk himage)
  case reload =>
    intro k s haon hmay h
    have hfits : (aonRuns s && mayRestart s k) = true := by rw [haon, hmay]; rfl
    exact done_of_fits hfits (fxRestart_of_reload h rfl)
  case probation => exact fun _ _ _ hat hover hstops => done_of_fits (probationOver_of_quiet hat hover hstops) rfl
  case deferred => exact fun _ _ h hclear haon hup => execDeferredActivationStart_of_pending h hclear haon hup
  case staged => exact fun _ _ _ _ h haon hup => execFwStageComplete_of_staging h haon hup
  case refused =>
    intro m a n w s hno
    exact congrArg done ((if_neg (ne_true_of_eq_false hno)).trans (refuseAccess_eq m a n w s))
  case backstop =>
    rintro mv s t haon hover rfl
    have hfits : (aonRuns s && decide (s.aon.vcoreEff + 25 < mv)) = true := by simp [haon, hover]
    exact done_of_fits hfits rfl
  case release => exact fun _ => rfl

end Sys2Proof.Machine

end CoreAndFirmwareCommands

/-! The commands of the event recorder and of the configuration store (15). -/

section RecorderAndConfigurationCommands

namespace Sys2Proof.Machine

/-- A choice by a negated flag is the choice by the flag with its branches exchanged. -/
theorem if_not_flag {α : Type} (b : Bool) (x y : α) : (if (!b) = true then x else y) = if b = true then y else x := by
  cases b <;> rfl

section
variable {s : State}

/-! The recorder (R467, R468, R471) -/

theorem execEventRaised_of_fields {c k i : Nat} {d : Bytes} (haon : aonRuns s = true) (hc : c < 256) (hk : k < 65536)
    (hi : i < 65536) : execEventRaised c k i d s = .next (settled (raiseEvent ⟨c, k, i, keepEvent c k, d, none⟩ s)) := by
  refine done_of_fits haon ?_
  rw [Nat.mod_eq_of_lt hc, Nat.mod_eq_of_lt hk, Nat.mod_eq_of_lt hi]
  rfl

theorem execRecordCommit_of_queue {e : Ev} {rest : List Ev} (h : s.rcd.queue = e :: rest) (haon : aonRuns s = true) :
    execRecordCommit s = .next (settled (fxCommit e rest s)) := by
  rw [execRecordCommit, h]
  exact done_of_fits haon rfl

theorem execCoalescerFlush_of_entry {i : Fin 8} {c : Coal} {a : State} (h : s.rcd.coal[i.val]? = some c)
    (haon : aonRuns s = true) (ha : fxFlush c s = a) : execCoalescerFlush i s = .next (settled a) := by
  rw [execCoalescerFlush, h]
  exact done_of_fits haon ha

/-- A quiet second flushes an entry and frees it. -/
theorem fxFlush_of_quiet {c : Coal} (h : c.last + 1000 ≤ now s) : fxFlush c s =
    { s with rcd := { flushEntry c s.rcd with coal := (flushEntry c s.rcd).coal.erase c } } :=
  if_pos h

/-- A flood of 10 s flushes an entry that goes on. -/
theorem fxFlush_of_flood {c : Coal} (hbusy : now s < c.last + 1000) (h : c.flushed + 10000 ≤ now s) : fxFlush c s =
    { s with rcd := { flushEntry c s.rcd with
        coal := (flushEntry c s.rcd).coal.map (fun d => if d = c then { d with flushed := now s } else d) } } :=
  (if_neg (Nat.not_le.mpr hbusy)).trans (if_pos h)

/-! The configuration store (R482, R485, R488, R489) -/

theorem execConfigStageComplete_of_staging {slot mb tag : Nat} {img : Bytes} (h : s.cfg.job = .staging slot img mb tag)
    (haon : aonRuns s = true) (hup : coreUp 0 s = true) :
    execConfigStageComplete s = .next (settled (fxStaged slot img s)) := by
  rw [execConfigStageComplete, h]
  exact done_of_fits (coreAlive_of_up haon hup) rfl

section
variable (haon : aonRuns s = true) (hup : coreUp 0 s = true) (htray : s.chip.tray = .standby) (hclear : emergLatches s = 0)
include haon hup htray hclear

theorem activationMayApply_of_standby : activationMayApply s = true := by
  simp [activationMayApply, coreAlive_of_up haon hup, htray, hclear]

theorem execConfigActivationApply_of_pending {slot mb tag : Nat} {rb : Bool} (h : s.cfg.job = .pending slot rb mb tag) :
    execConfigActivationApply s = .next (settled (fxActivate slot rb s)) := by
  rw [execConfigActivationApply, h]
  exact done_of_fits (activationMayApply_of_standby haon hup htray hclear) rfl

theorem execRollbackApply_of_due (hdue : s.cfg.rollbackDue = true) (hfree : s.cfg.job = .none) :
    execRollbackApply s = .next (settled (fxRollback s)) := by
  have hfits : (s.cfg.rollbackDue && activationMayApply s && decide (s.cfg.job = .none)) = true := by
    simp [hdue, activationMayApply_of_standby haon hup htray hclear, hfree]
  exact done_of_fits hfits rfl

end

/-- An image that verifies is applied, and one that does not leaves its slot FAILED. -/
theorem fxActivate_eq (slot : Nat) (rb : Bool) (s : State) : fxActivate slot rb s =
    let img := cfgImage s slot
    let t := { s with cfg.job := .none }
    if ownerImageOk s img then
      finishLong .configActivate St.DONE (leBytes 4 (imageGen img))
        (let u := applyOwner img (applySections img (movePointer slot rb t))
         if rb then raise 12 4 noInst (leBytes 4 (activeGen s) ++ leBytes 4 (imageGen img)) u
         else raise 12 2 noInst (leBytes 4 (imageGen img) ++ leBytes 1 0) u)
    else finishLong .configActivate St.FAULT (detail noDetail 1) (setSlotState slot 4 t) := by
  unfold fxActivate
  dsimp only
  rw [if_not_flag]

/-- A due rollback takes the PREVIOUS slot where its image verifies, and the factory image otherwise. -/
theorem fxRollback_of_previous {t : State} {i : Nat} (ht : t = if s.cfg.active < 2 then setSlotState s.cfg.active 4 s else s)
    (hi : previousSlot t = some i) : fxRollback s =
      let u := { t with cfg.fails := 0, cfg.rollbackDue := false, cfg.probation := false, cfg.attempt := false, cfg.fallback := false }
      let f := if factoryImageOk u.cfg.factory0 then u.cfg.factory0 else u.cfg.factory1
      if ownerImageOk u (cfgImage u i) then
        raise 12 5 noInst (leBytes 4 (activeGen s) ++ leBytes 4 (imageGen (cfgImage u i)))
          (applyOwner (cfgImage u i) (applySections (cfgImage u i) (setSlotState i 2 { u with cfg.active := i })))
      else raise 12 5 noInst (leBytes 4 (activeGen s) ++ leBytes 4 (imageGen f)) (applySections f { u with cfg.active := 2 }) := by
  unfold fxRollback
  dsimp only
  rw [← ht]
  have hprev : previousSlot { t with
      cfg.fails := 0, cfg.rollbackDue := false, cfg.probation := false, cfg.attempt := false, cfg.fallback := false } = some i := hi
  rw [hprev]
  dsimp only
  split_ifs <;> rfl

end

/-- Settles O23: in a state that its event fits, each command is the effect that its rules give. -/
theorem recorderAndConfigurationCommandsComplete : Obligations.RecorderAndConfigurationCommandsComplete := by
  unfold Obligations.RecorderAndConfigurationCommandsComplete
  refine ⟨?raised, ?commit, ?quiet, ?flood, ?staged, ?rollbackOrder, ?activation, ?rollback⟩
  case raised => exact fun _ _ _ _ _ haon hc hk hi => execEventRaised_of_fields haon hc hk hi
  case commit =>
    rintro s e rest x t hqueue haon rfl rfl
    exact execRecordCommit_of_queue hqueue haon
  case quiet => exact fun _ _ _ hc haon hlate => execCoalescerFlush_of_entry hc haon (fxFlush_of_quiet hlate)
  case flood => exact fun _ _ _ hc haon hbusy hlate => execCoalescerFlush_of_entry hc haon (fxFlush_of_flood hbusy hlate)
  case staged =>
    rintro s slot img mb tag t hjob haon hup rfl
    exact execConfigStageComplete_of_staging hjob haon hup
  case rollbackOrder =>
    intro s slot mb tag hjob haon hup htray hclear
    refine (execConfigActivationApply_of_pending haon hup htray hclear hjob).trans ?_
    rw [fxActivate_eq]
    rfl
  case activation =>
    intro s slot mb tag hjob haon hup htray hclear
    refine (execConfigActivationApply_of_pending haon hup htray hclear hjob).trans ?_
    rw [fxActivate_eq]
    rfl
  case rollback =>
    intro s t i hdue haon hup htray hclear hfree ht hi
    exact (execRollbackApply_of_due haon hup htray hclear hdue hfree).trans
      (congrArg done (fxRollback_of_previous ht hi))

end Sys2Proof.Machine

end RecorderAndConfigurationCommands

/-! Event, configuration, firmware and security orders (R275, 0x0801 to 0x0908). -/

section EventFirmwareAndSecurityOrders

namespace Sys2Proof.Machine

section
variable {n : Nat} {p image : Bytes} {s u : State} {img : Bytes}

/-! Events (R472) -/

theorem fxEventRead_of_area (harea : leAt p 0 1 ≤ 1) (hmost : 512 ≤ leAt p 8 4) : fxEventRead n p s = replyDone n (takeRecords
    (((areaRecords s (leAt p 0 1)).filter (fun r => decide (leAt p 4 4 ≤ r.seq))).map recCopy)
    (min (leAt p 8 4) (mostRecords n))) s := by
  simp only [fxEventRead, if_neg (Nat.not_lt.mpr harea), if_neg (Nat.not_lt.mpr hmost)]

/-! The configuration store (R482 to R489) -/

/-- With no job under way and no generation on probation, an image that passes the checks of R482 goes into its slot. -/
theorem stageChecked_of_free (len : Nat) (hfree : cfgBusy s = false) (hproven : s.cfg.probation = false) :
    stageChecked n len img s = if (cfgStatus s len img).1 = St.DONE then beginStage n img s
      else replyFail n (cfgStatus s len img).1 (cfgStatus s len img).2.1 (cfgStatus s len img).2.2 s := by
  simp [stageChecked, hfree, hproven]

theorem fxConfigStage_of_fetched (hfw : fwAdmits s (orderMaster s n) (leAt p 0 8) (leAt p 8 4) false = true)
    (hlen : leAt p 8 4 ≤ 33554432) (hplace : placeOf s (leAt p 0 8) (leAt p 8 4) ≠ .none)
    (hfetch : fetchImage (leAt p 0 8) (leAt p 8 4) image s = (u, some img)) :
    fxConfigStage n image p s = stageChecked n (leAt p 8 4) img u := by
  simp only [fxConfigStage, if_not_flag, hfw, if_true, if_neg (Nat.not_lt.mpr hlen), if_neg hplace, hfetch]

section
variable {k : Nat} (htray : s.chip.tray = .standby) (hfree : cfgBusy s = false)
include htray hfree

/-- In STANDBY a staged generation is activated, or waits for the emergency latches. -/
theorem fxConfigActivate_of_staged (hstaged : stagedSlot s (leAt p 0 4) = some k) (hproven : s.cfg.probation = false) :
    fxConfigActivate n p s = if emergLatches s = 0 then
      acceptLong .configActivate n { s with cfg.job := .pending k false n (orderTag (mbox s n).req) } else deferCfg n k false s := by
  have hready : ¬ (decide (s.chip.tray ≠ .standby) || s.cfg.probation || cfgBusy s) = true := by simp [htray, hfree, hproven]
  simp only [fxConfigActivate, hstaged, if_neg hready, ite_not]

/-- In STANDBY the PREVIOUS slot is activated at once, or waits for the emergency latches. -/
theorem fxRollbackOrder_of_previous (hprev : previousSlot s = some k) : fxRollbackOrder n p s =
    if emergLatches s = 0 then
      if ownerImageOk s (cfgImage s k) then replyDone n (leBytes 4 (imageGen (cfgImage s k))) (fxActivate k true s)
      else replyFail n St.FAULT noDetail 1 (fxActivate k true s)
    else deferCfg n k true s := by
  have hready : ¬ (decide (s.chip.tray ≠ .standby) || cfgBusy s) = true := by simp [htray, hfree]
  simp only [fxRollbackOrder, hprev, if_neg hready, ite_not, if_not_flag]

end

/-! Attestation and keys (R446, R448) -/

theorem fxAttest_of_operational (h : secOperational s = true) :
    fxAttest n p s = replyDone n (attestBody s p ++ signWith s 1 (attestBody s p)) (countSign s) := by
  simp [fxAttest, h]

theorem fxKeyQuery_of_operational (hkey : leAt p 0 1 ≤ 2) (h : secOperational s = true) :
    fxKeyQuery n p s = replyDone n (fix 32 (keyPublic s (leAt p 0 1)) ++ keyCert s (leAt p 0 1)) s := by
  simp [fxKeyQuery, Nat.not_lt.mpr hkey, h]

/-! Firmware (R438, R439, R440) -/

/-- An image of the class of the cores that the mask names, for a slot from which none of that class runs. -/
theorem fwStageChecked_of_class {mask slot : Nat} (hmask : mask < 2048)
    (hclass : (maskCores mask).any (fun k => coreClass k != leAt img 5 1) = false)
    (hidle : slotRuns s (leAt img 5 1) slot = false) : fwStageChecked n mask slot img s =
      if fwVerifies s (leAt img 5 1) img then acceptLong (.fwStage (leAt img 5 1) slot (fwWhole img)) n s
      else replyFail n St.BAD_PARAM (fieldOff s n 4) 2 s := by
  have hcores : ¬ (decide (2048 ≤ mask) || (maskCores mask).any (fun k => coreClass k != leAt img 5 1)) = true := by
    rw [hclass]
    simpa using hmask
  simp only [fwStageChecked, if_neg hcores, if_not_flag, if_neg (ne_true_of_eq_false hidle)]

theorem fxFwStage_of_fetched (hfw : fwAdmits s (orderMaster s n) (leAt p 4 8) (leAt p 12 4) false = true)
    (hslot : leAt p 2 1 ≤ 1) (hlen : leAt p 12 4 ≤ 16777216) (hplace : placeOf s (leAt p 4 8) (leAt p 12 4) ≠ .none)
    (hfetch : fetchImage (leAt p 4 8) (leAt p 12 4) image s = (u, some img)) :
    fxFwStage n image p s = fwStageChecked n (leAt p 0 2) (leAt p 2 1) img u := by
  simp only [fxFwStage, if_not_flag, hfw, if_true, if_neg (Nat.not_lt.mpr hslot), if_neg (Nat.not_lt.mpr hlen),
    if_neg hplace, hfetch]

/-- With no activation pending or under way, one of verified images starts, or waits for the emergency latches. -/
theorem fxFwActivate_of_verified (hmask : leAt p 0 2 < 2048) (hslot : leAt p 2 1 ≤ 1)
    (hok : slotVerifies s (leAt p 0 2) (leAt p 2 1) = true) (hpend : s.aon.pendAct = none) (hact : s.aon.acting = none) :
    fxFwActivate n p s = if emergLatches s = 0 then
        startActivation ⟨leAt p 2 1, leAt p 0 2, n, orderTag (mbox s n).req⟩ (acceptLong .fwActivate n s)
      else replyFail n St.DEFERRED noDetail 0
        { s with aon.pendAct := some ⟨leAt p 2 1, leAt p 0 2, n, orderTag (mbox s n).req⟩
                 longs := s.longs ++ [⟨.fwActivate, n, orderTag (mbox s n).req, false⟩] } := by
  have hfree : ¬ (s.aon.pendAct.isSome || s.aon.acting.isSome) = true := by simp [hpend, hact]
  simp only [fxFwActivate, if_neg (Nat.not_le.mpr hmask), if_neg (Nat.not_lt.mpr hslot), if_not_flag, hok, if_true,
    if_neg hfree, ite_not]

theorem fxCoreRestart_of_core (h : leAt p 0 1 ≤ 10) :
    fxCoreRestart n p s = restartCore (leAt p 0 1) (replyDone n [] s) :=
  if_neg (Nat.not_lt.mpr h)

theorem fxUnpin_of_pinned (h : isPinned s (leAt p 0 2) = true) : fxUnpin n p s =
    replyDone n [] { s with sec.pinned := s.sec.pinned &&& ~~~(1#37 <<< leAt p 0 2) } := by
  simp [fxUnpin, h]

/-! Starch limits and the debug port (R442, R456) -/

/-- Three limits within their ranges have no field that is out of its own. -/
theorem starchBadField_of_range {v i t : Nat} (h : starchRange v i t = true) : starchBadField v i t = none := by
  obtain ⟨⟨hv, hi⟩, ht⟩ : ((_ ∧ _) ∧ _) := by simpa only [starchRange, Bool.and_eq_true] using h
  simp [starchBadField, starchRange, hv, hi, ht]

theorem starchLoosens_of_le {v i t : Nat} (hv : v ≤ s.aon.vcoreEff) (hi : i ≤ s.aon.iclkEff) (ht : t ≤ s.aon.tjEff) :
    starchLoosens s v i t = none := by
  simp only [starchLoosens, if_neg (Nat.not_lt.mpr hv), if_neg (Nat.not_lt.mpr hi), if_neg (Nat.not_lt.mpr ht)]

theorem fxStarchTighten_of_tighter (hrange : starchRange (leAt p 0 2) (leAt p 2 2) (leAt p 4 1) = true)
    (hv : leAt p 0 2 ≤ s.aon.vcoreEff) (hi : leAt p 2 2 ≤ s.aon.iclkEff) (ht : leAt p 4 1 ≤ s.aon.tjEff) :
    fxStarchTighten n p s = replyDone n [] (tighten (leAt p 0 2) (leAt p 2 2) (leAt p 4 1) s) := by
  simp only [fxStarchTighten, starchBadField_of_range hrange, starchLoosens_of_le hv hi ht]

/-- In STANDBY the debug port opens where the response verifies; a wrong response is recorded. -/
theorem fxDebugUnlock_of_standby (h : s.chip.tray = .standby) : fxDebugUnlock n p s =
    if Config.edVerify Config.debugKey (s.sec.challenge ++ fix 16 Config.serialNumber) (fix 64 p) then
      replyDone n [] (unlock s)
    else replyFail n St.DENIED_AUTH (fieldOff s n 0) 0 (raise 8 1 noInst (fix 32 ((mbox s n).req.take 32)) s) := by
  simp only [fxDebugUnlock, if_neg (not_not.mpr h), if_not_flag]

end

/-- Settles O14: a taken order that its own rule admits is the effect of that rule, with its reply. -/
theorem eventFirmwareAndSecurityOrdersComplete : Obligations.EventFirmwareAndSecurityOrdersComplete := by
  unfold Obligations.EventFirmwareAndSecurityOrdersComplete
  rintro n s t p rfl rfl
  refine ⟨?eventRead, ?eventClear, ?stage, ?activate, ?activateDeferred, ?rollback, ?rollbackDeferred, ?configQuery, ?attest,
    ?keyQuery, ?fwStage, ?fwActivate, ?fwDeferred, ?coreRestart, ?unpin, ?tighten, ?unlock⟩
  case eventRead => exact fun h harea hmost => done_onOrder_of_taken h (fxEventRead_of_area harea hmost)
  case eventClear => exact fun h => done_onOrder_of_taken h rfl
  case stage =>
    exact fun _ _ _ h hfw hlen hplace hfetch hfree hproven =>
      done_onOrder_of_taken h ((fxConfigStage_of_fetched hfw hlen hplace hfetch).trans
        (stageChecked_of_free _ hfree hproven))
  case activate =>
    exact fun _ h hstaged htray hproven hfree hclear =>
      done_onOrder_of_taken h ((fxConfigActivate_of_staged htray hfree hstaged hproven).trans (if_pos hclear))
  case activateDeferred =>
    exact fun _ h hstaged htray hproven hfree hset =>
      done_onOrder_of_taken h ((fxConfigActivate_of_staged htray hfree hstaged hproven).trans (if_neg hset))
  case rollback =>
    exact fun _ h hprev htray hfree hclear =>
      done_onOrder_of_taken h ((fxRollbackOrder_of_previous htray hfree hprev).trans (if_pos hclear))
  case rollbackDeferred =>
    exact fun _ h hprev htray hfree hset =>
      done_onOrder_of_taken h ((fxRollbackOrder_of_previous htray hfree hprev).trans (if_neg hset))
  case configQuery => exact fun h => done_onOrder_of_taken h rfl
  case attest => exact fun h hop => done_onOrder_of_taken h (fxAttest_of_operational hop)
  case keyQuery => exact fun h hkey hop => done_onOrder_of_taken h (fxKeyQuery_of_operational hkey hop)
  case fwStage =>
    exact fun _ _ _ h hfw hslot hlen hplace hfetch hmask hclass hidle =>
      done_onOrder_of_taken h ((fxFwStage_of_fetched hfw hslot hlen hplace hfetch).trans
        (fwStageChecked_of_class hmask hclass hidle))
  case fwActivate =>
    exact fun h hmask hslot hok hpend hact hclear =>
      done_onOrder_of_taken h ((fxFwActivate_of_verified hmask hslot hok hpend hact).trans (if_pos hclear))
  case fwDeferred =>
    exact fun h hmask hslot hok hpend hact hset =>
      done_onOrder_of_taken h ((fxFwActivate_of_verified hmask hslot hok hpend hact).trans (if_neg hset))
  case coreRestart => exact fun h hcore => done_onOrder_of_taken h (fxCoreRestart_of_core hcore)
  case unpin => exact fun h hpin => done_onOrder_of_taken h (fxUnpin_of_pinned hpin)
  case tighten =>
    exact fun h hrange hv hi ht => done_onOrder_of_taken h (fxStarchTighten_of_tighter hrange hv hi ht)
  case unlock => exact fun h htray => done_onOrder_of_taken h (fxDebugUnlock_of_standby htray)

end Sys2Proof.Machine

end EventFirmwareAndSecurityOrders

/-! The bounds of the event queue, and of the recorder's memory (15). -/

section QueueAndRecorderBounds

namespace Sys2Proof.Machine

/-! What a flush leaves: the coalescer's entries, and how much of the recorder is in use (R471) -/

/-- How much of the recorder stands in use, apart from the coalescer: events waiting, Keep records, the page being
written with the first one in use, and the bytes used of it. -/
def extent (r : Recorder) : Nat × Nat × Nat × Nat × Nat :=
  (r.queue.length, r.keep.length, r.page, r.firstPage, r.used)

theorem extent_eq_iff {r r' : Recorder} : extent r = extent r' ↔ r.queue.length = r'.queue.length ∧
    r.keep.length = r'.keep.length ∧ r.page = r'.page ∧ r.firstPage = r'.firstPage ∧ r.used = r'.used := by
  simp [extent]

@[simp] theorem extent_setCoal (r : Recorder) (cs : List Coal) : extent { r with coal := cs } = extent r := rfl

@[simp] theorem flushQueued_length (c : Coal) (n : Nat) (es : List Ev) : (flushQueued c n es).length = es.length := by
  induction es with
  | nil => rfl
  | cons e t ih =>
    unfold flushQueued
    split
    · rfl
    · exact congrArg Nat.succ ih

@[simp] theorem flushEntry_extent (c : Coal) (r : Recorder) : extent (flushEntry c r) = extent r := by
  unfold flushEntry
  split <;> simp [extent, flushInto]

@[simp] theorem flushEntry_coal (c : Coal) (r : Recorder) : (flushEntry c r).coal = r.coal := by
  unfold flushEntry
  split <;> rfl

theorem flushEach_extent (cs : List Coal) (r : Recorder) :
    extent (cs.foldl (fun a c => flushEntry c a) r) = extent r := by
  induction cs generalizing r with
  | nil => rfl
  | cons c t ih => exact (ih (flushEntry c r)).trans (flushEntry_extent c r)

theorem flushEach_coal (cs : List Coal) (r : Recorder) : (cs.foldl (fun a c => flushEntry c a) r).coal = r.coal := by
  induction cs generalizing r with
  | nil => rfl
  | cons c t ih => exact (ih (flushEntry c r)).trans (flushEntry_coal c r)

/-! The entry used longest ago, and the place made for a new one (R470) -/

theorem oldestCoal_cons_cons (b c : Coal) (cs : List Coal) :
    oldestCoal (b :: c :: cs) = oldestCoal ((if c.last < b.last then c else b) :: cs) := by
  unfold oldestCoal
  simp only [List.foldl_cons]
  split <;> rfl

theorem oldestCoal_mem (b : Coal) (cs : List Coal) : ∃ c ∈ b :: cs, oldestCoal (b :: cs) = some c := by
  induction cs generalizing b with
  | nil => exact ⟨b, List.mem_cons_self, rfl⟩
  | cons x t ih =>
    rw [oldestCoal_cons_cons]
    obtain ⟨c, hc, hold⟩ := ih (if x.last < b.last then x else b)
    refine ⟨c, ?_, hold⟩
    split at hc
    · exact List.mem_cons_of_mem b hc
    · rcases List.mem_cons.mp hc with rfl | hrest
      · exact List.mem_cons_self
      · exact List.mem_cons_of_mem b (List.mem_cons_of_mem x hrest)

theorem takeEntry_extent (e : Ev) (t : Nat) (r : Recorder) : extent (takeEntry e t r) = extent r := by
  have hsame := flushEach_extent (r.coal.filter (fun c => c.keyOf e)) r
  unfold takeEntry
  dsimp only
  rw [extent_setCoal]
  split
  · exact hsame
  split
  · exact hsame
  · exact (flushEntry_extent _ _).trans hsame

theorem takeEntry_coal_le {e : Ev} {t : Nat} {r : Recorder} (h : r.coal.length ≤ 8) :
    (takeEntry e t r).coal.length ≤ 8 := by
  have hfilter : (r.coal.filter (fun c => !c.keyOf e)).length ≤ 8 := (List.length_filter_le _ _).trans h
  unfold takeEntry
  dsimp only
  rw [flushEach_coal, List.length_append, List.length_singleton]
  split
  case isTrue hfree => exact hfree
  case isFalse hfull =>
    obtain ⟨b, cs, hlist⟩ := List.exists_cons_of_length_pos (Nat.lt_of_lt_of_le (by decide) (Nat.not_lt.mp hfull))
    obtain ⟨c, hc, hold⟩ := oldestCoal_mem b cs
    rw [← hlist] at hc hold
    rw [hold]
    dsimp only
    rw [List.length_erase_of_mem hc]
    omega

/-! An event that is queued or lost (R468) -/

theorem enqueueEvent_of_room {e : Ev} {s : State} (h : s.rcd.queue.length < (if e.keep then 64 else 48)) :
    enqueueEvent e s = { s with rcd.queue := s.rcd.queue ++ [e] } := by
  rw [enqueueEvent, eventRoom, if_pos (decide_eq_true h)]

theorem enqueueEvent_of_no_room {e : Ev} {s : State} (h : (if e.keep then 64 else 48) ≤ s.rcd.queue.length) :
    enqueueEvent e s = bump R.CNT_LOST { s with rcd.lost := s.rcd.lost + 1 } := by
  have hroom : ¬ s.rcd.queue.length < (if e.keep then 64 else 48) := Nat.not_lt.mpr h
  rw [enqueueEvent, eventRoom, decide_eq_false hroom]
  rfl

theorem lt_64_of_room {e : Ev} {n : Nat} (h : n < (if e.keep then 64 else 48)) : n < 64 := by
  split at h <;> omega

/-- The recorder after an event that is queued or lost: the queue, at most 64 long if it was, or the count of the lost. -/
theorem enqueueEvent_rcd (e : Ev) (s : State) : ∃ q n, (enqueueEvent e s).rcd = { s.rcd with queue := q, lost := n } ∧
    (s.rcd.queue.length ≤ 64 → q.length ≤ 64) := by
  rcases Nat.lt_or_ge s.rcd.queue.length (if e.keep then 64 else 48) with hroom | hfull
  · refine ⟨s.rcd.queue ++ [e], s.rcd.lost, ?_, fun _ => ?_⟩
    · rw [enqueueEvent_of_room hroom]
    · rw [List.length_append]
      exact lt_64_of_room hroom
  · refine ⟨s.rcd.queue, s.rcd.lost + 1, ?_, id⟩
    rw [enqueueEvent_of_no_room hfull, bump_rcd]

/-- An event is coalesced, or it is queued or lost by a recorder that may have given it an entry (R468, R470). -/
theorem raiseEvent_cases (e : Ev) (s : State) :
    (∃ f, (raiseEvent e s).rcd = { s.rcd with coal := s.rcd.coal.map f }) ∨
    ∃ t r, (r = s.rcd ∨ r = takeEntry e t s.rcd) ∧ raiseEvent e s = enqueueEvent e { s with rcd := r } := by
  unfold raiseEvent
  split
  · exact .inl ⟨_, bump_rcd _ _⟩
  split
  · split
    · exact .inr ⟨now s, _, .inr rfl, rfl⟩
    · exact .inr ⟨0, s.rcd, .inl rfl, rfl⟩
  · exact .inr ⟨0, s.rcd, .inl rfl, rfl⟩

theorem raiseEvent_queue_le {e : Ev} {s : State} (h : s.rcd.queue.length ≤ 64) :
    (raiseEvent e s).rcd.queue.length ≤ 64 := by
  obtain ⟨f, hmap⟩ | ⟨t, r, hr, hraise⟩ := raiseEvent_cases e s
  · rw [hmap]
    exact h
  · obtain ⟨q, n, hrcd, hq⟩ := enqueueEvent_rcd e { s with rcd := r }
    rw [hraise, hrcd]
    refine hq ?_
    rcases hr with rfl | rfl
    · exact h
    · exact (extent_eq_iff.mp (takeEntry_extent e t s.rcd)).1.trans_le h

/-! The writing of a record (R465 to R468) -/

theorem lostRecord_of_room {s : State} (hlost : 0 < s.rcd.lost) (h : s.rcd.queue.length < 48) : lostRecord s =
    { s with rcd.lost := 0, rcd.queue := s.rcd.queue ++ [⟨13, 2, 0xFFFF, false, leBytes 4 s.rcd.lost, none⟩] } := by
  unfold lostRecord
  dsimp only
  rw [if_neg (Nat.ne_of_gt hlost)]
  exact if_pos (decide_eq_true h)

theorem lostRecord_of_no_room {s : State} (h : 48 ≤ s.rcd.queue.length) : lostRecord s = s := by
  have hroom : ¬ eventRoom ⟨13, 2, noInst, false, leBytes 4 s.rcd.lost, none⟩ s = true := by
    rw [eventRoom, decide_eq_true_iff]
    exact Nat.not_lt.mpr h
  unfold lostRecord
  dsimp only
  rw [if_neg hroom, ite_self]

theorem lostRecord_of_none_lost {s : State} (h : s.rcd.lost = 0) : lostRecord s = s := if_pos h

/-- The recorder after the LOST record: the queue, at most 64 long if it was, and the count of the lost. -/
theorem lostRecord_rcd (s : State) : ∃ q n, (lostRecord s).rcd = { s.rcd with queue := q, lost := n } ∧
    (s.rcd.queue.length ≤ 64 → q.length ≤ 64) := by
  rcases Nat.eq_zero_or_pos s.rcd.lost with hnone | hlost
  · exact ⟨s.rcd.queue, s.rcd.lost, by rw [lostRecord_of_none_lost hnone], id⟩
  rcases Nat.lt_or_ge s.rcd.queue.length 48 with hroom | hfull
  · refine ⟨_, 0, by rw [lostRecord_of_room hlost hroom], fun _ => ?_⟩
    rw [List.length_append, List.length_singleton]
    omega
  · exact ⟨s.rcd.queue, s.rcd.lost, by rw [lostRecord_of_no_room hfull], id⟩

theorem recLength_le (e : Ev) : recLength e ≤ 512 := by
  have hcut : (e.data.take 476).length ≤ 476 := List.length_take_le 476 e.data
  have hlen : recLength e = 36 + ((e.data.take 476).length + 3) / 4 * 4 :=
    congrArg (36 + ·) (fix_length _ _)
  omega

theorem nextPage_queue_length (r : Recorder) : (nextPage r).queue.length = r.queue.length := by
  unfold nextPage
  split
  · rfl
  · exact (extent_eq_iff.mp (flushEach_extent _ r)).1

theorem commitRecord_queue_length (x : EvRec) (r : Recorder) : (commitRecord x r).queue.length = r.queue.length := by
  unfold commitRecord
  dsimp only
  split
  · exact nextPage_queue_length r
  · rfl

/-- A commit's note of the newest SEQ touches the coalescer's entries alone, and leaves as many of them. -/
theorem noteSeq_eq (e : Ev) (q : Nat) (rest : List Ev) (r : Recorder) :
    ∃ cs : List Coal, cs.length = r.coal.length ∧ noteSeq e q rest r = { r with coal := cs } := by
  unfold noteSeq
  split
  · exact ⟨r.coal, rfl, rfl⟩
  · exact ⟨_, List.length_map _, rfl⟩

/-- The record that the event at the head of the queue becomes (R465). -/
def headRecord (e : Ev) (s : State) : EvRec where
  ev := { e with rep := none }
  optime := now s
  cycles := s.aon.powerCycles
  seq := s.rcd.seq
  rep := e.rep

/-- The recorder with the record of the head of the queue written. -/
def committed (e : Ev) (rest : List Ev) (s : State) : Recorder :=
  commitRecord (headRecord e s) { s.rcd with queue := rest }

theorem fxCommit_of_keep {e : Ev} (rest : List Ev) (s : State) (hkeep : e.keep = true) : fxCommit e rest s =
    lostRecord (notice 5 0 0 s.rcd.seq { s with rcd := noteSeq e s.rcd.seq rest (committed e rest s) }) := by
  unfold fxCommit
  dsimp only
  rw [if_pos hkeep]
  rfl

theorem fxCommit_of_not_keep {e : Ev} (rest : List Ev) (s : State) (hkeep : ¬ e.keep = true) : fxCommit e rest s =
    lostRecord { s with rcd := noteSeq e s.rcd.seq rest (committed e rest s) } := by
  unfold fxCommit
  dsimp only
  rw [if_neg hkeep]
  rfl

/-- The recorder after a commit: the record at the head is written, an entry may note its SEQ, and a LOST record may
join the queue. -/
theorem fxCommit_rcd (e : Ev) (rest : List Ev) (s : State) : ∃ cs q n,
    (fxCommit e rest s).rcd = { committed e rest s with coal := cs, queue := q, lost := n } ∧
    cs.length = (committed e rest s).coal.length ∧ (rest.length ≤ 64 → q.length ≤ 64) := by
  obtain ⟨cs, hcs, hnote⟩ := noteSeq_eq e s.rcd.seq rest (committed e rest s)
  have hsettle (u : State) (hu : u.rcd = { committed e rest s with coal := cs }) : ∃ cs q n,
      (lostRecord u).rcd = { committed e rest s with coal := cs, queue := q, lost := n } ∧
      cs.length = (committed e rest s).coal.length ∧ (rest.length ≤ 64 → q.length ≤ 64) := by
    obtain ⟨q, n, hrcd, hq⟩ := lostRecord_rcd u
    rw [hu] at hrcd hq
    exact ⟨cs, q, n, hrcd, hcs, fun h => hq ((commitRecord_queue_length (headRecord e s) _).trans_le h)⟩
  by_cases hkeep : e.keep = true
  · rw [fxCommit_of_keep rest s hkeep, hnote]
    obtain ⟨su, hnotice⟩ := notice_frame 5 0 0 s.rcd.seq { s with rcd := { committed e rest s with coal := cs } }
    exact hsettle _ (by rw [hnotice])
  · rw [fxCommit_of_not_keep rest s hkeep, hnote]
    exact hsettle _ rfl

theorem fxCommit_queue_le {e : Ev} {rest : List Ev} {s : State} (h : rest.length ≤ 64) :
    (fxCommit e rest s).rcd.queue.length ≤ 64 := by
  obtain ⟨cs, q, n, hrcd, -, hq⟩ := fxCommit_rcd e rest s
  rw [hrcd]
  exact hq h

/-- Settles O41: an event is appended where there is room and counted where not, and the other parts of raising and
committing leave the queue as long as it was. -/
theorem eventQueueHolds : Obligations.EventQueueHolds := by
  unfold Obligations.EventQueueHolds
  refine ⟨fun e s => enqueueEvent_of_room, fun e s => enqueueEvent_of_no_room, fun e s => raiseEvent_queue_le,
    fun e rest s hqueue h => fxCommit_queue_le ?_, fun s => lostRecord_of_room, fun s _ => lostRecord_of_no_room⟩
  rw [hqueue, List.length_cons] at h
  omega

/-! The recorder's memory (R463, R465, R466, R470) -/

/-- A recorder that uses no more than its memory. -/
def withinMemory (r : Recorder) : Prop :=
  r.page < r.firstPage + 3072 ∧ r.used ≤ 4096 ∧ r.keep.length ≤ 4096 ∧ r.coal.length ≤ 8

theorem coal_le_of_withinMemory {r : Recorder} (h : withinMemory r) : r.coal.length ≤ 8 := by
  obtain ⟨-, -, -, hcoal⟩ := h
  exact hcoal

/-- The bounds speak of the recorder's extent and of the number of its coalescer entries alone. -/
theorem withinMemory_of_extent {r r' : Recorder} (h : withinMemory r) (hext : extent r' = extent r)
    (hcoal : r'.coal.length ≤ 8) : withinMemory r' := by
  obtain ⟨-, hkeep, hpage, hfirst, hused⟩ := extent_eq_iff.mp hext
  obtain ⟨hpages, hbytes, hkept, -⟩ := h
  exact ⟨by omega, by omega, by omega, hcoal⟩

theorem withinMemory_takeEntry {e : Ev} {t : Nat} {r : Recorder} (h : withinMemory r) :
    withinMemory (takeEntry e t r) :=
  withinMemory_of_extent h (takeEntry_extent e t r) (takeEntry_coal_le (coal_le_of_withinMemory h))

theorem withinMemory_raiseEvent {e : Ev} {s : State} (h : withinMemory s.rcd) : withinMemory (raiseEvent e s).rcd := by
  obtain ⟨f, hmap⟩ | ⟨t, r, hr, hraise⟩ := raiseEvent_cases e s
  · rw [hmap]
    exact withinMemory_of_extent h (extent_setCoal _ _) ((List.length_map f).trans_le (coal_le_of_withinMemory h))
  · obtain ⟨q, n, hrcd, -⟩ := enqueueEvent_rcd e { s with rcd := r }
    rw [hraise, hrcd]
    rcases hr with rfl | rfl
    · exact h
    · exact withinMemory_takeEntry h

/-- A new page begins empty, and the oldest one makes place for it where all are in use. -/
theorem withinMemory_nextPage {r : Recorder} (h : withinMemory r) : withinMemory (nextPage r) ∧ (nextPage r).used = 0 := by
  obtain ⟨hpages, hbytes, hkept, hcoal⟩ := h
  unfold nextPage
  split
  case isTrue hfree => exact ⟨⟨hfree, Nat.zero_le _, hkept, hcoal⟩, rfl⟩
  case isFalse =>
    dsimp only
    rw [flushEach_coal]
    have hext := flushEach_extent (r.coal.filter (fun c =>
      ((r.tumble.filter (fun x => x.page == r.firstPage)).map (fun x => x.seq)).contains c.seq)) r
    refine ⟨⟨?_, Nat.zero_le _, ?_, (List.length_filter_le _ _).trans hcoal⟩, rfl⟩
    · dsimp only
      omega
    · exact (extent_eq_iff.mp hext).2.1.trans_le hkept

/-- A record is at most 512 bytes, so that it fits the page being written or a new one. -/
theorem withinMemory_commitRecord {x : EvRec} {r : Recorder} (h : withinMemory r) : withinMemory (commitRecord x r) := by
  have hlen := recLength_le x.ev
  have hroom : withinMemory (if 4096 < r.used + recLength x.ev then nextPage r else r) ∧
      (if 4096 < r.used + recLength x.ev then nextPage r else r).used + recLength x.ev ≤ 4096 := by
    split
    · obtain ⟨hnext, hempty⟩ := withinMemory_nextPage h
      exact ⟨hnext, by omega⟩
    · exact ⟨h, by omega⟩
  unfold commitRecord
  dsimp only
  generalize (if 4096 < r.used + recLength x.ev then nextPage r else r) = r1 at hroom ⊢
  obtain ⟨⟨hpages, -, hkept, hcoal⟩, hfits⟩ := hroom
  refine ⟨hpages, hfits, ?_, hcoal⟩
  dsimp only
  split
  case isTrue hkeep =>
    have hless : r1.keep.length < 4096 := of_decide_eq_true (Bool.and_eq_true_iff.mp hkeep).2
    rw [List.length_append]
    exact hless
  case isFalse => exact hkept

theorem withinMemory_fxCommit {e : Ev} {rest : List Ev} {s : State} (h : withinMemory s.rcd) :
    withinMemory (fxCommit e rest s).rcd := by
  obtain ⟨cs, q, n, hrcd, hcs, -⟩ := fxCommit_rcd e rest s
  have hqueue : withinMemory { s.rcd with queue := rest } := h
  obtain ⟨hpages, hbytes, hkept, hcoal⟩ := withinMemory_commitRecord (x := headRecord e s) hqueue
  rw [hrcd]
  exact ⟨hpages, hbytes, hkept, hcs.trans_le hcoal⟩

theorem withinMemory_fxFlush {c : Coal} {s : State} (h : withinMemory s.rcd) : withinMemory (fxFlush c s).rcd := by
  have hext := flushEntry_extent c s.rcd
  have hcoal : (flushEntry c s.rcd).coal.length ≤ 8 := by
    rw [flushEntry_coal]
    exact coal_le_of_withinMemory h
  unfold fxFlush
  dsimp only
  split
  · exact withinMemory_of_extent h hext (List.length_erase_le.trans hcoal)
  split
  · exact withinMemory_of_extent h hext ((List.length_map _).trans_le hcoal)
  · exact h

/-- Settles O42: a record goes to a page that has room for it, to Keep while that has, and an entry is freed before a
ninth is taken. -/
theorem recorderStaysWithinItsMemory : Obligations.RecorderStaysWithinItsMemory := by
  unfold Obligations.RecorderStaysWithinItsMemory
  intro s h
  exact ⟨fun e => withinMemory_raiseEvent h, fun e rest => withinMemory_fxCommit h, fun c => withinMemory_fxFlush h⟩

end Sys2Proof.Machine

end QueueAndRecorderBounds
